-- ==== Sys2Proof/Word.lean ====
section
/-! DEFINITION. The widths the manual names: bytes, 16-bit fields, 32-bit fields and 16-byte table parts. -/

namespace Sys2Proof

/-- One byte of a cell, of a table part or of a tracker frame (R191, R193). -/
abbrev Byte := BitVec 8

/-- A 16-bit field: a status word, an auxiliary word, a tag of two bytes. -/
abbrev Half := BitVec 16

/-- A 32-bit field: a cycle number, a position on the ring, a time of one of the two time bases (00_scope 4.4). -/
abbrev Word := BitVec 32

/-- A 16-byte part of table memory, byte 0 in the lowest eight bits (R191: least significant byte first). -/
abbrev Part := BitVec 128

end Sys2Proof
end

