-- ==== Sys2Proof/Syntax.lean ====
section
/-! DEFINITION. The commands of the part: one constructor of `Instr` for each row of spec/opcode_table.json, with the
row's operands. A command is one whole event at the part's pins (log entry 1). -/

namespace Sys2Proof

/-- The two ring ports (R134). -/
inductive Port where
  | up
  | down
  deriving DecidableEq, Repr

/-- The six stations of the brick path (section 2.1). -/
inductive Station where
  | feed
  | saw
  | glue
  | shuttle
  | flipper
  | gripper
  deriving DecidableEq, Repr

/-- A 32-byte ring cell (section 12.2). Byte k of the payload (byte k + 4 of the cell) is bits 8k to 8k + 7. -/
structure Cell where
  dst : Byte
  src : Byte
  kind : Byte
  flags : Byte
  payload : BitVec 192
  /-- The received CRC-32, bytes 28 to 31, least significant byte first. -/
  crc : Word
  deriving DecidableEq, Repr

/-- What comes with a SET cell for a fine drive: its payload, which is disregarded (R158), and whether the TRAIN cell of the cell's
cycle was received (R82, log entry 35). -/
structure FineBody where
  payload : BitVec 192
  trainSeen : Bool
  deriving DecidableEq, Repr

/-- Who sends a management operation: source address, tag and requested level of the MGT cell (section 12.2). -/
structure Sender where
  src : Byte
  tag : Byte
  level : Byte
  deriving DecidableEq, Repr

/-- The commands, one constructor per row of spec/opcode_table.json. -/
inductive Instr where
  /-- RESET_N is asserted and released; the operands are the straps and the levels of TRK_READY and TRK_RXD (R190). -/
  | powerOnReset (ra oa : BitVec 7) (ready rxdSpace : Bool)
  /-- A whole cell arrives at a port (R134). -/
  | cellReceive (port : Port) (cell : Cell)
  /-- No cell has begun at a port for 1 ms (R135). -/
  | lineActivityTimeout (port : Port)
  /-- A transmit side sends its next cell (R136). -/
  | cellTransmit (port : Port)
  /-- A good TRAIN cell with RETURN clear arrives at the UP port (R140). -/
  | outboundTrainArrival (dst src flags : Byte) (cycle : Word) (period : Half) (rest : BitVec 144)
  /-- A good END cell arrives at the UP port (R141). -/
  | outboundEndArrival (dst src flags : Byte) (payload : BitVec 192)
  /-- A drive SET cell arrives at the UP port, with the CRC it carries (R157). -/
  | coarseSet (dst src flags : Byte) (position velocity : Word) (setFlags : Byte) (rest : BitVec 120) (crc : Word)
  /-- A SET cell for a fine drive arrives at the UP port (R158), of a cycle whose TRAIN cell was received or was not. -/
  | fineSet (dst src flags : Byte) (body : FineBody) (crc : Word)
  /-- A SET cell for a station arrives at the UP port (R159); its payload is disregarded. -/
  | stationSet (dst src flags : Byte) (payload : BitVec 192) (crc : Word)
  /-- A good FBK cell arrives at the DOWN port (R154). -/
  | fbkCapture (dst src flags : Byte) (actual : Word) (status aux0 aux1 aux2 aux3 : Half) (rest : BitVec 80)
  /-- FEED reports DONE (R32): node address, echoed number, brick-present sensor, measured value. -/
  | feedOneDone (src echo : Byte) (brick : Bool) (measured : Word)
  /-- SAW reports DONE for CUT (R33). -/
  | cutDone (src echo : Byte) (brick : Bool) (measured : Word)
  /-- SAW reports DONE for EJECT (R34). -/
  | ejectDone (src echo : Byte) (brick : Bool) (measured : Word)
  /-- GLUE reports DONE (R35). -/
  | glueDone (src echo : Byte) (brick : Bool) (measured : Word)
  /-- SHUTTLE reports DONE for LOAD (R36). -/
  | loadDone (src echo : Byte) (brick : Bool) (measured : Word)
  /-- SHUTTLE reports DONE for DELIVER (R36). -/
  | deliverDone (src echo : Byte) (brick : Bool) (measured : Word)
  /-- FLIPPER reports DONE for HANDOVER (R37). -/
  | handoverDone (src echo : Byte) (brick : Bool) (measured : Word)
  /-- FLIPPER reports DONE for DROP (R38). -/
  | dropDone (src echo : Byte) (brick : Bool) (measured : Word)
  /-- GRIPPER reports DONE for OPEN (R59). -/
  | openDone (src echo : Byte) (brick : Bool) (measured : Word)
  /-- A good END cell arrives at the DOWN port (R143). -/
  | returnEndArrival (dst src flags : Byte) (payload : BitVec 192)
  /-- The train watchdog's expiry is reached (R146). -/
  | trainWatchdogExpiry
  /-- A station's command timer expires (R30). -/
  | stationTimeout (station : Station)
  /-- The open-time timer of a ticket expires (R40). -/
  | openTimeExpiry (ticket : Half)
  /-- The settle timer expires (R55). -/
  | placeTimeout
  /-- A character completes on TRK_RXD: data bits, parity bit and stop bit as sampled, true for mark (R87). -/
  | characterReceive (data : Byte) (parity stop : Bool)
  /-- The 24 characters of a sample frame arrive on TRK_RXD (R90), the last one with a wrong parity bit if `badParity`. -/
  | sampleFrameComplete (seq latency : Half) (x y z : Word) (yaw : Half) (quality status : Byte) (crc : Half) (badParity : Bool)
  /-- In the loop test the rest of the frame being sent reaches the receiver (R101): `noise` is added to its CRC field,
  the last character has a wrong parity bit if `badParity`. -/
  | loopFrame (noise : Half) (badParity : Bool)
  /-- TRK_RXD has been at space for two character times (R88). -/
  | lineBreak
  /-- TRK_RXD returns to mark after a break (R88). -/
  | lineBreakEnd
  /-- TRK_READY takes a level, true for active (R98). -/
  | trkReadyChange (active : Bool)
  /-- The stale expiry is reached (R96). -/
  | staleExpiry
  /-- The lost expiry is reached (R96). -/
  | lostExpiry
  /-- A REACQUIRE frame falls due (R99). -/
  | reacquireDue
  /-- The REACQUIRE frame being sent finishes (R100). -/
  | reacquireSent
  /-- READ of a part of a table entry (R169). -/
  | read (who : Sender) (table : BitVec 4) (part : BitVec 3) (index : Half)
  /-- WRITE to a table with no row of its own (R165). -/
  | write (who : Sender) (table : BitVec 4) (part : BitVec 3) (index mask : Half) (data : Part)
  /-- WRITE to the ORIGIN table (R162). -/
  | writeOrigin (who : Sender) (part : BitVec 3) (index mask : Half) (data : Part)
  /-- WRITE to the PARAM table (R172). -/
  | writeParam (who : Sender) (part : BitVec 3) (index mask : Half) (data : Part)
  /-- WRITE to PARAM part 3 that sets the apply flag (R86); the mask and data select the other bytes. -/
  | applySettings (who : Sender) (index mask : Half) (data : Part)
  /-- WRITE to PARAM part 3 that sets TRK_LOOP (R101). -/
  | trkLoopSet (who : Sender) (index mask : Half) (data : Part)
  /-- WRITE to PARAM part 3 that clears TRK_LOOP (R101). -/
  | trkLoopClear (who : Sender) (index mask : Half) (data : Part)
  /-- WRITE to the AXIS table (R151). -/
  | writeAxis (who : Sender) (part : BitVec 3) (index mask : Half) (data : Part)
  /-- WRITE to the TERM table (R124). -/
  | writeTerm (who : Sender) (part : BitVec 3) (index mask : Half) (data : Part)
  /-- WRITE to the ZONE table (R108). -/
  | writeZone (who : Sender) (part : BitVec 3) (index mask : Half) (data : Part)
  /-- WRITE to the COURSE table (R1). -/
  | writeCourse (who : Sender) (part : BitVec 3) (index mask : Half) (data : Part)
  /-- PROBE of a zone or a course (R170). -/
  | probe (who : Sender) (table : BitVec 4) (index : Half)
  /-- SCAN of a table (R171): start index, count, direction (1 or 0xFF for −1), stop condition. -/
  | scan (who : Sender) (table : BitVec 4) (index count : Half) (dir stop : Byte)
  /-- PLAN_APPEND of a 16-byte record (R10). -/
  | planAppend (who : Sender) (record : Part)
  /-- PLAN_FLUSH from lay number L (R12). -/
  | planFlush (who : Sender) (lay : Word)
  /-- SKIP of lay number L, 0 for the head (R13). -/
  | skip (who : Sender) (lay : Word)
  /-- MODE GUARD (R181). -/
  | modeGuard (who : Sender)
  /-- MODE LAY (R181). -/
  | modeLay (who : Sender)
  /-- MODE STANDBY (R181). -/
  | modeStandby (who : Sender)
  /-- MODE HOLD (R182). -/
  | modeHold (who : Sender)
  /-- MODE RESUME (R182). -/
  | resume (who : Sender)
  /-- MODE RECOVER (R182). -/
  | recover (who : Sender)
  /-- SUSPEND of a zone (R109). -/
  | suspend (who : Sender) (index : Half)
  /-- RESTORE of a zone (R109). -/
  | restore (who : Sender) (index : Half)
  /-- CLEAR_FAULTS (R174). -/
  | clearFaults (who : Sender)
  /-- STATION RETRY of a station code (R45). -/
  | stationRetry (who : Sender) (station : Half)
  /-- STATION DISCARD of a station code (R46). -/
  | stationDiscard (who : Sender) (station : Half)
  /-- RESTART (R175). -/
  | restart (who : Sender)
  /-- RESET, the ring reset (R175). -/
  | ringReset (who : Sender)
  /-- An operation code the part does not know (R164); byte 7 of the cell and the rest are disregarded. -/
  | unknownOp (who : Sender) (op selector : Byte) (index mask : Half) (data : Part)
  /-- One or two bits of a word of table memory flip (R177): part number 0 to 4,813, word 0 or 1, bits 0 to 71. -/
  | tableMemoryError (part word bit : Nat) (second : Option Nat)
  deriving DecidableEq, Repr

end Sys2Proof
end

