-- ==== Sys2Proof/Decode.lean ====
section
/-! DEFINITION. The words of the opcode table. The part is a block without an instruction encoding: no row of
spec/opcode_table.json gives bits (its rows are events), so no word spells a command. -/

namespace Sys2Proof

/-- The command that a word spells by the table's bits: none, for any word, since no row of the table gives bits. -/
def decodeTableWord (_nbits _w : Nat) : Option Instr := none

end Sys2Proof
end

