-- ==== Sys2Proof/Config.lean ====
section
/-! DEFINITION. What the manual leaves to the implementation: the free values. -/

namespace Sys2Proof

/-- What the check of one 8-byte word of table memory finds (R177). -/
inductive WordFinding where
  /-- No error: the word is used as it stands. -/
  | clean (data : BitVec 64)
  /-- One bit in error: the word is corrected to `data`, used and written back. -/
  | corrected (data : BitVec 64)
  /-- Two bits in error: the part is uncorrectable. -/
  | uncorrectable
  deriving DecidableEq, Repr, Inhabited

/-- DESIGN CHOICE (log entry 9), safe: a free value. R177 says what a read finds in a word with none, one or two bits in error,
and gives no finding for three or more. For such a word (its number, its stored data, the flipped bits) the finding
is this constant, of which nothing is known. -/
opaque Config.multiFlip : Nat → BitVec 64 → List Nat → WordFinding

end Sys2Proof
end

