-- ==== Sys2Proof/Machine/State.lean ====
section
/-! DEFINITION. The state of the part, block by block (00_scope 2.4), and its values right after power-on reset.
Integers computed by the part (site positions, commands, errors) are Int or Nat and are saturated where the manual
saturates them; words as they stand in cells and tables are bit vectors; counters are Nat, saturated by their one
increment operation. -/

namespace Sys2Proof.Machine

/-- Four like values, one for each axis of the fine stage, or for X, Y, Z and W of a position. -/
structure Quad (α : Type) where
  x : α
  y : α
  z : α
  w : α
  deriving DecidableEq, Repr

/-- Reasons a step can stop with a fault. -/
inductive Fault where
  /-- Raised by TABLE_MEMORY_ERROR naming a part, word or bit that table memory does not have (section 10.8: 4,814 parts
  of two words of 72 bits). Safe: no such event exists. -/
  | noSuchBit
  deriving DecidableEq, Repr

/-- Reasons a step can be refused. -/
inductive Refusal where
  /-- Raised by `exec` for a command that has no meaning yet, by its mnemonic. Safe. No arm raises it any more. -/
  | notModelled (mnemonic : String)
  deriving DecidableEq, Repr

/-! ### Time and pins -/

/-- The two free-running time bases (00_scope 4.4). -/
structure Clock where
  us : Word
  ms : Word
  /-- The model's own: microseconds passed within the present millisecond, 0 to 999 (log entry 4). -/
  sub : Nat
  deriving DecidableEq, Repr

/-- The straps as sampled at power-on reset and the level input TRK_READY (00_scope 8). -/
structure Pins where
  ra : BitVec 7
  oa : BitVec 7
  trkReady : Bool
  deriving DecidableEq, Repr

/-! ### Ring ports (chapter 8) -/

/-- The sync state of a port (R134). -/
inductive Sync where
  | hunting
  | synced
  deriving DecidableEq, Repr

/-- The receiving side of a port (R134, R135). -/
structure PortRx where
  sync : Sync
  badRun : Nat
  goodRun : Nat
  good : Nat
  bad : Nat
  losses : Nat
  /-- The line-activity timer: the microsecond at which it was restarted, or none once it has run out. -/
  activity : Option Word
  deriving DecidableEq, Repr

/-- The transmitting side of a port (R136). `line` is the model's own: the cell it sent last (log entry 18). -/
structure PortTx where
  queue : List Cell
  line : Option Cell
  deriving DecidableEq, Repr

/-- The ring ports (R134 to R148). -/
structure Ring where
  up : PortRx
  down : PortRx
  /-- The transmit side of the UP port. -/
  txUp : PortTx
  /-- The transmit side of the DOWN port. -/
  txDown : PortTx
  void : Nat
  gaps : Nat
  missed : Nat
  expiries : Nat
  overflows : Nat
  lastCycle : Option Word
  /-- The train watchdog's expiry on the microsecond time base, or none when it does not run (R146). -/
  watchdog : Option Word
  /-- The append opportunity is open (R143). -/
  append : Bool
  /-- The part's own ring address, 0 when it has none (R139). -/
  ownAddr : Byte
  deriving DecidableEq, Repr

/-! ### Axis table side (chapter 9) -/

/-- The twelve roles of R149. -/
inductive Role where
  | coarse
  | fineX
  | fineY
  | fineZ
  | fineW
  | feed
  | saw
  | glue
  | shuttle
  | flipper
  | gripper
  | sensor
  deriving DecidableEq, Repr

/-- What the address index holds for an entry last written present (R152). -/
structure AxisIdx where
  addr : Byte
  role : Role
  deriving DecidableEq, Repr

/-- One entry of the feedback store (R154). -/
structure Feedback where
  actual : Word
  status : Half
  aux0 : Half
  aux1 : Half
  aux2 : Half
  aux3 : Half
  stamp : Option Word
  /-- The complement of the never-seen flag. -/
  seen : Bool
  deriving DecidableEq, Repr

/-- The address index, the feedback store and the setpoint conditioner (R152 to R161). -/
structure Axis where
  index : Vector (Option AxisIdx) 24
  feedback : Vector Feedback 24
  lastFwd : Vector (Option Word) 24
  /-- The slot filled flags of the four fine axes (R160). -/
  slot : Quad Bool
  missing : Nat
  /-- The train whose TRAIN cell arrived last is not over: neither its END nor a fine SET cell of a later cycle has come (R82, R158;
  log entry 35). -/
  trainOpen : Bool
  /-- The entries with a capture, the one captured last first (R45; log entry 15). -/
  recent : List Nat
  deriving DecidableEq, Repr

/-! ### Tracker line unit (chapter 5) -/

/-- The tracker state (R96). -/
inductive TrackState where
  | none
  | valid
  | stale
  | lost
  deriving DecidableEq, Repr

/-- A sample: a candidate, or the current or previous sample (section 5.3). Positions in µm, yaw in cdeg. -/
structure Sample where
  seq : Half
  x : Int
  y : Int
  z : Int
  w : Nat
  /-- The reported latency, saturated to 0 … 5,000 µs (R70). -/
  lat : Nat
  /-- Arrival time. -/
  ta : Word
  /-- Measurement instant. -/
  tm : Word
  quality : Byte
  status : Byte
  /-- A stabilizer computation has taken it as its current sample (R69). -/
  used : Bool
  reanchor : Bool
  deriving DecidableEq, Repr

/-- The four states of the frame assembler (R89). -/
inductive AsmState where
  | hunt
  | length
  | body
  | check
  deriving DecidableEq, Repr

/-- The frame assembler (R89): its state, the parity-bad mark, the body bytes stored so far and the first CRC byte. -/
structure Assembler where
  state : AsmState
  parityBad : Bool
  body : List Byte
  crcHigh : Option Byte
  deriving DecidableEq, Repr

/-- A REACQUIRE frame on its way: its 16 bytes in the order sent, the microsecond at which it began, and (loop test)
how many of its characters the looped receiver has taken (log entry 23). -/
structure TxFrame where
  bytes : List Byte
  begun : Word
  fed : Nat
  deriving DecidableEq, Repr

/-- The fourteen line counters (R103), 16 bits each. -/
structure LineCounters where
  discards : Nat
  framing : Nat
  parityBad : Nat
  lengthErr : Nat
  crcErr : Nat
  seqGaps : Nat
  ignored : Nat
  rejects : Nat
  reanchors : Nat
  superseded : Nat
  breaks : Nat
  readyChanges : Nat
  reacquireSent : Nat
  loopFrames : Nat
  deriving DecidableEq, Repr

/-- The tracker line unit (R85 to R104). Its settings in force and its limits stand in `Params`. -/
structure Line where
  inBreak : Bool
  /-- When a power-on reset found the line at space: the instant at which the break is detected (R104, log entry 21). -/
  breakDue : Option Word
  asm : Assembler
  lastSeq : Option Half
  cur : Option Sample
  prev : Option Sample
  rejectRun : Nat
  state : TrackState
  staleAt : Option Word
  lostAt : Option Word
  /-- The reacquire transmitter runs (R99). -/
  running : Bool
  /-- The millisecond at which the last frame fell due (R99). -/
  lastDue : Option Word
  sending : Option TxFrame
  waiting : Option (List Byte)
  count : LineCounters
  deriving DecidableEq, Repr

/-! ### Stabilizer (chapter 4) -/

/-- The stabilizer (R68). -/
structure Stab where
  c : Quad Int
  cPrev : Quad Int
  pAct : Option (Quad Int)
  pNow : Option (Quad Int)
  e : Quad (Option Int)
  /-- The reach verdict: in reach, out of reach, or absent. -/
  reach : Option Bool
  err : Quad (Option Int)
  /-- Sequence number and quality of the sample last used. -/
  used : Option (Half × Byte)
  deriving DecidableEq, Repr

/-! ### Zone guard (chapter 6) -/

/-- The guard outcome (R112). -/
structure Outcome where
  violation : Bool
  slow : Bool
  noRelease : Bool
  /-- The violating zone, 0 to 64. -/
  zone : Option Nat
  deriving DecidableEq, Repr

/-- The zone guard: its flags beside the descriptors, the outcome and the recovery run (R105, R113, R117). -/
structure Guard where
  /-- The indices of the suspended zones, strictly rising. -/
  suspended : List Nat
  /-- The part numbers of the poisoned zone parts, strictly rising. -/
  poisoned : List Nat
  outcome : Outcome
  run : Nat
  deriving DecidableEq, Repr

/-! ### Term evaluator (chapter 7) -/

/-- The value of a term (R128). -/
inductive TermValue where
  | isFalse
  | isTrue
  | unknown
  deriving DecidableEq, Repr

/-- What the evaluator holds of a term: its current value, and the unknown-as of its record as last read (log entry 25). -/
structure TermHeld where
  value : TermValue
  unknownAs : Bool
  deriving DecidableEq, Repr

/-- The tracker word and its train stamp (R127). -/
structure TrackerWord where
  word : Half
  stamp : Option Word
  deriving DecidableEq, Repr

/-- The term evaluator (R127 to R133). -/
structure Terms where
  held : Vector TermHeld 32
  tracker : Option TrackerWord
  deriving DecidableEq, Repr

/-! ### Plan store (chapter 1) -/

/-- A target: X, Y, Z in µm, W in cdeg (R19). -/
structure Target where
  x : Int
  y : Int
  z : Int
  w : Int
  deriving DecidableEq, Repr

/-- The index entry of a record in the plan queue (R8): WAITING when `failed` is false, FAILED when it is true. -/
structure QueueEntry where
  lay : Nat
  course : Nat
  failed : Bool
  reissue : Nat
  slot : Nat
  deriving DecidableEq, Repr

/-- A record of the bound set, state BOUND (R8, R19). -/
structure BoundEntry where
  lay : Nat
  course : Nat
  reissue : Nat
  slot : Nat
  target : Target
  deriving DecidableEq, Repr

/-- The plan store (R3, R8 to R11). -/
structure Plan where
  /-- Head first. -/
  queue : List QueueEntry
  bound : List BoundEntry
  highest : Nat
  refs : Vector Nat 256
  deriving DecidableEq, Repr

/-! ### Track controller (chapter 2) -/

/-- The thirteen states of a ticket (R25). -/
inductive TicketState where
  | feeding
  | atFeed
  | cutting
  | atSaw
  | gluing
  | atGlue
  | loading
  | onShuttle
  | delivering
  | atFlipper
  | handingOver
  | held
  | releasing
  deriving DecidableEq, Repr

/-- A ticket (R24). The place on the SHUTTLE is the ticket's rank among the shuttle's tickets in admission order (R23,
log entry 24). -/
structure Ticket where
  num : Half
  lay : Nat
  course : Nat
  strict : Bool
  cut : Bool
  glue : Nat
  length : Nat
  reissue : Nat
  pos : Station
  state : TicketState
  reject : Bool
  spoilt : Bool
  purge : Bool
  measured : Option Int
  glueTime : Option Word
  slow : Bool
  deriving DecidableEq, Repr

/-- The station commands (section 2.4); NONE is the absence of one. -/
inductive Cmd where
  | feedOne
  | cut
  | eject
  | glue
  | load
  | deliver
  | handover
  | drop
  | openJaws
  deriving DecidableEq, Repr

/-- A station's stall cause (R26). -/
inductive Stall where
  | none
  | timeout
  | fault
  | mismatch
  deriving DecidableEq, Repr

/-- A command in flight (R26, R30). -/
structure InFlight where
  cmd : Cmd
  num : Nat
  param : Word
  /-- The lay number of the ticket it is issued for: the live ticket of a lay number is one (R20), while the 16-bit ticket
  numbers come round (R24). -/
  ticket : Nat
  /-- The ms time of issue, or of the latest RETRY. -/
  issued : Word
  timeout : Nat
  /-- The command timer runs. -/
  timer : Bool
  deriving DecidableEq, Repr

/-- A station record (R26). -/
structure StationRec where
  lastNum : Nat
  inflight : Option InFlight
  stall : Stall
  deriving DecidableEq, Repr

/-- The track controller (R23 to R26). -/
structure Track where
  /-- The live tickets, in admission order: the oldest first. -/
  tickets : List Ticket
  counter : Half
  feed : StationRec
  saw : StationRec
  glue : StationRec
  shuttle : StationRec
  flipper : StationRec
  gripper : StationRec
  deriving DecidableEq, Repr

/-! ### Lay controller (chapter 3) -/

/-- The placement phase (R48). -/
inductive Phase where
  | idle
  | approach
  | descend
  | settle
  | release
  | lift
  deriving DecidableEq, Repr

/-- The capture (R48, R57). -/
structure Capture where
  x : Int
  y : Int
  z : Int
  w : Int
  quality : Byte
  deriving DecidableEq, Repr

/-- An as-laid record (R65). -/
structure AsLaid where
  lay : Nat
  course : Nat
  ticket : Half
  x : Int
  y : Int
  z : Int
  w : Int
  settle : Nat
  quality : Byte
  slowSettle : Bool
  lateAdhesive : Bool
  heldRelease : Bool
  unconfirmed : Bool
  reissued : Bool
  deriving DecidableEq, Repr

/-- The lay controller (R48). -/
structure Lay where
  phase : Phase
  target : Option Target
  oz : Nat
  gate : Nat
  settle : Nat
  /-- The settle timer's expiry on the ms time base, or none when it is stopped. -/
  timer : Option Word
  capture : Option Capture
  heldRelease : Bool
  openPending : Bool
  /-- Oldest first. -/
  asLaid : List AsLaid
  /-- The latest outbound TRAIN's gate has not met its END yet (R50, R56; log entry 27). -/
  gateDue : Bool
  deriving DecidableEq, Repr

/-! ### Management unit and table memory (chapter 10) -/

/-- The reply codes (R166, section 12.2). -/
inductive ReplyCode where
  | ok
  | okClamped
  | refusedLevel
  | refusedBusy
  | refusedMode
  | badTable
  | badIndex
  | badValue
  | queueFull
  | order
  | notFound
  | memoryError
  | unknownOp
  deriving DecidableEq, Repr

/-- A reply (R166). `second` says that it is the second reply of a PROBE. -/
structure Reply where
  dst : Byte
  tag : Byte
  op : Byte
  code : ReplyCode
  status : Byte
  second : Bool
  data : Part
  deriving DecidableEq, Repr

/-- The management unit (R166, R177, R178). -/
structure Mgmt where
  /-- Oldest first. -/
  replies : List Reply
  dropped : Nat
  corrected : Nat
  uncorrectable : Nat
  scrub : Nat
  /-- The last PLAN slot was the part read last: the pass is counted at the read of the first origin part (R178, log entry
  36). -/
  passDue : Bool
  passes : Nat
  /-- The part numbers of the ORIGIN, AXIS, TERM and COURSE parts marked unreadable, strictly rising. -/
  unreadable : List Nat
  deriving DecidableEq, Repr

/-- The bytes of table memory that are not 0, by rising address: byte k of part n stands at address 16 n + k. -/
abbrev Memory := List Host.Cell

/-- Table memory: its bytes, and the flipped bits of its words (bit b of word w of part n is number (2 n + w) · 72 + b),
strictly rising (log entry 8). -/
structure TableMem where
  cells : Memory
  flips : List Nat
  deriving DecidableEq, Repr

/-- The parameter values in force (R172), as their owning blocks hold them. -/
structure Params where
  reissueLimit : Nat
  openTime : Nat
  reserve : Nat
  lengthTol : Nat
  hover : Nat
  descendStep : Nat
  liftStep : Nat
  reachMargin : Nat
  settleTime : Nat
  releaseK : Nat
  tolX : Nat
  tolY : Nat
  tolZ : Nat
  tolW : Nat
  lAct : Nat
  rate : Nat
  parity : Nat
  trkLoop : Bool
  minQuality : Nat
  jumpLimit : Nat
  staleAge : Nat
  lostAge : Nat
  hx : Nat
  hy : Nat
  hz : Nat
  holdTerm : Nat
  deriving DecidableEq, Repr

/-! ### Mode controller (chapter 11) -/

/-- The mode (R180). -/
inductive Mode where
  | standby
  | guard
  | lay
  | hold
  deriving DecidableEq, Repr

/-- The condition causes (R183). -/
structure Conditions where
  guard : Bool
  tracker : Bool
  zoneEcc : Bool
  term : Bool
  deriving DecidableEq, Repr

/-- The sixteen fault kinds (R188). -/
inductive FaultKind where
  | stationTimeout
  | stationFault
  | trackMismatch
  | recordLimit
  | courseAbsent
  | targetInZone
  | recordFailed
  | planEcc
  | zoneEcc
  | tableEcc
  | placeTimeout
  | missingSlot
  | trackerLost
  | guardViolation
  | starved
  | termHold
  deriving DecidableEq, Repr

/-- The first-fault record (R188). -/
structure FirstFault where
  kind : FaultKind
  detail : Word
  ms : Word
  deriving DecidableEq, Repr

/-- The mode controller (R180). -/
structure Ctl where
  mode : Mode
  /-- The return mode: GUARD, LAY or none. -/
  ret : Option Mode
  recovery : Bool
  conditions : Conditions
  starved : Bool
  request : Bool
  /-- The fault set: bit n − 1 for the fault of code n, as the STAT cell shows it (section 12.2). -/
  faults : BitVec 16
  first : Option FirstFault
  /-- HOLD_N is asserted, that is driven low (R187). -/
  holdN : Bool
  deriving DecidableEq, Repr

end Sys2Proof.Machine

namespace Sys2Proof.Machine

/-- The whole part, and the queue of the commands that wait for it. -/
structure State where
  clock : Clock
  pins : Pins
  ring : Ring
  axis : Axis
  line : Line
  stab : Stab
  guard : Guard
  terms : Terms
  plan : Plan
  track : Track
  lay : Lay
  mgmt : Mgmt
  mem : TableMem
  params : Params
  ctl : Ctl
  /-- The commands that wait, first in first out (the model's own). -/
  pending : List Instr
  deriving DecidableEq, Repr

/-! ### Updates, one per block -/

def State.setClock (s : State) (v : Clock) : State := { s with clock := v }
def State.setPins (s : State) (v : Pins) : State := { s with pins := v }
def State.setRing (s : State) (v : Ring) : State := { s with ring := v }
def State.setAxis (s : State) (v : Axis) : State := { s with axis := v }
def State.setLine (s : State) (v : Line) : State := { s with line := v }
def State.setStab (s : State) (v : Stab) : State := { s with stab := v }
def State.setGuard (s : State) (v : Guard) : State := { s with guard := v }
def State.setTerms (s : State) (v : Terms) : State := { s with terms := v }
def State.setPlan (s : State) (v : Plan) : State := { s with plan := v }
def State.setTrack (s : State) (v : Track) : State := { s with track := v }
def State.setLay (s : State) (v : Lay) : State := { s with lay := v }
def State.setMgmt (s : State) (v : Mgmt) : State := { s with mgmt := v }
def State.setMem (s : State) (v : TableMem) : State := { s with mem := v }
def State.setParams (s : State) (v : Params) : State := { s with params := v }
def State.setCtl (s : State) (v : Ctl) : State := { s with ctl := v }
def State.setPending (s : State) (v : List Instr) : State := { s with pending := v }

/-! ### Power-on values, block by block -/

/-- R148: a port's receiving side, its line-activity timer restarted at `now`. -/
def PortRx.initial (now : Word) : PortRx :=
  { sync := .hunting, badRun := 0, goodRun := 0, good := 0, bad := 0, losses := 0, activity := some now }

/-- R148: a transmit side with nothing waiting. -/
def PortTx.initial : PortTx := { queue := [], line := none }

/-- R148. -/
def Ring.initial (now : Word) (own : Byte) : Ring :=
  { up := PortRx.initial now, down := PortRx.initial now, txUp := PortTx.initial, txDown := PortTx.initial,
    void := 0, gaps := 0, missed := 0, expiries := 0, overflows := 0, lastCycle := none, watchdog := none,
    append := false, ownAddr := own }

/-- R161: never-seen, values zero, no stamp. -/
def Feedback.initial : Feedback :=
  { actual := 0, status := 0, aux0 := 0, aux1 := 0, aux2 := 0, aux3 := 0, stamp := none, seen := false }

/-- R161. -/
def Axis.initial : Axis :=
  { index := Vector.replicate 24 none, feedback := Vector.replicate 24 Feedback.initial,
    lastFwd := Vector.replicate 24 none, slot := ⟨false, false, false, false⟩, missing := 0,
    trainOpen := false, recent := [] }

/-- R104: HUNT, no frame begun. -/
def Assembler.initial : Assembler := { state := .hunt, parityBad := false, body := [], crcHigh := none }

/-- R104: every counter 0. -/
def LineCounters.initial : LineCounters :=
  { discards := 0, framing := 0, parityBad := 0, lengthErr := 0, crcErr := 0, seqGaps := 0, ignored := 0, rejects := 0,
    reanchors := 0, superseded := 0, breaks := 0, readyChanges := 0, reacquireSent := 0, loopFrames := 0 }

/-- R104. -/
def Line.initial : Line :=
  { inBreak := false, breakDue := none, asm := Assembler.initial, lastSeq := none, cur := none, prev := none,
    rejectRun := 0, state := .none, staleAt := none, lostAt := none, running := false, lastDue := none,
    sending := none, waiting := none, count := LineCounters.initial }

/-- R84. -/
def Stab.initial : Stab :=
  { c := ⟨0, 0, 0, 0⟩, cPrev := ⟨0, 0, 0, 0⟩, pAct := none, pNow := none, e := ⟨none, none, none, none⟩, reach := none,
    err := ⟨none, none, none, none⟩, used := none }

/-- R123. -/
def Guard.initial : Guard :=
  { suspended := [], poisoned := [], outcome := { violation := false, slow := false, noRelease := false, zone := none },
    run := 0 }

/-- R133. -/
def Terms.initial : Terms :=
  { held := Vector.replicate 32 { value := .unknown, unknownAs := false }, tracker := none }

/-- R22. -/
def Plan.initial : Plan := { queue := [], bound := [], highest := 0, refs := Vector.replicate 256 0 }

/-- R47. -/
def StationRec.initial : StationRec := { lastNum := 0, inflight := none, stall := .none }

/-- R47. -/
def Track.initial : Track :=
  { tickets := [], counter := 0, feed := StationRec.initial, saw := StationRec.initial, glue := StationRec.initial,
    shuttle := StationRec.initial, flipper := StationRec.initial, gripper := StationRec.initial }

/-- R67. -/
def Lay.initial : Lay :=
  { phase := .idle, target := none, oz := 0, gate := 0, settle := 0, timer := none, capture := none,
    heldRelease := false, openPending := false, asLaid := [], gateDue := false }

/-- R179. -/
def Mgmt.initial : Mgmt :=
  { replies := [], dropped := 0, corrected := 0, uncorrectable := 0, scrub := 0, passDue := false, passes := 0,
    unreadable := [] }

/-- The defaults of R15, R41, R49, R83, R102, R122 and R131. -/
def Params.initial : Params :=
  { reissueLimit := 3, openTime := 300000, reserve := 60000, lengthTol := 1000,
    hover := 30000, descendStep := 500, liftStep := 1000, reachMargin := 10000, settleTime := 3000, releaseK := 8,
    tolX := 500, tolY := 500, tolZ := 500, tolW := 10, lAct := 1500,
    rate := 3, parity := 0, trkLoop := false, minQuality := 64, jumpLimit := 20000, staleAge := 4000, lostAge := 50000,
    hx := 400000, hy := 400000, hz := 300000, holdTerm := 255 }

/-- R190: STANDBY, TRACKER the one active condition cause, HOLD_N asserted. -/
def Ctl.initial : Ctl :=
  { mode := .standby, ret := none, recovery := false,
    conditions := { guard := false, tracker := true, zoneEcc := false, term := false },
    starved := false, request := false, faults := 0, first := none, holdN := true }

/-- The stored image of the default parameters, PARAM parts 0 to 4 (R179, section 12.3): parts 8 to 12 of table memory. -/
def paramCells : Memory :=
  [(128, 3), (132, 0xE0), (133, 0x93), (134, 0x04), (136, 0x60), (137, 0xEA), (140, 0xE8), (141, 0x03)] ++
  [(144, 0x30), (145, 0x75), (148, 0xF4), (149, 0x01), (150, 0xE8), (151, 0x03), (152, 0x10), (153, 0x27),
    (156, 0xB8), (157, 0x0B), (158, 8)] ++
  [(160, 0xF4), (161, 0x01), (162, 0xF4), (163, 0x01), (164, 0xF4), (165, 0x01), (166, 10), (168, 0xDC), (169, 0x05)] ++
  [(176, 3), (179, 64), (180, 0x20), (181, 0x4E), (184, 0xA0), (185, 0x0F), (186, 0x50), (187, 0xC3)] ++
  [(192, 0x80), (193, 0x1A), (194, 0x06), (196, 0x80), (197, 0x1A), (198, 0x06), (200, 0xE0), (201, 0x93), (202, 0x04),
    (204, 255)]

/-- The part right after power-on reset (R190), with the time bases at 0 (log entry 4), the straps at RA 1 and OA 2
(log entry 5) and TRK_READY inactive (log entry 6). -/
def State.reset : State :=
  { clock := { us := 0, ms := 0, sub := 0 }
    pins := { ra := 1, oa := 2, trkReady := false }
    ring := Ring.initial 0 1
    axis := Axis.initial
    line := Line.initial
    stab := Stab.initial
    guard := Guard.initial
    terms := Terms.initial
    plan := Plan.initial
    track := Track.initial
    lay := Lay.initial
    mgmt := Mgmt.initial
    mem := { cells := [(0, 1), (1, 2)] ++ paramCells, flips := [] }
    params := Params.initial
    ctl := Ctl.initial
    pending := [] }

end Sys2Proof.Machine
end

