-- ==== Sys2Proof/Machine/Ops.lean ====
section
/-! DEFINITION. The shared operations: arithmetic, time, sets, bytes of table memory, faults, station records and tickets.
Each is written once and used by every command that needs it. -/

namespace Sys2Proof.Machine

/-! ### Arithmetic (00_scope 4.3) -/

/-- Saturate to a range: clamp to the nearest end. -/
def sat (lo hi v : Int) : Int := max lo (min hi v)

/-- Saturate to signed 32-bit. -/
def sat32 (v : Int) : Int := sat (-2147483648) 2147483647 v

/-- Clamp a parameter to its range (R172). -/
def clampN (lo hi v : Nat) : Nat := max lo (min hi v)

/-- Count up by one, saturating at 65,535: the one increment of every 16-bit counter (00_scope 4.3). -/
def bump (n : Nat) : Nat := min 65535 (n + 1)

/-- Count up by `k`, saturating at 65,535; nothing to count leaves the counter as it is. -/
def bumpBy (k n : Nat) : Nat := if k = 0 then n else min 65535 (n + k)

/-- A difference of two yaws, wrapped into −17,999 … 18,000 (00_scope 4.2). -/
def wrapYaw (d : Int) : Int :=
  let r := d % 36000
  if r ≤ 18000 then r else r - 36000

/-- A signed 32-bit number as its two's complement word (R191). -/
def word32 (v : Int) : Word := BitVec.ofInt 32 v

/-! ### Time (00_scope 4.4) -/

/-- The time passed since `since`, modulo 2^32. -/
def elapsed (now since : Word) : Nat := (now - since).toNat

/-- The instant `inst` has been reached at `now`: every interval the part uses is shorter than 2^31 units. -/
def reached (now inst : Word) : Bool := decide ((now - inst).toNat < 2147483648)

/-- A stamp is fresh: the last cycle number less the stamp, modulo 2^32, is 0, 1 or 2 (R127, R155). -/
def freshStamp (last stamp : Option Word) : Bool :=
  match last, stamp with
  | some n, some m => decide ((n - m).toNat ≤ 2)
  | _, _ => false

/-! ### Sets of numbers, strictly rising -/

/-- Add a number to a strictly rising list. -/
def setInsert (n : Nat) : List Nat → List Nat
  | [] => [n]
  | k :: ks => if n < k then n :: k :: ks else if n = k then k :: ks else k :: setInsert n ks

/-- Take a number out of a list. -/
def setErase (n : Nat) (l : List Nat) : List Nat := l.filter (fun k => k != n)

/-- Flip a number's membership in a strictly rising list. -/
def setToggle (n : Nat) (l : List Nat) : List Nat := if l.contains n then setErase n l else setInsert n l

/-- A list of numbers is strictly rising. -/
def setWf : List Nat → Bool
  | [] => true
  | [_] => true
  | a :: b :: l => decide (a < b) && setWf (b :: l)

/-! ### Bytes and fields of a part (R191) -/

/-- The field of `n` bytes at byte `i` of a part. -/
def field (p : Part) (i n : Nat) : Nat := (p.extractLsb' (8 * i) (8 * n)).toNat

/-- The signed 32-bit field at byte `i` of a part. -/
def fieldInt (p : Part) (i : Nat) : Int := (p.extractLsb' (8 * i) 32).toInt

/-- Fields put one after another, least significant byte first: widths in bytes and values. -/
def packNat : List (Nat × Nat) → Nat
  | [] => 0
  | (n, v) :: fs => v % 2 ^ (8 * n) + 2 ^ (8 * n) * packNat fs

/-- A part from its fields in order. -/
def packPart (fs : List (Nat × Nat)) : Part := BitVec.ofNat 128 (packNat fs)

/-- A payload from its fields in order. -/
def packPayload (fs : List (Nat × Nat)) : BitVec 192 := BitVec.ofNat 192 (packNat fs)

/-- The bits of a part that a byte mask selects: bit i of the mask is byte i (R167). -/
def maskBits (mask : Half) : Part :=
  packPart ((List.range 16).map fun i => (1, if mask.getLsbD i then 255 else 0))

/-- The masked merge (R167). -/
def mergePart (stored data : Part) (mask : Half) : Part :=
  (stored &&& ~~~ (maskBits mask)) ||| (data &&& maskBits mask)

/-! ### The bytes of table memory -/

/-- The byte at an address; one that is not listed is 0 (R179). -/
def readByte : Memory → Nat → Byte
  | [], _ => 0
  | (k, v) :: m, a => if k = a then v else readByte m a

/-- Write one byte, keeping the addresses strictly rising and no byte 0 listed. -/
def writeByte : Memory → Nat → Byte → Memory
  | [], a, v => if v = 0 then [] else [(a, v)]
  | (k, u) :: m, a, v =>
    if a < k then (if v = 0 then (k, u) :: m else (a, v) :: (k, u) :: m)
    else if a = k then (if v = 0 then m else (a, v) :: m)
    else (k, u) :: writeByte m a v

/-- The canonical form: addresses strictly rising, no byte 0 listed. -/
def Memory.wf : Memory → Bool
  | [] => true
  | [(_, v)] => v != 0
  | (k, v) :: (k', v') :: m => v != 0 && decide (k < k') && Memory.wf ((k', v') :: m)

/-- The listed bytes of part `n`. -/
def partCells (m : Memory) (n : Nat) : Memory := m.filter (fun c => c.1 / 16 == n)

/-- The bytes of part `n`, from byte `i` on, `k` of them, least significant first. -/
def gather (m : Memory) (n i : Nat) : Nat → Nat
  | 0 => 0
  | k + 1 => (readByte m (16 * n + i)).toNat + 256 * gather m n (i + 1) k

/-- The stored content of part `n`. -/
def partData (m : Memory) (n : Nat) : Part := BitVec.ofNat 128 (gather (partCells m n) n 0 16)

/-- Write `k` bytes of part `n`, from byte `i` on. -/
def scatter (m : Memory) (n i : Nat) (d : Part) : Nat → Memory
  | 0 => m
  | k + 1 => scatter (writeByte m (16 * n + i) (d.extractLsb' (8 * i) 8)) n (i + 1) d k

/-- Store the 16 bytes of part `n`. -/
def putPart (m : Memory) (n : Nat) (d : Part) : Memory := scatter m n 0 d 16

/-! ### Words and their flipped bits (R177, log entry 8) -/

/-- The stored data of word `w`; part n holds words 2 n and 2 n + 1. -/
def wordData (m : Memory) (w : Nat) : BitVec 64 := (partData m (w / 2)).extractLsb' (64 * (w % 2)) 64

/-- The flipped bits of word `w`. -/
def wordFlips (flips : List Nat) (w : Nat) : List Nat := (flips.filter (fun k => k / 72 == w)).map (· % 72)

/-- What the check of word `w` finds (R177); three or more flipped bits: a free value (log entry 9). -/
def wordFinding (t : TableMem) (w : Nat) : WordFinding :=
  match wordFlips t.flips w with
  | [] => .clean (wordData t.cells w)
  | [_] => .corrected (wordData t.cells w)
  | [_, _] => .uncorrectable
  | bits => Config.multiFlip w (wordData t.cells w) bits

/-- Fresh check bits for word `w`: none of its bits is flipped. -/
def freshWord (flips : List Nat) (w : Nat) : List Nat := flips.filter (fun k => k / 72 != w)

/-- The low and the high word of a part together. -/
def joinWords (lo hi : BitVec 64) : Part := hi ++ lo

/-- Store a part with fresh check bits (R167). -/
def TableMem.store (t : TableMem) (n : Nat) (d : Part) : TableMem :=
  { cells := putPart t.cells n d, flips := freshWord (freshWord t.flips (2 * n)) (2 * n + 1) }

/-- Write word `w` back with fresh check bits (R177). -/
def TableMem.storeWord (t : TableMem) (w : Nat) (d : BitVec 64) : TableMem :=
  let p := partData t.cells (w / 2)
  let p' := if w % 2 = 0 then joinWords d (p.extractLsb' 64 64) else joinWords (p.extractLsb' 0 64) d
  { cells := putPart t.cells (w / 2) p', flips := freshWord t.flips w }

/-! ### The order of the parts (sections 10.8 and R178) -/

/-- A part of table memory, by table, index and part; a PLAN part by slot. -/
inductive Place where
  | origin (i : Nat)
  | param (p : Nat)
  | axis (i : Nat)
  | term (i : Nat)
  | zone (i p : Nat)
  | course (i p : Nat)
  | plan (slot : Nat)
  deriving DecidableEq, Repr

/-- The number of parts (section 10.8). -/
def partCount : Nat := 4814

def originPart (i : Nat) : Nat := i
def paramPart (p : Nat) : Nat := 8 + p
def axisPart (i : Nat) : Nat := 13 + i
def termPart (i : Nat) : Nat := 37 + i
def zonePart (i p : Nat) : Nat := 69 + 2 * i + p
def coursePart (i p : Nat) : Nat := 197 + 2 * i + p
def planPart (slot : Nat) : Nat := 709 + slot

/-- Which part a part number names (section 10.8). -/
def placeOf (n : Nat) : Place :=
  if n < 8 then .origin n
  else if n < 13 then .param (n - 8)
  else if n < 37 then .axis (n - 13)
  else if n < 69 then .term (n - 37)
  else if n < 197 then .zone ((n - 69) / 2) ((n - 69) % 2)
  else if n < 709 then .course ((n - 197) / 2) ((n - 197) % 2)
  else .plan (n - 709)

/-! ### Faults (R188) -/

/-- The code of a fault kind (R188). -/
def FaultKind.code : FaultKind → Nat
  | .stationTimeout => 1
  | .stationFault => 2
  | .trackMismatch => 3
  | .recordLimit => 4
  | .courseAbsent => 5
  | .targetInZone => 6
  | .recordFailed => 7
  | .planEcc => 8
  | .zoneEcc => 9
  | .tableEcc => 10
  | .placeTimeout => 11
  | .missingSlot => 12
  | .trackerLost => 13
  | .guardViolation => 14
  | .starved => 15
  | .termHold => 16

/-- A fault kind is in the fault set. -/
def Ctl.has (c : Ctl) (k : FaultKind) : Bool := c.faults.getLsbD (k.code - 1)

/-- Latch a fault (R188): added if absent; the first-fault record is taken when the set was empty. -/
def Ctl.latch (c : Ctl) (k : FaultKind) (detail ms : Word) : Ctl :=
  if c.has k then c
  else
    { c with
      faults := c.faults ||| (1#16 <<< (k.code - 1))
      first := if c.faults = 0 then some { kind := k, detail := detail, ms := ms } else c.first }

/-- Latch a fault at the present ms time (R188). -/
def latch (k : FaultKind) (detail : Nat) (s : State) : State :=
  s.setCtl (s.ctl.latch k (BitVec.ofNat 32 detail) s.clock.ms)

/-! ### Stations, commands and roles (sections 2.1, 2.4, 12.2, 12.3) -/

/-- The station code (section 2.1). -/
def stationCode : Station → Nat
  | .feed => 0
  | .saw => 1
  | .glue => 2
  | .shuttle => 3
  | .flipper => 4
  | .gripper => 5

/-- The station of a code, none above 5. -/
def stationOfCode : Nat → Option Station
  | 0 => some .feed
  | 1 => some .saw
  | 2 => some .glue
  | 3 => some .shuttle
  | 4 => some .flipper
  | 5 => some .gripper
  | _ => none

/-- The six stations, by code. -/
def allStations : List Station := [.feed, .saw, .glue, .shuttle, .flipper, .gripper]

/-- The axis role of a station (section 2.1). -/
def stationRole : Station → Role
  | .feed => .feed
  | .saw => .saw
  | .glue => .glue
  | .shuttle => .shuttle
  | .flipper => .flipper
  | .gripper => .gripper

/-- The station that a role names, if any. -/
def Role.station : Role → Option Station
  | .feed => some .feed
  | .saw => some .saw
  | .glue => some .glue
  | .shuttle => some .shuttle
  | .flipper => some .flipper
  | .gripper => some .gripper
  | _ => none

/-- The role of a code (section 12.3), none for 0 and 13 to 255. -/
def roleOfCode : Nat → Option Role
  | 1 => some .coarse
  | 2 => some .fineX
  | 3 => some .fineY
  | 4 => some .fineZ
  | 5 => some .fineW
  | 6 => some .feed
  | 7 => some .saw
  | 8 => some .glue
  | 9 => some .shuttle
  | 10 => some .flipper
  | 11 => some .gripper
  | 12 => some .sensor
  | _ => none

/-- The code of a station command (section 12.2). -/
def Cmd.code : Cmd → Nat
  | .feedOne => 1
  | .cut => 2
  | .eject => 3
  | .glue => 4
  | .load => 5
  | .deliver => 6
  | .handover => 7
  | .drop => 8
  | .openJaws => 9

/-- The station a command is addressed to (section 2.4). -/
def Cmd.station : Cmd → Station
  | .feedOne => .feed
  | .cut => .saw
  | .eject => .saw
  | .glue => .glue
  | .load => .shuttle
  | .deliver => .shuttle
  | .handover => .flipper
  | .drop => .flipper
  | .openJaws => .gripper

/-- The stations a command touches: addressed, source and destination (section 2.4). The source of an EJECT is where
its ticket stands. -/
def Cmd.touches (c : Cmd) (pos : Station) : List Station :=
  match c with
  | .feedOne => [.feed]
  | .cut => [.saw, .feed]
  | .eject => [.saw, pos]
  | .glue => [.glue, .saw]
  | .load => [.shuttle, .glue]
  | .deliver => [.shuttle, .flipper]
  | .handover => [.flipper, .gripper]
  | .drop => [.flipper]
  | .openJaws => [.gripper]

/-- The record of a station (R26). -/
def Track.station (t : Track) : Station → StationRec
  | .feed => t.feed
  | .saw => t.saw
  | .glue => t.glue
  | .shuttle => t.shuttle
  | .flipper => t.flipper
  | .gripper => t.gripper

/-- Replace the record of a station. -/
def Track.setStation (t : Track) (st : Station) (r : StationRec) : Track :=
  match st with
  | .feed => { t with feed := r }
  | .saw => { t with saw := r }
  | .glue => { t with glue := r }
  | .shuttle => { t with shuttle := r }
  | .flipper => { t with flipper := r }
  | .gripper => { t with gripper := r }

/-- The next command number: 255 is followed by 1, 0 is never used (R27). -/
def nextNumber (n : Nat) : Nat := if n ≥ 255 then 1 else n + 1

/-! ### Tickets -/

/-- The live ticket of a lay number (R20, R24). -/
def Track.find (t : Track) (lay : Nat) : Option Ticket := t.tickets.find? (fun k => k.lay == lay)

/-- Change the ticket of a lay number. -/
def Track.update (t : Track) (lay : Nat) (f : Ticket → Ticket) : Track :=
  { t with tickets := t.tickets.map (fun k => if k.lay == lay then f k else k) }

/-- Take the ticket of a lay number off the track. -/
def Track.remove (t : Track) (lay : Nat) : Track :=
  { t with tickets := t.tickets.filter (fun k => k.lay != lay) }

/-- The tickets that stand at a station, oldest first. -/
def Track.at (t : Track) (st : Station) : List Ticket := t.tickets.filter (fun k => k.pos == st)

/-- The ticket that stands at a station; on the SHUTTLE the one at place 1 (R23). -/
def Track.first (t : Track) (st : Station) : Option Ticket := (t.at st).head?

/-- A ticket in HANDING_OVER, HELD or RELEASING is committed (R25). -/
def Ticket.committed (t : Ticket) : Bool :=
  match t.state with
  | .handingOver | .held | .releasing => true
  | _ => false

/-- A ticket carries no mark. -/
def Ticket.unmarked (t : Ticket) : Bool := !t.reject && !t.spoilt && !t.purge

/-- Mark PURGE every ticket admitted after the one of lay number `lay` (R42); a committed ticket is never purged. -/
def purgeAfter (lay : Nat) : List Ticket → List Ticket
  | [] => []
  | t :: ts =>
    if t.lay == lay then
      t :: ts.map (fun k => if k.committed then k else { k with purge := true })
    else t :: purgeAfter lay ts

/-- The purge that a mark on a STRICT ticket brings, when the ticket is not committed (R42). -/
def Track.purgeFor (t : Track) (k : Ticket) : Track :=
  if k.strict && !k.committed then { t with tickets := purgeAfter k.lay t.tickets } else t

/-- Mark a ticket SPOILT with its purge (R38, R40, R42); a ticket already SPOILT is not changed. -/
def Track.markSpoilt (t : Track) (k : Ticket) : Track :=
  if k.spoilt then t else (t.update k.lay (fun x => { x with spoilt := true })).purgeFor k

/-- Mark a ticket REJECT with its purge (R33, R42). -/
def Track.markReject (t : Track) (k : Ticket) : Track :=
  if k.reject then t else (t.update k.lay (fun x => { x with reject := true })).purgeFor k

/-- The remaining open time of a ticket (R41), none without a glue time. -/
def remainingOpen (openTime : Nat) (now : Word) (k : Ticket) : Option Nat :=
  k.glueTime.map fun g => openTime - elapsed now g

/-! ### Presence in the axis table (R152, log entry 26) -/

/-- The axis entry is marked unreadable. -/
def axisUnreadable (s : State) (i : Nat) : Bool := s.mgmt.unreadable.contains (axisPart i)

/-- The present, readable entry of a role other than COARSE and SENSOR. -/
def entryOfRole (r : Role) (s : State) : Option Nat :=
  (List.range 24).find? fun i =>
    match s.axis.index[i]?.join with
    | some e => e.role == r && !axisUnreadable s i
    | none => false

/-- The entry that the address index finds for a node address, readable or not. -/
def entryOfAddr (a : Byte) (s : State) : Option (Nat × AxisIdx) :=
  (List.range 24).findSome? fun i =>
    match s.axis.index[i]?.join with
    | some e => if e.addr == a then some (i, e) else none
    | none => none

/-- The feedback of an entry. -/
def feedbackOf (s : State) (i : Nat) : Feedback := s.axis.feedback[i]?.getD Feedback.initial

/-- The ticket that stands HELD at the GRIPPER. -/
def heldTicket (s : State) : Option Ticket := s.track.tickets.find? (fun k => k.state == .held)

/-- The bound record of a lay number. -/
def boundOf (lay : Nat) (s : State) : Option BoundEntry := s.plan.bound.find? (fun b => b.lay == lay)

end Sys2Proof.Machine
end

