-- ==== Sys2Proof/Machine/Operands.lean ====
section
/-! DEFINITION. The formats of chapter 12: cells and their CRC-32, tracker frames and their CRC-16, table record parts,
parameter parts, requests, replies, and the payloads of the part's own cells. -/

namespace Sys2Proof.Machine

/-! ### CRC (R134, R90) -/

/-- One bit of the CRC-32, least significant bit first: the reflected form of polynomial 0x04C11DB7 (R134). -/
def crc32Bit (crc : Word) (bit : Bool) : Word :=
  if (crc.getLsbD 0) != bit then (crc >>> 1) ^^^ 0xEDB88320#32 else crc >>> 1

/-- The CRC-32 register after the `n` lowest bits of a message, lowest first. -/
def crc32Run (msg : BitVec 224) : Nat → Word
  | 0 => 0xFFFFFFFF#32
  | n + 1 => crc32Bit (crc32Run msg n) (msg.getLsbD n)

/-- Bytes 0 to 27 of a cell as one number, byte 0 lowest. -/
def cellBody (c : Cell) : BitVec 224 := c.payload ++ (c.flags ++ (c.kind ++ (c.src ++ c.dst)))

/-- The CRC-32 of a cell (R134): initial value all ones, final inversion of all ones. -/
def cellCrc (c : Cell) : Word := ~~~ (crc32Run (cellBody c) 224)

/-- A cell is good when its computed CRC equals its received CRC (R134). -/
def isGood (c : Cell) : Bool := cellCrc c == c.crc

/-- The cell with its CRC computed afresh over its final content (R137). -/
def sealCell (c : Cell) : Cell := { c with crc := cellCrc c }

/-- One bit of the CRC-16 with polynomial 0x1021, most significant bit first (R90). -/
def crc16Bit (crc : Half) (bit : Bool) : Half :=
  if (crc.getLsbD 15) != bit then (crc <<< 1) ^^^ 0x1021#16 else crc <<< 1

/-- One byte of the CRC-16, its most significant bit first. -/
def crc16Byte (crc : Half) (b : Byte) : Half :=
  [7, 6, 5, 4, 3, 2, 1, 0].foldl (fun c i => crc16Bit c (b.getLsbD i)) crc

/-- The CRC-16 of R90: initial value 0xFFFF, no final inversion. -/
def crc16 (bytes : List Byte) : Half := bytes.foldl crc16Byte 0xFFFF#16

/-! ### Cells (section 12.2) -/

def kindVoid : Byte := 0x00
def kindTrain : Byte := 0x01
def kindEnd : Byte := 0x02
def kindFill : Byte := 0x0F
def kindSet : Byte := 0x10
def kindFbk : Byte := 0x11
def kindMgt : Byte := 0x20
def kindReply : Byte := 0x21
def kindStat : Byte := 0x30
def kindAslaid : Byte := 0x31

/-- The broadcast address. -/
def broadcast : Byte := 127

/-- A good cell of given header and payload. -/
def goodCell (dst src kind flags : Byte) (payload : BitVec 192) : Cell :=
  sealCell { dst := dst, src := src, kind := kind, flags := flags, payload := payload, crc := 0 }

/-- The VOID cell sent in place of a cell received bad (R137). -/
def voidCell : Cell := goodCell 0 0 kindVoid 0 0

/-- The part's own FILL cell (R136, R145). -/
def fillCell (own : Byte) : Cell := goodCell 0 own kindFill 0 0

/-- The cell with a new payload and its CRC computed afresh; the header is kept (R137, R191). -/
def refill (c : Cell) (payload : BitVec 192) : Cell := sealCell { c with payload := payload }

/-- Byte `k` of a cell's payload, byte k + 4 of the cell. -/
def pbyte (c : Cell) (k : Nat) : Byte := c.payload.extractLsb' (8 * k) 8

/-- The 16-bit field at byte `k` of a cell's payload. -/
def phalf (c : Cell) (k : Nat) : Half := c.payload.extractLsb' (8 * k) 16

/-- The 32-bit field at byte `k` of a cell's payload. -/
def pword (c : Cell) (k : Nat) : Word := c.payload.extractLsb' (8 * k) 32

/-- TRAIN with RETURN set (R192: bit 0 of the flags alone). -/
def isReturn (c : Cell) : Bool := c.flags.getLsbD 0

/-- The payload of a TRAIN cell: cycle number, period, unused bytes (R192). -/
def trainPayload (cycle : Word) (period : Half) (rest : BitVec 144) : BitVec 192 := rest ++ (period ++ cycle)

/-- The payload of a drive SET cell: position, velocity, SET flags, bytes 13 to 27 (R192). -/
def setPayload (position velocity : Word) (flags : Byte) (rest : BitVec 120) : BitVec 192 :=
  rest ++ (flags ++ (velocity ++ position))

/-- The payload of a station SET cell: parameter, command code, command number, SET flags (R192). -/
def stationPayload (param : Word) (code num : Nat) (hold : Bool) : BitVec 192 :=
  packPayload [(4, param.toNat), (1, code), (1, num), (2, 0), (1, if hold then 1 else 0)]

/-- The payload of an FBK cell (R192). -/
def fbkPayload (actual : Word) (status aux0 aux1 aux2 aux3 : Half) (rest : BitVec 80) : BitVec 192 :=
  rest ++ (aux3 ++ (aux2 ++ (aux1 ++ (aux0 ++ (status ++ actual)))))

/-- The status word of a station that reports DONE (R192). -/
def doneStatus (brick : Bool) : Half := if brick then 6 else 2

/-! ### Tracker frames (R193) -/

/-- Two bytes, most significant first. -/
def bytes16 (v : Half) : List Byte := [v.extractLsb' 8 8, v.extractLsb' 0 8]

/-- Four bytes, most significant first. -/
def bytes32 (v : Word) : List Byte :=
  [v.extractLsb' 24 8, v.extractLsb' 16 8, v.extractLsb' 8 8, v.extractLsb' 0 8]

/-- The 16-bit field at byte `i` of a frame body, most significant byte first. -/
def be16 (body : List Byte) (i : Nat) : Half := body.getD i 0 ++ body.getD (i + 1) 0

/-- The 32-bit field at byte `i` of a frame body, most significant byte first. -/
def be32 (body : List Byte) (i : Nat) : Word := be16 body i ++ be16 body (i + 2)

/-- The body of a sample frame. -/
def sampleBody (seq latency : Half) (x y z : Word) (yaw : Half) (quality status : Byte) : List Byte :=
  bytes16 seq ++ bytes16 latency ++ bytes32 x ++ bytes32 y ++ bytes32 z ++ bytes16 yaw ++ [quality, status]

/-- A REACQUIRE frame carrying a position (R99, R193): X, Y, Z of P_now, 0 when there is none. -/
def reacquireFrame (pNow : Option (Quad Int)) : List Byte :=
  let body := match pNow with
    | some p => bytes32 (word32 p.x) ++ bytes32 (word32 p.y) ++ bytes32 (word32 p.z)
    | none => List.replicate 12 0
  0xB7#8 :: 12#8 :: (body ++ bytes16 (crc16 (12#8 :: body)))

/-- The candidate of a sample frame body, arriving at `ta` (section 5.3, R70, R193). -/
def candidateOf (body : List Byte) (ta : Word) : Sample :=
  let lat := min 5000 (be16 body 2).toNat
  { seq := be16 body 0, x := (be32 body 4).toInt, y := (be32 body 8).toInt, z := (be32 body 12).toInt,
    w := (be16 body 16).toNat, lat := lat, ta := ta, tm := ta - BitVec.ofNat 32 lat,
    quality := body.getD 18 0, status := body.getD 19 0, used := false, reanchor := false }

/-- The LOCK flag of a sample (R193: bit 0 of its status byte). -/
def Sample.lock (c : Sample) : Bool := c.status.getLsbD 0

/-- The TRACKER_STATUS word of a sample: status flags high, quality low (R127, R193). -/
def Sample.word (c : Sample) : Half := c.status ++ c.quality

/-! ### Table record parts (section 12.3) -/

/-- An ORIGIN entry. -/
structure OriginRec where
  present : Nat
  addr : Nat
  level : Nat
  deriving DecidableEq, Repr

def originRec (p : Part) : OriginRec := { present := field p 0 1, addr := field p 1 1, level := field p 2 1 }

/-- An AXIS entry. -/
structure AxisRec where
  present : Nat
  addr : Nat
  role : Nat
  a : Nat
  b : Nat
  deriving DecidableEq, Repr

def axisRec (p : Part) : AxisRec :=
  { present := field p 0 1, addr := field p 1 1, role := field p 2 1, a := field p 4 4, b := field p 8 4 }

/-- A TERM record (R124). -/
structure TermRec where
  present : Nat
  kind : Nat
  axis : Nat
  aux : Nat
  cond : Nat
  unknownAs : Nat
  operand : Half
  deriving DecidableEq, Repr

def termRec (p : Part) : TermRec :=
  { present := field p 0 1, kind := field p 1 1, axis := field p 2 1, aux := field p 3 1, cond := field p 4 1,
    unknownAs := field p 5 1, operand := p.extractLsb' 48 16 }

/-- An extent field's effective extent in µm (R2, R106). -/
def effectiveExtent (g : Bool) (f : Nat) : Nat := if g then f * 4096 + 4095 else f * 16 + 15

/-- A ZONE descriptor, both parts (R105). -/
structure ZoneRec where
  present : Bool
  type : Nat
  dpl : Nat
  g : Bool
  term : Nat
  base : Quad Int
  ext : Quad Nat
  deriving DecidableEq, Repr

/-- The descriptor of two zone parts; the W components are not used. -/
def zoneRec (p0 p1 : Part) : ZoneRec :=
  { present := p0.getLsbD 0, type := (p0.extractLsb' 1 3).toNat, dpl := (p0.extractLsb' 4 2).toNat, g := p0.getLsbD 6,
    term := field p0 1 1, base := ⟨fieldInt p0 4, fieldInt p0 8, fieldInt p0 12, 0⟩,
    ext := ⟨field p1 0 4 % 1048576, field p1 4 4 % 1048576, field p1 8 4 % 1048576, 0⟩ }

/-- The box maximum on one axis: base + effective extent, formed exactly and saturated to 2^31 − 1 (R2, R106). -/
def boxMax (base : Int) (g : Bool) (f : Nat) : Int := min 2147483647 (base + effectiveExtent g f)

/-- A closed box on X, Y and Z. -/
structure Box where
  lo : Quad Int
  hi : Quad Int
  deriving DecidableEq, Repr

/-- The box of a zone (R106). -/
def ZoneRec.box (z : ZoneRec) : Box :=
  { lo := z.base
    hi := ⟨boxMax z.base.x z.g z.ext.x, boxMax z.base.y z.g z.ext.y, boxMax z.base.z z.g z.ext.z, 0⟩ }

/-- A COURSE descriptor, both parts (section 1.1). -/
structure CourseRec where
  present : Bool
  g : Bool
  term : Nat
  x : Int
  y : Int
  z : Int
  extX : Nat
  extY : Nat
  deriving DecidableEq, Repr

def courseRec (p0 p1 : Part) : CourseRec :=
  { present := p0.getLsbD 0, g := p0.getLsbD 1, term := field p0 1 1, x := fieldInt p0 4, y := fieldInt p0 8,
    z := fieldInt p0 12, extX := field p1 0 4 % 1048576, extY := field p1 4 4 % 1048576 }

/-- A PLAN record (section 1.2). -/
structure PlanRec where
  lay : Nat
  course : Nat
  order : Nat
  cut : Nat
  glue : Nat
  dx : Int
  dy : Int
  yaw : Nat
  length : Nat
  deriving DecidableEq, Repr

def planRec (p : Part) : PlanRec :=
  { lay := field p 0 4, course := field p 4 1, order := (p.extractLsb' 40 2).toNat, cut := (p.extractLsb' 42 2).toNat,
    glue := (p.extractLsb' 44 4).toNat, dx := (p.extractLsb' 48 24).toInt, dy := (p.extractLsb' 72 24).toInt,
    yaw := field p 12 2, length := field p 14 2 }

/-- The bits of a stored part that hold a field; the others read as 0 whatever a WRITE carries (R167, R191). A course's
reference count is held by the plan store (R1) and is 0 in table memory. -/
def usedBits : Place → Part
  | .origin _ => packPart [(1, 255), (1, 255), (1, 255)]
  | .param 0 => packPart [(1, 255), (3, 0), (4, 4294967295), (4, 4294967295), (2, 65535)]
  | .param 1 => packPart [(4, 4294967295), (2, 65535), (2, 65535), (4, 4294967295), (2, 65535), (1, 255)]
  | .param 2 => packPart [(2, 65535), (2, 65535), (2, 65535), (2, 65535), (2, 65535)]
  | .param 3 => packPart [(1, 255), (1, 255), (1, 2), (1, 255), (4, 4294967295), (2, 65535), (4, 4294967295)]
  | .param _ => packPart [(4, 4294967295), (4, 4294967295), (4, 4294967295), (1, 255)]
  | .axis _ => packPart [(1, 255), (1, 255), (1, 255), (1, 0), (4, 4294967295), (4, 4294967295)]
  | .term _ => packPart [(6, 281474976710655), (2, 65535)]
  | .zone _ 0 => packPart [(1, 127), (1, 255), (2, 0), (4, 4294967295), (4, 4294967295), (4, 4294967295)]
  | .zone _ _ => packPart [(4, 1048575), (4, 1048575), (4, 1048575)]
  | .course _ 0 => packPart [(1, 3), (1, 255), (2, 0), (4, 4294967295), (4, 4294967295), (4, 4294967295)]
  | .course _ _ => packPart [(4, 1048575), (4, 1048575)]
  | .plan _ => packPart [(16, 340282366920938463463374607431768211455)]

/-! ### The parameter record (R172, section 12.3) -/

/-- The stored image of PARAM part `p`: the values in force, the apply flag 0. -/
def paramImage (p : Nat) (v : Params) : Part :=
  match p with
  | 0 => packPart [(1, v.reissueLimit), (3, 0), (4, v.openTime), (4, v.reserve), (2, v.lengthTol)]
  | 1 => packPart [(4, v.hover), (2, v.descendStep), (2, v.liftStep), (4, v.reachMargin), (2, v.settleTime),
      (1, v.releaseK)]
  | 2 => packPart [(2, v.tolX), (2, v.tolY), (2, v.tolZ), (2, v.tolW), (2, v.lAct)]
  | 3 => packPart [(1, v.rate), (1, v.parity), (1, if v.trkLoop then 2 else 0), (1, v.minQuality), (4, v.jumpLimit),
      (2, v.staleAge), (4, v.lostAge)]
  | _ => packPart [(4, v.hx), (4, v.hy), (4, v.hz), (1, v.holdTerm)]

/-- The apply flag of a merged part 3 (section 12.3). -/
def applyFlag (m : Part) : Bool := m.getLsbD 16

/-- The parameter values after a merged part `p`, each field clamped by its owner's rule (R172). -/
def paramClamp (p : Nat) (m : Part) (v : Params) : Params :=
  match p with
  | 0 => { v with
      reissueLimit := clampN 1 15 (field m 0 1), openTime := clampN 10000 3600000 (field m 4 4),
      reserve := clampN 0 600000 (field m 8 4), lengthTol := clampN 0 10000 (field m 12 2) }
  | 1 => { v with
      hover := clampN 5000 100000 (field m 0 4), descendStep := clampN 50 5000 (field m 4 2),
      liftStep := clampN 50 10000 (field m 6 2), reachMargin := clampN 0 100000 (field m 8 4),
      settleTime := clampN 100 60000 (field m 12 2), releaseK := clampN 1 255 (field m 14 1) }
  | 2 => { v with
      tolX := clampN 10 10000 (field m 0 2), tolY := clampN 10 10000 (field m 2 2), tolZ := clampN 10 10000 (field m 4 2),
      tolW := clampN 1 500 (field m 6 2), lAct := clampN 0 10000 (field m 8 2) }
  | 3 =>
    let stale := clampN 1000 20000 (field m 8 2)
    { v with
      rate := if applyFlag m then clampN 0 5 (field m 0 1) else v.rate
      parity := if applyFlag m then clampN 0 2 (field m 1 1) else v.parity
      trkLoop := m.getLsbD 17
      minQuality := field m 3 1
      jumpLimit := clampN 1000 200000 (field m 4 4)
      staleAge := stale
      lostAge := clampN stale 200000 (field m 10 4) }
  | _ => { v with
      hx := clampN 0 1000000 (field m 0 4), hy := clampN 0 1000000 (field m 4 4), hz := clampN 0 1000000 (field m 8 4),
      holdTerm := if field m 12 1 < 32 then field m 12 1 else 255 }

/-! ### Requests and replies (section 12.2) -/

/-- The fields of an MGT cell. -/
structure Request where
  src : Byte
  op : Byte
  tag : Byte
  level : Byte
  table : BitVec 4
  part : BitVec 3
  index : Half
  mask : Half
  data : Part
  deriving DecidableEq, Repr

/-- The request that an MGT cell carries. -/
def requestOf (c : Cell) : Request :=
  { src := c.src, op := pbyte c 0, tag := pbyte c 1, level := pbyte c 2, table := (pbyte c 3).extractLsb' 0 4,
    part := (pbyte c 3).extractLsb' 4 3, index := phalf c 4, mask := phalf c 6, data := c.payload.extractLsb' 64 128 }

/-- The payload of an MGT cell with byte 7 given whole. -/
def mgtPayload (op tag level selector : Byte) (index mask : Half) (data : Part) : BitVec 192 :=
  data ++ (mask ++ (index ++ (selector ++ (level ++ (tag ++ op)))))

/-- Byte 7 of an MGT cell: table code and part. -/
def selectorOf (table : BitVec 4) (part : BitVec 3) : Byte := 0#1 ++ (part ++ table)

def opRead : Byte := 1
def opWrite : Byte := 2
def opProbe : Byte := 3
def opScan : Byte := 4
def opPlanAppend : Byte := 5
def opPlanFlush : Byte := 6
def opSkip : Byte := 7
def opMode : Byte := 8
def opSuspend : Byte := 9
def opRestore : Byte := 10
def opClearFaults : Byte := 11
def opStation : Byte := 12
def opRestart : Byte := 13
def opReset : Byte := 14

/-- The code of a reply code (section 12.2). -/
def ReplyCode.code : ReplyCode → Byte
  | .ok => 0
  | .okClamped => 1
  | .refusedLevel => 2
  | .refusedBusy => 3
  | .refusedMode => 4
  | .badTable => 5
  | .badIndex => 6
  | .badValue => 7
  | .queueFull => 8
  | .order => 9
  | .notFound => 10
  | .memoryError => 11
  | .unknownOp => 12

/-- The payload of a REPLY cell (section 12.2). -/
def replyPayload (r : Reply) : BitVec 192 :=
  packPayload [(1, r.op.toNat), (1, r.tag.toNat), (1, r.code.code.toNat), (1, r.status.toNat),
    (1, if r.second then 1 else 0), (3, 0), (16, r.data.toNat)]

/-! ### Status and as-laid cells (R189, section 12.2) -/

/-- The code of a mode (section 12.2). -/
def Mode.code : Mode → Nat
  | .standby => 0
  | .guard => 1
  | .lay => 2
  | .hold => 3

/-- The code of the return mode: none 0, GUARD 1, LAY 2. -/
def retCode : Option Mode → Nat
  | some .guard => 1
  | some .lay => 2
  | _ => 0

/-- The code of a tracker state (section 12.2). -/
def TrackState.code : TrackState → Nat
  | .none => 0
  | .valid => 1
  | .stale => 2
  | .lost => 3

/-- The code of a phase (section 12.2). -/
def Phase.code : Phase → Nat
  | .idle => 0
  | .approach => 1
  | .descend => 2
  | .settle => 3
  | .release => 4
  | .lift => 5

/-- A flag as a bit of weight `2^i`. -/
def flagBit (b : Bool) (i : Nat) : Nat := if b then 2 ^ i else 0

/-- The hold-cause set as the MODE status byte and STAT byte 5 give it (section 12.2). -/
def causeByte (c : Ctl) : Nat :=
  flagBit c.conditions.guard 0 + flagBit c.conditions.tracker 1 + flagBit c.conditions.zoneEcc 2 +
    flagBit c.conditions.term 3 + flagBit c.starved 4 + flagBit c.request 5

/-- The payload of a STAT cell, built from the blocks as they stand (R189). DESIGN CHOICE (log entry 54), unsafe: the first-fault
detail is 0 while the first-fault record is empty. -/
def statPayload (s : State) : BitVec 192 :=
  packPayload [
    (1, s.ctl.mode.code + 4 * retCode s.ctl.ret + flagBit s.ctl.recovery 4),
    (1, causeByte s.ctl),
    (1, s.line.state.code + 16 * s.lay.phase.code),
    (1, s.lay.gate),
    (1, s.track.tickets.length),
    (1, s.lay.asLaid.length),
    (2, s.plan.queue.length),
    (2, s.ctl.faults.toNat),
    (1, match s.ctl.first with | some f => f.kind.code | none => 0),
    (1, 0),
    (4, match s.ctl.first with | some f => f.detail.toNat | none => 0),
    (2, s.ring.void),
    (2, s.line.count.discards),
    (2, s.mgmt.corrected),
    (2, s.mgmt.dropped)]

/-- A signed 16-bit field. -/
def half16 (v : Int) : Nat := (BitVec.ofInt 16 v).toNat

/-- The payload of an ASLAID cell (section 12.2). -/
def asLaidPayload (r : AsLaid) : BitVec 192 :=
  packPayload [
    (4, r.lay), (1, r.course), (1, r.quality.toNat), (2, r.ticket.toNat), (2, half16 r.x), (2, half16 r.y),
    (2, half16 r.z), (2, half16 r.w), (2, r.settle),
    (1, flagBit r.slowSettle 0 + flagBit r.lateAdhesive 1 + flagBit r.heldRelease 2 + flagBit r.unconfirmed 3 +
      flagBit r.reissued 4)]

/-! ### Counter pages (R153, R173, section 12.3) -/

/-- PARAM part 5: the line counters (R103). -/
def linePage (page : Nat) (c : LineCounters) : Part :=
  match page with
  | 0 => packPart [(2, c.discards), (2, c.framing), (2, c.parityBad), (2, c.lengthErr), (2, c.crcErr), (2, c.seqGaps),
      (2, c.ignored), (2, c.rejects)]
  | _ => packPart [(2, c.reanchors), (2, c.superseded), (2, c.breaks), (2, c.readyChanges), (2, c.reacquireSent),
      (2, c.loopFrames)]

/-- The code of a sync state: HUNTING 0, SYNCED 1. -/
def Sync.code : Sync → Nat
  | .hunting => 0
  | .synced => 1

/-- PARAM part 6: the ring counters (R147, R160). -/
def ringPage (page : Nat) (s : State) : Part :=
  match page with
  | 0 => packPart [(1, s.ring.up.sync.code), (1, s.ring.down.sync.code),
      (2, s.ring.up.good), (2, s.ring.up.bad), (2, s.ring.up.losses),
      (2, s.ring.down.good), (2, s.ring.down.bad), (2, s.ring.down.losses), (2, s.ring.overflows)]
  | _ => packPart [(2, s.ring.void), (2, s.ring.gaps), (2, s.ring.missed), (2, s.ring.expiries), (2, s.axis.missing),
      (1, if s.ring.lastCycle.isSome then 1 else 0), (1, 0), (4, (s.ring.lastCycle.getD 0).toNat)]

/-- PARAM part 7: the management counters (R173, R188). -/
def mgmtPage (s : State) : Part :=
  packPart [(2, s.mgmt.corrected), (2, s.mgmt.uncorrectable), (2, s.mgmt.dropped), (2, s.mgmt.scrub), (2, s.mgmt.passes),
    (4, match s.ctl.first with | some f => f.ms.toNat | none => 0)]

/-- The age in trains of an entry's feedback (R153). -/
def feedbackAge (last : Option Word) (f : Feedback) : Nat :=
  match f.seen, last, f.stamp with
  | true, some n, some m => min 65535 (n - m).toNat
  | _, _, _ => 65535

/-- AXIS part 1: the entry's feedback (R153). -/
def feedbackPage (s : State) (i : Nat) : Part :=
  let f := feedbackOf s i
  packPart [(4, f.actual.toNat), (2, f.status.toNat), (2, f.aux0.toNat), (2, f.aux1.toNat), (2, f.aux2.toNat),
    (2, f.aux3.toNat), (2, feedbackAge s.ring.lastCycle f)]

end Sys2Proof.Machine
end

