-- ==== Sys2Proof/Machine/Flags.lean ====
section
/-! DEFINITION. The comparison flags and the fourteen conditions of an interlock term (R125, R126), and the resolved value
of a term (R128). -/

namespace Sys2Proof.Machine

/-- The four flags of the subtraction word − operand (R126). -/
structure CmpFlags where
  n : Bool
  z : Bool
  v : Bool
  c : Bool
  deriving DecidableEq, Repr

/-- R126: 16-bit two's complement subtraction. -/
def cmpFlags (word operand : Half) : CmpFlags :=
  let r := word - operand
  { n := r.msb, z := r == 0, v := (word.msb != operand.msb) && (r.msb != word.msb),
    c := decide (word.toNat < operand.toNat) }

/-- The condition of a code on a word and an operand (R125, R126); codes 12 and 13 read no word. -/
def condition (code : Nat) (word operand : Half) : Bool :=
  let f := cmpFlags word operand
  match code with
  | 0 => (word &&& operand) == operand
  | 1 => !((word &&& operand) == operand)
  | 2 => (word &&& operand) == 0
  | 3 => !((word &&& operand) == 0)
  | 4 => f.z
  | 5 => !f.z
  | 6 => f.n == f.v
  | 7 => !(f.n == f.v)
  | 8 => !f.z && f.n == f.v
  | 9 => !(!f.z && f.n == f.v)
  | 10 => !f.c && !f.z
  | 11 => !(!f.c && !f.z)
  | 12 => true
  | _ => false

/-- A Boolean as a term value. -/
def TermValue.ofBool (b : Bool) : TermValue := if b then .isTrue else .isFalse

/-- What the evaluator holds of term `i`. -/
def termHeld (s : State) (i : Nat) : TermHeld := s.terms.held[i]?.getD { value := .unknown, unknownAs := false }

/-- The term's record is marked unreadable. -/
def termUnreadable (s : State) (i : Nat) : Bool := s.mgmt.unreadable.contains (termPart i)

/-- The resolved value (R128): UNKNOWN is replaced by unknown-as; an unreadable record resolves to `safe`, the side its
user takes. -/
def resolve (safe : Bool) (s : State) (i : Nat) : Bool :=
  if termUnreadable s i then safe
  else
    match (termHeld s i).value with
    | .isTrue => true
    | .isFalse => false
    | .unknown => (termHeld s i).unknownAs

/-- The TERM hold cause: the global hold term names a term that resolves TRUE; an unreadable one resolves TRUE (R131). -/
def termCause (s : State) : Bool := s.params.holdTerm < 32 && resolve true s s.params.holdTerm

end Sys2Proof.Machine
end

