-- ==== Sys2Proof/Machine/Modes.lean ====
section
/-! DEFINITION. The mode controller (chapter 11): the change of mode with what it does to the lay controller, HOLD_N and
the reacquire transmitter; the hold causes; the entry to HOLD; and the changes of the tracker state, which raise and end
the TRACKER cause. -/

namespace Sys2Proof.Machine

/-! ### The reacquire transmitter (R99, R100) -/

/-- The transmitter runs while the tracker is LOST and the mode is not STANDBY, and while the loop test is on (R99). -/
def txShouldRun (s : State) : Bool :=
  s.params.trkLoop || (s.line.state == .lost && s.ctl.mode != .standby)

/-- A REACQUIRE frame falls due (R99, R100): built from P_now as it stands, it begins at once when nothing is being sent,
and otherwise becomes the pending frame, replacing one that is pending. -/
def frameDue (due : Word) (s : State) : State :=
  let f := reacquireFrame s.stab.pNow
  match s.line.sending with
  | none => s.setLine { s.line with lastDue := some due, sending := some { bytes := f, begun := s.clock.us, fed := 0 } }
  | some _ => s.setLine { s.line with lastDue := some due, waiting := some f }

/-- The transmitter starts or stops with its condition (R99): at a start a frame is due at once; at a stop the pending
frame is discarded and the frame being sent completes. -/
def refreshTx (s : State) : State :=
  if txShouldRun s then
    if s.line.running then s
    else frameDue s.clock.ms (s.setLine { s.line with running := true })
  else s.setLine { s.line with running := false, lastDue := none, waiting := none }

/-! ### The lay controller at a change of mode (R62, R63) -/

/-- STANDBY and HOLD are the holds (R62). -/
def Mode.held : Mode → Bool
  | .standby | .hold => true
  | .guard | .lay => false

/-- The placement returns to APPROACH: hover height, counts 0, timer stopped, request and capture cleared (R54, R62, R63). -/
def Lay.toApproach (l : Lay) (hover : Nat) : Lay :=
  { l with phase := .approach, oz := hover, gate := 0, settle := 0, timer := none, capture := none, openPending := false }

/-- DESCEND and SETTLE return to APPROACH; the other phases stand (R62, R63). -/
def Lay.leaveBed (l : Lay) (hover : Nat) : Lay :=
  match l.phase with
  | .descend | .settle => l.toApproach hover
  | _ => l

/-- What a change of mode does to the lay controller: entering a hold stops the settle timer and flags a release in flight
(R62); the end of a hold (R62) and GUARD from LAY (R63) take DESCEND and SETTLE back to APPROACH. -/
def Lay.onMode (l : Lay) (old new : Mode) (hover : Nat) : Lay :=
  if new.held then { l with timer := none, heldRelease := l.heldRelease || l.phase == .release }
  else if old.held || (old == .lay && new == .guard) then l.leaveBed hover
  else l

/-- The mode becomes `m`: HOLD_N follows in the same event (R187), the lay controller and the transmitter act on it. -/
def setMode (m : Mode) (s : State) : State :=
  refreshTx ((s.setLay (s.lay.onMode s.ctl.mode m s.params.hover)).setCtl { s.ctl with mode := m, holdN := m.held })

/-! ### Hold causes (R183 to R185) -/

/-- The condition causes as their owners define them (R183). -/
def conditionsNow (s : State) : Conditions :=
  { guard := !s.ctl.recovery && s.guard.outcome.violation
    tracker := s.line.state == .lost || s.line.state == .none
    zoneEcc := !s.guard.poisoned.isEmpty
    term := termCause s }

/-- Some condition cause is active. -/
def Conditions.any (c : Conditions) : Bool := c.guard || c.tracker || c.zoneEcc || c.term

/-- The causes are taken from their sources as they stand. -/
def takeCauses (s : State) : State := s.setCtl { s.ctl with conditions := conditionsNow s }

/-- The recovery flag is cleared; the recovery run is 0 while the flag is clear (R117, R186). -/
def endRecovery (s : State) : State :=
  (s.setGuard { s.guard with run := 0 }).setCtl { s.ctl with recovery := false }

/-- HOLD is entered from GUARD or LAY (R185): the return mode is the mode left, GUARD during recovery, whose flag is
cleared; clearing it may make GUARD active (R183). -/
def enterHold (s : State) : State :=
  takeCauses (setMode .hold (endRecovery
    (s.setCtl { s.ctl with ret := some (if s.ctl.recovery then .guard else s.ctl.mode) })))

/-- The owners report their causes (R183); one that is active in GUARD or LAY brings HOLD in the same event (R185). -/
def report (s : State) : State :=
  let t := takeCauses s
  if !t.ctl.mode.held && t.ctl.conditions.any then enterHold t else t

/-- The STARVED event (R184). -/
def raiseStarved (s : State) : State :=
  match s.ctl.mode with
  | .standby => s
  | .hold => s.setCtl { s.ctl with starved := true }
  | .guard | .lay => enterHold (s.setCtl { s.ctl with starved := true })

/-- The REQUEST event of an accepted MODE HOLD (R182, R184). -/
def raiseRequest (s : State) : State :=
  match s.ctl.mode with
  | .standby => s
  | .hold => s.setCtl { s.ctl with request := true }
  | .guard | .lay => enterHold (s.setCtl { s.ctl with request := true })

/-- STANDBY from any mode: return mode none, recovery flag clear, event causes empty (R181). -/
def toStandby (s : State) : State :=
  report (setMode .standby
    (endRecovery (s.setCtl { s.ctl with ret := none, starved := false, request := false })))

/-! ### Changes of the tracker state (R96, R97) -/

/-- LOST by the cause of the given detail (R97): latched on entry from VALID or STALE; nothing when it is LOST already. -/
def enterLost (cause : Nat) (s : State) : State :=
  match s.line.state with
  | .lost => s
  | .none => report (refreshTx (s.setLine { s.line with state := .lost }))
  | .valid | .stale => report (refreshTx ((latch .trackerLost cause s).setLine { s.line with state := .lost }))

/-- STALE: the gate count becomes 0 and the pending request is cleared on entry (R57, R64, R97). DESIGN CHOICE (log entry 42),
unsafe: also in RELEASE, where R59 keeps the count of the OPEN request, and in a hold, where R62 keeps it. -/
def enterStale (s : State) : State :=
  match s.line.state with
  | .stale => s
  | _ =>
    report (refreshTx
      ((s.setLay { s.lay with gate := 0, openPending := false }).setLine { s.line with state := .stale }))

/-- VALID (R96). -/
def enterValid (s : State) : State := report (refreshTx (s.setLine { s.line with state := .valid }))

end Sys2Proof.Machine
end

