-- ==== Sys2Proof/Machine/TableMemory.lean ====
section
/-! DEFINITION. Table memory under its error-correcting code (sections 10.8, R176 to R178): the one operation that reads a
part, with its correction, its counts and what an uncorrectable part means to the table's owner. -/

namespace Sys2Proof.Machine

/-- The part is marked unreadable, or poisoned if it is a zone's (R119, R177). -/
def partMarked (s : State) (n : Nat) : Bool := s.mgmt.unreadable.contains n || s.guard.poisoned.contains n

/-- Mark a part unreadable (R177). -/
def markUnreadable (n : Nat) (s : State) : State :=
  s.setMgmt { s.mgmt with unreadable := setInsert n s.mgmt.unreadable }

/-- Store a part with fresh check bits (R167). -/
def storePart (n : Nat) (d : Part) (s : State) : State := s.setMem (s.mem.store n d)

/-- A PLAN slot that holds a record of the queue or of the bound set (R176). -/
def slotUsed (s : State) (slot : Nat) : Bool :=
  s.plan.queue.any (fun q => q.slot == slot) || s.plan.bound.any (fun b => b.slot == slot)

/-- Hold a value for term `i`. -/
def setHeld (i : Nat) (h : TermHeld) (s : State) : State :=
  s.setTerms { s.terms with held := s.terms.held.setIfInBounds i h }

/-- What an uncorrectable part means to its owner (R177): the content the read gives after all, if any, and the state.
A zone part is poisoned (R119); a PARAM part is rebuilt from the values in force (R172); a free PLAN slot is rewritten as
zeros; the other entries become unreadable; a term's value becomes UNKNOWN (R128, log entry 20). -/
def uncorrectablePart (n : Nat) (s : State) : Option Part × State :=
  match placeOf n with
  | .zone i _ =>
    (none, report (latch .zoneEcc i (s.setGuard { s.guard with poisoned := setInsert n s.guard.poisoned })))
  | .param p => (some (paramImage p s.params), latch .tableEcc p (storePart n (paramImage p s.params) s))
  | .plan slot => if slotUsed s slot then (none, s) else (some 0, storePart n 0 s)
  | .origin i => (none, latch .tableEcc i (markUnreadable n s))
  | .axis i => (none, latch .tableEcc i (markUnreadable n s))
  | .term i =>
    (none, report (setHeld i { value := .unknown, unknownAs := false } (latch .tableEcc i (markUnreadable n s))))
  | .course i _ => (none, latch .tableEcc i (markUnreadable n s))

/-- The finding is an uncorrectable word. -/
def findingBad : WordFinding → Bool
  | .uncorrectable => true
  | _ => false

/-- The finding is a corrected word. -/
def findingFixed : WordFinding → Bool
  | .corrected _ => true
  | _ => false

/-- The data a finding gives. -/
def findingData : WordFinding → BitVec 64
  | .clean d => d
  | .corrected d => d
  | .uncorrectable => 0

/-- Count the words of one read (R177, log entry 10). -/
def countWords (fixed bad : Nat) (s : State) : State :=
  s.setMgmt { s.mgmt with
    corrected := bumpBy fixed s.mgmt.corrected, uncorrectable := bumpBy bad s.mgmt.uncorrectable }

/-- The corrected word is written back with fresh check bits (R177). -/
def writeBack (w : Nat) (f : WordFinding) (s : State) : State :=
  match f with
  | .corrected d => s.setMem (s.mem.storeWord w d)
  | _ => s

/-- Read part `n` of table memory (R177): the content, or none when it is uncorrectable or already marked, and the state
after correction, counts and the owner's treatment. A marked part is not corrected and not written back; its fault is
latched again. -/
def readPart (n : Nat) (s : State) : Option Part × State :=
  let f0 := wordFinding s.mem (2 * n)
  let f1 := wordFinding s.mem (2 * n + 1)
  let bad := (findingBad f0).toNat + (findingBad f1).toNat
  if partMarked s n then (none, (uncorrectablePart n (countWords 0 bad s)).2)
  else
    let t := writeBack (2 * n + 1) f1 (writeBack (2 * n) f0 (countWords ((findingFixed f0).toNat + (findingFixed f1).toNat) bad s))
    if bad = 0 then (some (joinWords (findingData f0) (findingData f1)), t) else uncorrectablePart n t

/-- The stored content of a part, without a read of table memory: used to tell which terms name an entry and for the data
of a WRITE's reply (log entries 12, 25). -/
def peekPart (s : State) (n : Nat) : Part := partData s.mem.cells n

/-- Store a part that a WRITE accepted and clear its marking (R167, R168). -/
def storeAccepted (n : Nat) (d : Part) (s : State) : State :=
  let t := storePart n (d &&& usedBits (placeOf n)) s
  let u := t.setMgmt { t.mgmt with unreadable := setErase n t.mgmt.unreadable }
  u.setGuard { u.guard with poisoned := setErase n u.guard.poisoned }

/-- The scrub position after `n` (R178). -/
def nextScrub (n : Nat) : Nat := if n + 1 < partCount then n + 1 else 0

end Sys2Proof.Machine
end

