-- ==== Sys2Proof/Machine/Terms.lean ====
section
/-! DEFINITION. The term evaluator (chapter 7): the source words and their freshness, the value of a term, its evaluation
and the TERM cause; and the scrub, whose read of a term's part is an evaluation (R129, R178). -/

namespace Sys2Proof.Machine

/-- The auxiliary word of a number (R124, R127). -/
def Feedback.aux (f : Feedback) (k : Nat) : Half :=
  match k with
  | 0 => f.aux0
  | 1 => f.aux1
  | 2 => f.aux2
  | _ => f.aux3

/-- The source word of a record, none when it is not to be had or not fresh (R127, R128 step 4). -/
def sourceWord (r : TermRec) (s : State) : Option Half :=
  if r.kind = 2 then
    match s.terms.tracker with
    | some w => if freshStamp s.ring.lastCycle w.stamp then some w.word else none
    | none => none
  else
    match s.axis.index[r.axis]?.join with
    | none => none
    | some _ =>
      let f := feedbackOf s r.axis
      if axisUnreadable s r.axis || !f.seen || !freshStamp s.ring.lastCycle f.stamp then none
      else some (if r.kind = 0 then f.status else f.aux r.aux)

/-- The value of a readable record (R128 steps 2 to 5). -/
def termValue (r : TermRec) (s : State) : TermValue :=
  if r.present ≠ 1 then .unknown
  else if r.cond = 12 then .isTrue
  else if r.cond = 13 then .isFalse
  else
    match sourceWord r s with
    | none => .unknown
    | some w => TermValue.ofBool (condition r.cond w r.operand)

/-- After an evaluation of term `i`: the TERM_HOLD latch and the TERM cause when it is the global hold term (R131). -/
def noteTerm (i : Nat) (s : State) : State :=
  let t := if s.params.holdTerm = i && resolve true s i && s.ctl.mode != .standby then latch .termHold i s else s
  report t

/-- Evaluate term `i`: read its record, form its value, hold it (R128, R129). DESIGN CHOICE (log entry 50), unsafe: a TABLE_ECC of that
read is latched before TERM_HOLD (R188 lets either come first). -/
def evalTerm (i : Nat) (s : State) : State :=
  match readPart (termPart i) s with
  | (none, t) => noteTerm i t
  | (some p, t) =>
    let r := termRec p
    noteTerm i (setHeld i { value := termValue r t, unknownAs := r.unknownAs == 1 } t)

/-- Evaluate the terms of a list in turn. Where one event evaluates several, the list gives them by rising index: DESIGN CHOICE
(log entry 7), unsafe. -/
def evalTerms (l : List Nat) (s : State) : State := l.foldl (fun t i => evalTerm i t) s

/-- The terms whose stored record satisfies `p` (log entry 25). -/
def termsWhere (p : TermRec → Bool) (s : State) : List Nat :=
  (List.range 32).filter fun i => p (termRec (peekPart s (termPart i)))

/-- The terms on the captured words of entry `i` (R129). -/
def termsOnEntry (i : Nat) (s : State) : List Nat :=
  termsWhere (fun r => (r.kind == 0 || r.kind == 1) && r.axis == i) s

/-- The terms whose axis index names entry `i` (R129, R151). -/
def termsNaming (i : Nat) (s : State) : List Nat := termsWhere (fun r => r.axis == i) s

/-- The terms on the tracker word (R129). -/
def termsOnTracker (s : State) : List Nat := termsWhere (fun r => r.kind == 2) s

/-- The scrub read of an outbound TRAIN arrival (R178): one read under R177; the position moves on, and a completed pass
is counted at the read of the first origin part that follows the last PLAN slot (log entry 36). An uncorrectable term part is
an evaluation of that term (R129), its TABLE_ECC latched before TERM_HOLD (log entry 50). -/
def scrubStep (s : State) : State :=
  let n := s.mgmt.scrub
  let t := (readPart n s).2
  let u := match placeOf n, (readPart n s).1 with
    | .term i, none => noteTerm i t
    | _, _ => t
  u.setMgmt { u.mgmt with
    scrub := nextScrub n
    passDue := decide (partCount ≤ n + 1)
    passes := if u.mgmt.passDue then bump u.mgmt.passes else u.mgmt.passes }

end Sys2Proof.Machine
end

