-- ==== Sys2Proof/Machine/Stabilizer.lean ====
section
/-! DEFINITION. Stabilization arithmetic (chapter 4): velocity, age, horizon and prediction; the error, the reach verdict
and the target; the command; the gate error; and the computation of one outbound train. -/

namespace Sys2Proof.Machine

/-! ### The four fine axes -/

/-- The role of each fine axis (R149). -/
def fineRoles : Quad Role := ⟨.fineX, .fineY, .fineZ, .fineW⟩

/-- A function on each axis. -/
def Quad.map {α β : Type} (f : α → β) (q : Quad α) : Quad β := ⟨f q.x, f q.y, f q.z, f q.w⟩

/-- The same value on each axis. -/
def Quad.all {α : Type} (a : α) : Quad α := ⟨a, a, a, a⟩

/-- Some axis satisfies `p`. -/
def Quad.any {α : Type} (p : α → Bool) (q : Quad α) : Bool := p q.x || p q.y || p q.z || p q.w

/-! ### Velocity and extrapolation (R71 to R73) -/

/-- The velocity on one axis: M − M′ over Δt, in µm per ms (R71). -/
def velocityOf (m m' dt : Int) : Int := sat (-2000) 2000 (Int.tdiv ((m - m') * 1000) dt)

/-- The difference of two measurement instants, modulo 2^32, read as a signed value (R71). -/
def sampleInterval (c p : Sample) : Int := (c.tm - p.tm).toInt

/-- R71: the velocity on X, Y and Z from the current and the previous sample; W has none. -/
def velocity (c : Sample) (prev : Option Sample) : Quad Int :=
  match prev with
  | none => ⟨0, 0, 0, 0⟩
  | some p =>
    let dt := sampleInterval c p
    if c.reanchor || dt < 200 || 50000 < dt then ⟨0, 0, 0, 0⟩
    else ⟨velocityOf c.x p.x dt, velocityOf c.y p.y dt, velocityOf c.z p.z dt, 0⟩

/-- R73: one axis extrapolated over `a` µs. -/
def extrapolate (m v a : Int) : Int := sat32 (m + Int.tdiv (v * a) 1000)

/-- R73: a sample extrapolated over `a` µs; W as measured. -/
def predict (c : Sample) (v : Quad Int) (a : Nat) : Quad Int :=
  ⟨extrapolate c.x v.x a, extrapolate c.y v.y a, extrapolate c.z v.z a, c.w⟩

/-- R72: the age of a sample at `now`. -/
def sampleAge (now : Word) (c : Sample) : Nat := elapsed now c.ta + c.lat

/-- R72: the horizon. -/
def horizon (lAct : Nat) (now : Word) (c : Sample) : Nat := min 20000 (sampleAge now c + lAct)

/-- R72: the gate age. -/
def gateAge (now : Word) (c : Sample) : Nat := min 20000 (sampleAge now c)

/-! ### Strokes and steps (R81) -/

/-- The stroke S and step s of a fine axis at a TRAIN arrival, and its actual position F (R80, R81). -/
structure FineAxis where
  stroke : Nat
  step : Nat
  actual : Int
  deriving DecidableEq, Repr

/-- Read the axis entry of index `i` from table memory (R152, R177). -/
def readAxis (i : Nat) (s : State) : Option AxisRec × State :=
  match readPart (axisPart i) s with
  | (some p, t) => (some (axisRec p), t)
  | (none, t) => (none, t)

/-- The actual position of an entry, 0 when it was never seen (R80, R155). -/
def actualOf (s : State) (i : Nat) : Int :=
  let f := feedbackOf s i
  if f.seen then f.actual.toInt else 0

/-- The fine axis of a role at a TRAIN arrival, none without a present, readable entry (R81). -/
def readFine (r : Role) (s : State) : Option FineAxis × State :=
  match entryOfRole r s with
  | none => (none, s)
  | some i =>
    match readAxis i s with
    | (some e, t) => (some { stroke := e.a, step := e.b, actual := actualOf t i }, t)
    | (none, t) => (none, t)

/-- The four fine axes, read in turn. DESIGN CHOICE (log entry 45), unsafe: X, Y, Z, W, so the first of several entries newly in
error gives the detail of the first fault (R188 lets either latch come first). -/
def readFines (s : State) : Quad (Option FineAxis) × State :=
  let (x, s1) := readFine .fineX s
  let (y, s2) := readFine .fineY s1
  let (z, s3) := readFine .fineZ s2
  let (w, s4) := readFine .fineW s3
  (⟨x, y, z, w⟩, s4)

/-! ### Error, reach verdict, gate error (R75, R76, R80) -/

/-- R75: E on a linear axis. -/
def errorOf (t o p : Int) : Int := sat32 (t + o - p)

/-- R75: E on each axis that has a present entry. -/
def errorAll (t : Target) (oz : Nat) (pAct : Quad Int) (fines : Quad (Option FineAxis)) : Quad (Option Int) :=
  ⟨fines.x.map fun _ => errorOf t.x 0 pAct.x, fines.y.map fun _ => errorOf t.y 0 pAct.y,
   fines.z.map fun _ => errorOf t.z oz pAct.z, fines.w.map fun _ => wrapYaw (t.w - pAct.w)⟩

/-- R80: Err on each axis that has a present entry. -/
def gateErrorAll (t : Target) (oz : Nat) (pNow : Quad Int) (fines : Quad (Option FineAxis)) : Quad (Option Int) :=
  ⟨fines.x.map fun f => sat32 (t.x - (pNow.x + f.actual)), fines.y.map fun f => sat32 (t.y - (pNow.y + f.actual)),
   fines.z.map fun f => sat32 (t.z + oz - (pNow.z + f.actual)), fines.w.map fun f => wrapYaw (t.w - (pNow.w + f.actual))⟩

/-- One axis is in reach: |E| is no more than the stroke less the margin (R52, R76). -/
def axisReach (margin : Nat) : Option Int → Option FineAxis → Option Bool
  | some e, some f => some (decide ((e.natAbs : Int) ≤ (f.stroke : Int) - margin))
  | _, _ => none

/-- Two verdicts together, absent when either is. -/
def bothReach : Option Bool → Option Bool → Option Bool
  | some a, some b => some (a && b)
  | _, _ => none

/-- R76: the reach verdict; W has no margin. -/
def reachVerdict (margin : Nat) (e : Quad (Option Int)) (fines : Quad (Option FineAxis)) : Option Bool :=
  bothReach (bothReach (axisReach margin e.x fines.x) (axisReach margin e.y fines.y))
    (bothReach (axisReach margin e.z fines.z) (axisReach 0 e.w fines.w))

/-! ### Target and command (R77 to R79) -/

/-- R77: the target G of an axis with an entry of stroke `s`; an absent E gives 0 (log entry 32). -/
def targetOf (phase : Phase) (reach : Option Bool) (e : Option Int) (s : Nat) : Int :=
  match phase with
  | .idle => 0
  | .approach => if reach = some true then sat (-(s : Int)) s (e.getD 0) else 0
  | .descend | .settle | .release | .lift => sat (-(s : Int)) s (e.getD 0)

/-- R78: the command moved toward G by at most the step. -/
def stepCommand (c g : Int) (step : Nat) : Int := c + sat (-(step : Int)) step (g - c)

/-- R78, R81: the command of one axis, unchanged without an entry. -/
def commandOf (phase : Phase) (reach : Option Bool) (e : Option Int) (f : Option FineAxis) (c : Int) : Int :=
  match f with
  | none => c
  | some f => stepCommand c (targetOf phase reach e f.stroke) f.step

/-- R79: the command of a train that arrives at this state is frozen. -/
def frozen (s : State) : Bool := s.ctl.mode.held || s.line.state != .valid

/-- R78, R79: the commands of the train, the commands that stood becoming C_prev. -/
def commandAll (fr : Bool) (phase : Phase) (reach : Option Bool) (e : Quad (Option Int)) (fines : Quad (Option FineAxis))
    (c : Quad Int) : Quad Int :=
  if fr then c
  else
    ⟨commandOf phase reach e.x fines.x c.x, commandOf phase reach e.y fines.y c.y,
     commandOf phase reach e.z fines.z c.z, commandOf phase reach e.w fines.w c.w⟩

/-! ### The train's computation (R69) -/

/-- The stages of a train with the tracker VALID or STALE (R70); `fr` says that the command was frozen at the arrival. -/
def stagesOf (fr : Bool) (c : Sample) (fines : Quad (Option FineAxis)) (s : State) : Stab :=
  let v := velocity c s.line.prev
  let pAct := predict c v (horizon s.params.lAct s.clock.us c)
  let pNow := predict c v (gateAge s.clock.us c)
  let e := match s.lay.target with
    | some t => errorAll t s.lay.oz pAct fines
    | none => Quad.all none
  let err := match s.lay.target with
    | some t => gateErrorAll t s.lay.oz pNow fines
    | none => Quad.all none
  let reach := reachVerdict s.params.reachMargin e fines
  { c := commandAll fr s.lay.phase reach e fines s.stab.c, cPrev := s.stab.c, pAct := some pAct, pNow := some pNow,
    e := e, reach := reach, err := err, used := some (c.seq, c.quality) }

/-- The sample the stages are made from: the current one in VALID and STALE, none in LOST and NONE (R70). -/
def stageSample (s : State) : Option Sample :=
  match s.line.state with
  | .valid | .stale => s.line.cur
  | .lost | .none => none

/-- The stabilizer's computation at an outbound TRAIN arrival (R69); `fr` says that the command was frozen at it (R79). -/
def stabCompute (fr : Bool) (s : State) : State :=
  let (fines, t) := readFines s
  match stageSample t with
  | none => t.setStab { t.stab with cPrev := t.stab.c }
  | some c => (t.setStab (stagesOf fr c fines t)).setLine { t.line with cur := some { c with used := true } }

end Sys2Proof.Machine
end

