-- ==== Sys2Proof/Machine/Tracker.lean ====
section
/-! DEFINITION. The tracker line unit (chapter 5): characters and breaks, frame assembly, the judgement of a candidate,
the tracker states and their expiries, the reacquire transmitter and the loop test. -/

namespace Sys2Proof.Machine

/-! ### The line (R85 to R87) -/

/-- The bit rate of a rate code (R85). -/
def baudOf (code : Nat) : Nat :=
  match code with
  | 0 => 115200
  | 1 => 230400
  | 2 => 460800
  | 3 => 921600
  | 4 => 1843200
  | _ => 3686400

/-- The bits of a character: 10 with parity NONE and 11 otherwise (R85). -/
def charBits (parity : Nat) : Nat := if parity = 0 then 10 else 11

/-- The whole microseconds that `n` characters take, rounded up (R85, log entry 23). -/
def charsTime (n : Nat) (p : Params) : Nat := (n * charBits p.parity * 1000000 + baudOf p.rate - 1) / baudOf p.rate

/-- The characters of a frame that are sent whole after `us` microseconds, at most 16 (R85, R100). -/
def charsSent (us : Nat) (p : Params) : Nat := min 16 (us * baudOf p.rate / (charBits p.parity * 1000000))

/-- The number of ones of a byte is odd. -/
def oddOnes (b : Byte) : Bool := (List.range 8).foldl (fun acc i => acc != b.getLsbD i) false

/-- The parity flag of a character: the parity bit does not agree (R87). -/
def parityFlag (parity : Nat) (data : Byte) (bit : Bool) : Bool :=
  if parity = 0 then false
  else if parity = 1 then oddOnes data != bit
  else oddOnes data == bit

/-- The sync byte the assembler hunts for (R89, R101). -/
def syncByte (s : State) : Byte := if s.params.trkLoop then 0xB7 else 0xB6

/-- The length the assembler requires (R89, R101). -/
def bodyLength (s : State) : Nat := if s.params.trkLoop then 12 else 20

/-! ### Counting and abandoning -/

/-- Change the line counters. -/
def countLine (f : LineCounters → LineCounters) (s : State) : State :=
  s.setLine { s.line with count := f s.line.count }

/-- Replace the assembler. -/
def setAsm (a : Assembler) (s : State) : State := s.setLine { s.line with asm := a }

/-- The assembler returns to HUNT; a frame begun and so abandoned is a discard (R86 to R90, R101). -/
def abandonFrame (s : State) : State :=
  match s.line.asm.state with
  | .hunt => s
  | .length | .body | .check =>
    setAsm Assembler.initial (countLine (fun c => { c with discards := bump c.discards }) s)

/-! ### Sample judgement (R92 to R97) -/

/-- R92: the candidate is ignored. -/
def ignoredCandidate (c : Sample) (s : State) : Bool :=
  !s.pins.trkReady || !c.lock || decide (c.quality.toNat < s.params.minQuality) || decide (36000 ≤ c.w)

/-- The interval of the jump test (R93). -/
def jumpInterval (c cur : Sample) : Nat := (sat 0 20000 (sampleInterval c cur)).toNat

/-- One axis differs from its prediction by more than the limit (R93). -/
def exceeds (limit : Nat) (a b : Int) : Bool := decide (limit < (a - b).natAbs)

/-- R93: the candidate jumps from the current sample. -/
def jumpsFrom (limit : Nat) (c cur : Sample) (prev : Option Sample) : Bool :=
  let p := predict cur (velocity cur prev) (jumpInterval c cur)
  exceeds limit c.x p.x || exceeds limit c.y p.y || exceeds limit c.z p.z

/-- R93: the jump test, made when the tracker state is VALID or STALE. -/
def jumpTest (c : Sample) (s : State) : Bool :=
  match s.line.state, s.line.cur with
  | .valid, some cur => jumpsFrom s.params.jumpLimit c cur s.line.prev
  | .stale, some cur => jumpsFrom s.params.jumpLimit c cur s.line.prev
  | _, _ => false

/-- The displaced sample had not been used (R95). -/
def displacesUnused (s : State) : Bool :=
  match s.line.cur with
  | some k => !k.used
  | none => false

/-- R94, R95: the candidate becomes the current sample; its expiry instants are set (R96). -/
def takeSample (c : Sample) (reanchor : Bool) (s : State) : State :=
  let cnt := s.line.count
  s.setLine { s.line with
    cur := some { c with reanchor := reanchor }
    prev := if reanchor then none else s.line.cur
    rejectRun := 0
    staleAt := some (c.tm + BitVec.ofNat 32 s.params.staleAge)
    lostAt := some (c.tm + BitVec.ofNat 32 s.params.lostAge)
    count := { cnt with
      reanchors := if reanchor then bump cnt.reanchors else cnt.reanchors
      superseded := if displacesUnused s then bump cnt.superseded else cnt.superseded } }

/-- An expiry instant has passed at the present microsecond. -/
def passed (s : State) (inst : Option Word) : Bool :=
  match inst with
  | some t => reached s.clock.us t
  | none => false

/-- R96: the state after an acceptance, one event with the expiries whose instants have passed. -/
def stateOnAcceptance (s : State) : State :=
  if passed s s.line.lostAt then enterLost 1 s
  else if passed s s.line.staleAt then enterStale s
  else enterValid s

/-- The tracker word of the new current sample goes to the term evaluator, which evaluates the terms on it (R95, R127, R129). -/
def handTrackerWord (c : Sample) (s : State) : State :=
  let t := s.setTerms { s.terms with tracker := some { word := c.word, stamp := s.ring.lastCycle } }
  evalTerms (termsOnTracker t) t

/-- Acceptance, plain or as a re-anchor (R94, R95). DESIGN CHOICE (log entry 46), unsafe: the change of the tracker state, with its
latch and its cause, comes before the evaluation of the tracker terms. -/
def acceptSample (c : Sample) (reanchor : Bool) (s : State) : State :=
  handTrackerWord c (stateOnAcceptance (takeSample c reanchor s))

/-- R94: rejection. -/
def rejectSample (s : State) : State :=
  countLine (fun c => { c with rejects := bump c.rejects }) (s.setLine { s.line with rejectRun := s.line.rejectRun + 1 })

/-- The judgement of a candidate (R92 to R95). -/
def judge (c : Sample) (s : State) : State :=
  if ignoredCandidate c s then countLine (fun k => { k with ignored := bump k.ignored }) s
  else if jumpTest c s then
    if s.line.rejectRun < 2 then rejectSample s else acceptSample c true s
  else acceptSample c false s

/-! ### Frame assembly (R89 to R91) -/

/-- R91: the sequence number follows, or is the first; otherwise a gap is counted. -/
def noteSequence (seq : Half) (s : State) : State :=
  let gap := match s.line.lastSeq with
    | some l => seq != l + 1
    | none => false
  let cnt := s.line.count
  s.setLine { s.line with
    lastSeq := some seq, count := { cnt with seqGaps := if gap then bump cnt.seqGaps else cnt.seqGaps } }

/-- R90, R101: a frame completes with its body, its parity-bad mark and its received CRC; the assembler is in HUNT. -/
def completeFrame (body : List Byte) (parityBad : Bool) (crc : Half) (s : State) : State :=
  if parityBad then
    countLine (fun c => { c with discards := bump c.discards, parityBad := bump c.parityBad }) s
  else if crc16 (BitVec.ofNat 8 (bodyLength s) :: body) != crc then
    countLine (fun c => { c with discards := bump c.discards, crcErr := bump c.crcErr }) s
  else if s.params.trkLoop then countLine (fun c => { c with loopFrames := bump c.loopFrames }) s
  else judge (candidateOf body s.clock.us) (noteSequence (be16 body 0) s)

/-- R89: a byte with its parity flag reaches the assembler. -/
def takeByte (b : Byte) (flag : Bool) (s : State) : State :=
  let a := s.line.asm
  match a.state with
  | .hunt =>
    if b == syncByte s && !flag then setAsm { Assembler.initial with state := .length } s else s
  | .length =>
    if b.toNat = bodyLength s then setAsm { a with state := .body, parityBad := a.parityBad || flag } s
    else
      setAsm Assembler.initial
        (countLine (fun c => { c with lengthErr := bump c.lengthErr, discards := bump c.discards }) s)
  | .body =>
    let body := a.body ++ [b]
    setAsm { a with
      state := if body.length < bodyLength s then .body else .check, parityBad := a.parityBad || flag, body := body } s
  | .check =>
    match a.crcHigh with
    | none => setAsm { a with crcHigh := some b, parityBad := a.parityBad || flag } s
    | some h => completeFrame a.body (a.parityBad || flag) (h ++ b) (setAsm Assembler.initial s)

/-- Bytes with their parity flags reach the assembler in turn. -/
def takeBytes (l : List (Byte × Bool)) (s : State) : State := l.foldl (fun t c => takeByte c.1 c.2 t) s

/-- R87: a character ends at the receiver; in a break none is taken (R88). -/
def takeCharacter (data : Byte) (parity stop : Bool) (s : State) : State :=
  if s.line.inBreak then s
  else if stop then takeByte data (parityFlag s.params.parity data parity) s
  else abandonFrame (countLine (fun c => { c with framing := bump c.framing }) s)

/-- A character on TRK_RXD, which is not observed in the loop test (R101); a line that a power-on reset found at space is
back at mark (log entry 21). -/
def receiveCharacter (data : Byte) (parity stop : Bool) (s : State) : State :=
  if s.params.trkLoop then s
  else takeCharacter data parity stop (s.setLine { s.line with breakDue := none })

/-- The parity bit that agrees with a byte (R85). -/
def goodParity (parity : Nat) (data : Byte) : Bool := if parity = 1 then oddOnes data else !oddOnes data

/-- The characters of a frame on TRK_RXD, all with stop bits at mark, the last with a wrong parity bit if `bad`. -/
def receiveFrame (bytes : List Byte) (bad : Bool) (s : State) : State :=
  match bytes with
  | [] => s
  | [b] => receiveCharacter b (goodParity s.params.parity b != bad) true s
  | b :: bs => receiveFrame bs bad (receiveCharacter b (goodParity s.params.parity b) true s)

/-! ### Breaks and TRK_READY (R88, R98) -/

/-- R88: a break is detected. -/
def detectBreak (s : State) : State :=
  if s.params.trkLoop || s.line.inBreak then s
  else
    let t := abandonFrame (s.setLine { s.line with inBreak := true, breakDue := none })
    enterLost 2 (countLine (fun c => { c with breaks := bump c.breaks }) t)

/-- R88: TRK_RXD returns to mark. -/
def endBreak (s : State) : State := s.setLine { s.line with inBreak := false, breakDue := none }

/-- R98: TRK_READY takes a level. -/
def setReady (active : Bool) (s : State) : State :=
  if active == s.pins.trkReady then s
  else
    let t := countLine (fun c => { c with readyChanges := bump c.readyChanges })
      (s.setPins { s.pins with trkReady := active })
    if active then t else enterLost 3 t

/-! ### Expiries (R96) -/

/-- The stale expiry, if its instant has been reached. -/
def reachStale (s : State) : State :=
  if passed s s.line.staleAt && s.line.state == .valid then enterStale s else s

/-- The lost expiry, if its instant has been reached. -/
def reachLost (s : State) : State :=
  if passed s s.line.lostAt && (s.line.state == .valid || s.line.state == .stale) then enterLost 1 s else s

/-- A write that changes an age recomputes both expiry instants from the current sample's t_m, and an instant that has
then passed is reached (R96). -/
def recomputeExpiries (s : State) : State :=
  match s.line.cur with
  | none => s
  | some c =>
    reachLost (reachStale (s.setLine { s.line with
      staleAt := some (c.tm + BitVec.ofNat 32 s.params.staleAge)
      lostAt := some (c.tm + BitVec.ofNat 32 s.params.lostAge) }))

/-! ### The reacquire transmitter and the loop test (R99 to R101) -/

/-- A frame is due: 100 ms have passed since the last one fell due while the transmitter runs (R99). -/
def reacquireIsDue (s : State) : Bool :=
  match s.line.lastDue with
  | some d => s.line.running && reached s.clock.ms (d + 100)
  | none => false

/-- The next REACQUIRE frame falls due (R99). -/
def reachReacquire (s : State) : State :=
  if reacquireIsDue s then frameDue ((s.line.lastDue.getD 0) + 100) s else s

/-- The characters of the frame being sent from number `f.fed` to `n`, as the looped receiver takes them. -/
def loopBytes (f : TxFrame) (n : Nat) (noise : Half) (bad : Bool) : List (Byte × Bool) :=
  let bytes := f.bytes.take 14 ++ List.zipWith (· ^^^ ·) (f.bytes.drop 14) (bytes16 noise)
  (((bytes.zipIdx).map fun c => (c.1, bad && c.2 == 15)).take n).drop f.fed

/-- In the loop test the receiver takes the characters of the frame being sent up to number `n` (R101). -/
def loopFeed (n : Nat) (noise : Half) (bad : Bool) (s : State) : State :=
  match s.params.trkLoop, s.line.sending with
  | true, some f =>
    takeBytes (loopBytes f n noise (bad && s.params.parity != 0))
      (s.setLine { s.line with sending := some { f with fed := max f.fed n } })
  | _, _ => s

/-- In the loop test the receiver has taken every character that has been sent whole by now (log entry 23). -/
def loopCatchUp (s : State) : State :=
  match s.line.sending with
  | some f => loopFeed (charsSent (elapsed s.clock.us f.begun) s.params) 0 false s
  | none => s

/-- The frame being sent has been sent whole. -/
def frameIsSent (s : State) : Bool :=
  match s.line.sending with
  | some f => decide (charsTime 16 s.params ≤ elapsed s.clock.us f.begun)
  | none => false

/-- The pending frame, if any, begins (R100). -/
def beginWaiting (s : State) : State :=
  s.setLine { s.line with
    sending := s.line.waiting.map (fun b => { bytes := b, begun := s.clock.us, fed := 0 }), waiting := none }

/-- The frame being sent finishes, if it has been sent whole (R99, R100). -/
def reachSent (s : State) : State :=
  if frameIsSent s then
    beginWaiting (countLine (fun c => { c with reacquireSent := bump c.reacquireSent }) (loopFeed 16 0 false s))
  else s

/-- The line settings in force have changed (R86, R100). -/
def settingsChanged (s : State) : State := beginWaiting (abandonFrame s)

/-- The transmitter abandons its frames (R101). -/
def abandonSending (s : State) : State := s.setLine { s.line with sending := none, waiting := none }

/-- TRK_LOOP has been set (R101). -/
def loopSet (s : State) : State :=
  let t := abandonSending (abandonFrame s)
  enterLost 4 (frameDue t.clock.ms
    (t.setLine { t.line with inBreak := false, breakDue := none, running := true }))

/-- TRK_LOOP has been cleared (R101). -/
def loopCleared (s : State) : State := refreshTx (abandonSending (abandonFrame s))

end Sys2Proof.Machine
end

