-- ==== Sys2Proof/Machine/Zones.lean ====
section
/-! DEFINITION. The zone guard (chapter 6): reading the descriptors, activity, the evaluation of the envelope with its
outcome and effects, the recovery run, and the admission point test. -/

namespace Sys2Proof.Machine

/-- A zone as a read of both its parts finds it: none when it is poisoned (R110, R111). -/
structure ZoneView where
  index : Nat
  desc : Option ZoneRec
  deriving DecidableEq, Repr

/-- Read both parts of zone `i` (R111, R119); a PROBE too reads both, whatever the first gives (log entry 43). -/
def readZone (i : Nat) (s : State) : Option ZoneRec × State :=
  match readPart (zonePart i 0) s with
  | (p0, t) =>
    match readPart (zonePart i 1) t with
    | (p1, u) =>
      match p0, p1 with
      | some a, some b => (some (zoneRec a b), u)
      | _, _ => (none, u)

/-- Read the zones of a list in turn. DESIGN CHOICE (log entry 45), unsafe: by rising index, so the first of several zones newly in
error gives the detail of the first fault (R188 lets either latch come first). -/
def readZonesOf : List Nat → State → List ZoneView × State
  | [], s => ([], s)
  | i :: is, s =>
    match readZone i s with
    | (z, t) =>
      match readZonesOf is t with
      | (zs, u) => ({ index := i, desc := z } :: zs, u)

/-- Read all 64 descriptors (R111). -/
def readZones (s : State) : List ZoneView × State := readZonesOf (List.range 64) s

/-- R110: a zone that is not poisoned is active. An unreadable term counts as TRUE (R130). -/
def zoneActive (s : State) (i : Nat) (z : ZoneRec) : Bool :=
  z.present && !s.guard.suspended.contains i && (z.term == 255 || resolve true s z.term)

/-- The active, readable zones of a type, with their boxes. -/
def activeBoxes (s : State) (type : Nat) (l : List ZoneView) : List (Nat × Box) :=
  l.filterMap fun v =>
    match v.desc with
    | some z => if z.type == type && zoneActive s v.index z then some (v.index, z.box) else none
    | none => none

/-! ### Boxes (R111, R112, R118) -/

/-- The envelope about the predicted head base (R111). -/
def envelope (p : Quad Int) (hx hy hz : Nat) : Box :=
  { lo := ⟨sat32 (p.x - hx), sat32 (p.y - hy), sat32 (p.z - hz), 0⟩
    hi := ⟨sat32 (p.x + hx), sat32 (p.y + hy), sat32 (p.z + hz), 0⟩ }

/-- The envelope overlaps a box: on every axis, all bounds included (R112). -/
def Box.overlaps (e b : Box) : Bool :=
  decide (e.lo.x ≤ b.hi.x) && decide (b.lo.x ≤ e.hi.x) && decide (e.lo.y ≤ b.hi.y) && decide (b.lo.y ≤ e.hi.y) &&
    decide (e.lo.z ≤ b.hi.z) && decide (b.lo.z ≤ e.hi.z)

/-- A box contains the envelope (R112). -/
def Box.contains (b e : Box) : Bool :=
  decide (b.lo.x ≤ e.lo.x) && decide (e.hi.x ≤ b.hi.x) && decide (b.lo.y ≤ e.lo.y) && decide (e.hi.y ≤ b.hi.y) &&
    decide (b.lo.z ≤ e.lo.z) && decide (e.hi.z ≤ b.hi.z)

/-- A point lies in a box (R118). -/
def Box.hasPoint (b : Box) (x y z : Int) : Bool := b.contains { lo := ⟨x, y, z, 0⟩, hi := ⟨x, y, z, 0⟩ }

/-! ### The outcome (R112) -/

/-- The zone is poisoned, or an active KEEP_OUT that overlaps the envelope. -/
def keepOutHit (s : State) (e : Box) (v : ZoneView) : Bool :=
  match v.desc with
  | none => true
  | some z => z.type == 1 && zoneActive s v.index z && e.overlaps z.box

/-- Some KEEP_IN is active and no single one contains the envelope. -/
def keepInFails (s : State) (e : Box) (l : List ZoneView) : Bool :=
  let boxes := activeBoxes s 2 l
  !boxes.isEmpty && !boxes.any (fun b => b.2.contains e)

/-- The violating zone (R112): the lowest index of a poisoned or overlapping KEEP_OUT zone, else 64 for the KEEP_IN test. -/
def violatingZone (s : State) (e : Box) (l : List ZoneView) : Option Nat :=
  match l.find? (keepOutHit s e) with
  | some v => some v.index
  | none => if keepInFails s e l then some 64 else none

/-- The guard outcome of an evaluation (R112). -/
def guardOutcome (s : State) (e : Box) (l : List ZoneView) : Outcome :=
  { violation := (violatingZone s e l).isSome
    slow := (activeBoxes s 3 l).any (fun b => e.overlaps b.2)
    noRelease := (activeBoxes s 4 l).any (fun b => e.overlaps b.2)
    zone := violatingZone s e l }

/-! ### The evaluation and its effects (R111, R114, R117) -/

/-- What an evaluation does to the recovery run, or, with the recovery flag clear, to the fault set (R114, R117). -/
def noteOutcome (o : Outcome) (s : State) : State :=
  if s.ctl.recovery then
    if o.violation then s.setGuard { s.guard with run := 0 }
    else if s.guard.run + 1 < 10 then s.setGuard { s.guard with run := s.guard.run + 1 }
    else endRecovery s
  else if o.violation && s.ctl.mode != .standby then latch .guardViolation (o.zone.getD 0) s
  else s

/-- The evaluation of the envelope about a predicted head base (R111). DESIGN CHOICE (log entry 50), unsafe: a ZONE_ECC of its reads
is latched before GUARD_VIOLATION (R188 lets either come first). -/
def zoneEvaluate (p : Quad Int) (s : State) : State :=
  match readZones s with
  | (l, t) =>
    let o := guardOutcome t (envelope p t.params.hx t.params.hy t.params.hz) l
    report (noteOutcome o (t.setGuard { t.guard with outcome := o }))

/-! ### The admission point test (R118) -/

/-- A point passes the test on the zones as read. -/
def pointPasses (s : State) (x y z : Int) (l : List ZoneView) : Bool :=
  let keepIn := activeBoxes s 2 l
  l.all (fun v => v.desc.isSome) && !(activeBoxes s 1 l).any (fun b => b.2.hasPoint x y z) &&
    !(activeBoxes s 4 l).any (fun b => b.2.hasPoint x y z) &&
    (keepIn.isEmpty || keepIn.any (fun b => b.2.hasPoint x y z))

/-- The point test: it reads the descriptors as an evaluation does (R118). -/
def pointTest (t : Target) (s : State) : Bool × State :=
  match readZones s with
  | (l, u) => (pointPasses u t.x t.y t.z l, u)

end Sys2Proof.Machine
end

