-- ==== Sys2Proof/Machine/PlanStore.lean ====
section
/-! DEFINITION. The plan store (chapter 1): reference counts, the plan queue with append, flush, skip and reissue, the
bound set, and admission. -/

namespace Sys2Proof.Machine

/-! ### Reference counts (R3) -/

/-- The reference count of a course. -/
def refCount (s : State) (c : Nat) : Nat := s.plan.refs[c]?.getD 0

/-- Change the reference count of a course. -/
def Plan.changeRef (p : Plan) (c : Nat) (f : Nat → Nat) : Plan :=
  { p with refs := p.refs.setIfInBounds c (f (p.refs[c]?.getD 0)) }

/-- One record more names the course. -/
def Plan.addRef (p : Plan) (c : Nat) : Plan := p.changeRef c (· + 1)

/-- One record fewer names the course. -/
def Plan.dropRef (p : Plan) (c : Nat) : Plan := p.changeRef c (· - 1)

/-! ### The queue (R9 to R14) -/

/-- Insert a record at the place its lay number gives (R14). -/
def insertByLay (e : QueueEntry) : List QueueEntry → List QueueEntry
  | [] => [e]
  | q :: qs => if e.lay < q.lay then e :: q :: qs else q :: insertByLay e qs

/-- The lowest number from `n` on that is not in a list, looking `fuel` numbers far. -/
def firstFree (used : List Nat) (n : Nat) : Nat → Nat
  | 0 => n
  | fuel + 1 => if used.contains n then firstFree used (n + 1) fuel else n

/-- The PLAN slots that hold a record (R176). -/
def Plan.usedSlots (p : Plan) : List Nat := p.queue.map (·.slot) ++ p.bound.map (·.slot)

/-- The free slot with the lowest slot number (R176). -/
def Plan.freeSlot (p : Plan) : Nat := firstFree p.usedSlots 0 p.usedSlots.length

/-- R7: every field of an appended record is in its range. -/
def planRecValid (r : PlanRec) : Bool :=
  r.lay != 0 && r.order ≤ 1 && r.cut ≤ 1 && r.glue ≤ 15 && r.yaw ≤ 35999 && 5000 ≤ r.length && r.length ≤ 40000

/-- R10 test 2: the lay number comes after all that were appended, after the tail, and is not bound. -/
def layInOrder (lay : Nat) (p : Plan) : Bool :=
  p.highest < lay && p.queue.all (fun q => q.lay < lay) && p.bound.all (fun b => b.lay != lay)

/-- R10: an accepted record joins the tail and its body is stored in the lowest free slot. -/
def planAccept (body : Part) (s : State) : State :=
  let r := planRec body
  let slot := s.plan.freeSlot
  let e : QueueEntry := { lay := r.lay, course := r.course, failed := false, reissue := 0, slot := slot }
  let p := s.plan.addRef r.course
  storePart (planPart slot) body (s.setPlan { p with queue := p.queue ++ [e], highest := r.lay })

/-- The reference counts after records have left (R3). -/
def Plan.dropRefs (p : Plan) (l : List QueueEntry) : Plan := l.foldl (fun q e => q.dropRef e.course) p

/-- R12: flush from `lay`. -/
def planFlushFrom (lay : Nat) (s : State) : State :=
  let gone := s.plan.queue.filter (fun q => lay ≤ q.lay)
  let p := s.plan.dropRefs gone
  s.setPlan { p with
    queue := p.queue.filter (fun q => q.lay < lay), highest := if lay ≤ p.highest then lay - 1 else p.highest }

/-- The number of records that a flush from `lay` removes (R12). -/
def flushCount (lay : Nat) (s : State) : Nat := (s.plan.queue.filter (fun q => lay ≤ q.lay)).length

/-- R13: the record of a lay number leaves the queue. -/
def planRemove (e : QueueEntry) (s : State) : State :=
  let p := s.plan.dropRef e.course
  s.setPlan { p with queue := p.queue.filter (fun q => q.lay != e.lay) }

/-- R13: the record that SKIP of `lay` means, the head for 0. -/
def skipTarget (lay : Nat) (s : State) : Option QueueEntry :=
  if lay = 0 then s.plan.queue.head? else s.plan.queue.find? (fun q => q.lay == lay)

/-- The queue entry of a reissued record (R14): a counting reissue that reaches the limit enters as FAILED. -/
def reissueEntry (limit : Nat) (counts : Bool) (b : BoundEntry) : QueueEntry :=
  let n := if counts then min 15 (b.reissue + 1) else b.reissue
  { lay := b.lay, course := b.course, failed := counts && decide (limit ≤ n), reissue := n, slot := b.slot }

/-- R14: the bound record of a lay number returns to the queue. -/
def reissue (lay : Nat) (counts : Bool) (s : State) : State :=
  match boundOf lay s with
  | none => s
  | some b =>
    s.setPlan { s.plan with
      bound := s.plan.bound.filter (fun k => k.lay != lay)
      queue := insertByLay (reissueEntry s.params.reissueLimit counts b) s.plan.queue }

/-- R21: the bound record of a lay number is laid and leaves the plan store. -/
def planLaid (lay : Nat) (s : State) : State :=
  match boundOf lay s with
  | none => s
  | some b =>
    let p := s.plan.dropRef b.course
    s.setPlan { p with bound := p.bound.filter (fun k => k.lay != lay) }

/-! ### Courses (R2, R5) -/

/-- A part of the course is marked unreadable. -/
def courseUnreadable (s : State) (c : Nat) : Bool :=
  s.mgmt.unreadable.contains (coursePart c 0) || s.mgmt.unreadable.contains (coursePart c 1)

/-- Read both parts of a course: none when it is unreadable (R5). DESIGN CHOICE (log entry 43), unsafe: part 1 is read also when
part 0 is unreadable or says not present. -/
def readCourse (c : Nat) (s : State) : Option CourseRec × State :=
  match readPart (coursePart c 0) s with
  | (p0, t) =>
    match readPart (coursePart c 1) t with
    | (p1, u) =>
      match p0, p1 with
      | some a, some b => (some (courseRec a b), u)
      | _, _ => (none, u)

/-! ### Admission (R17 to R20) -/

/-- R19: the target of a record in its course. -/
def targetOfRecord (r : PlanRec) (c : CourseRec) : Target :=
  { x := sat32 (c.x + r.dx), y := sat32 (c.y + r.dy), z := c.z, w := r.yaw }

/-- R17 check 4: an offset lies within an extent. -/
def offsetFits (g : Bool) (d : Int) (ext : Nat) : Bool := decide (0 ≤ d) && decide (d ≤ effectiveExtent g ext)

/-- What an admission request is answered (R17, R18, R20). -/
inductive Admission where
  /-- The queue is empty, or the head stalls; nothing is bound. -/
  | none
  /-- The head is bound. -/
  | bound (entry : QueueEntry) (rec : PlanRec) (target : Target)
  deriving DecidableEq, Repr

/-- R18: the head stalls with the fault of the failing check. -/
def stall (k : FaultKind) (e : QueueEntry) (s : State) : Admission × State := (.none, latch k e.lay s)

/-- R20: the head leaves the queue and is bound. -/
def bindHead (e : QueueEntry) (t : Target) (s : State) : State :=
  s.setPlan { s.plan with
    queue := s.plan.queue.filter (fun q => q.lay != e.lay)
    bound := s.plan.bound ++ [{ lay := e.lay, course := e.course, reissue := e.reissue, slot := e.slot, target := t }] }

/-- R17 checks 4 and 5. DESIGN CHOICE (log entry 50), unsafe: a ZONE_ECC that the point test's own reads bring is latched before
TARGET_IN_ZONE (R188 lets either come first). -/
def admitInCourse (e : QueueEntry) (r : PlanRec) (c : CourseRec) (s : State) : Admission × State :=
  if !(offsetFits c.g r.dx c.extX && offsetFits c.g r.dy c.extY) then stall .recordLimit e s
  else
    match pointTest (targetOfRecord r c) s with
    | (false, t) => stall .targetInZone e t
    | (true, t) => (.bound e r (targetOfRecord r c), bindHead e (targetOfRecord r c) t)

/-- R17 checks 2 and 3. DESIGN CHOICE (log entry 50), unsafe: a TABLE_ECC that the reads of the course bring is latched before
COURSE_ABSENT (R188 lets either come first). -/
def admitRecord (e : QueueEntry) (s : State) : Admission × State :=
  match readPart (planPart e.slot) s with
  | (none, t) => stall .planEcc e t
  | (some body, t) =>
    match readCourse e.course t with
    | (none, u) => stall .courseAbsent e u
    | (some c, u) => if c.present then admitInCourse e (planRec body) c u else stall .courseAbsent e u

/-- An admission request (R17). -/
def admitHead (s : State) : Admission × State :=
  match s.plan.queue with
  | [] => (.none, s)
  | e :: _ => if e.failed then stall .recordFailed e s else admitRecord e s

end Sys2Proof.Machine
end

