-- ==== Sys2Proof/Machine/Placement.lean ====
section
/-! DEFINITION. The lay controller (chapter 3): the phases and the offset step, reach and convergence, the release gate,
the ends of a release and of a discard, and the as-laid record. -/

namespace Sys2Proof.Machine

/-- Progress is allowed (R50): the mode is no hold and the tracker is VALID. -/
def progressAllowed (s : State) : Bool := !s.ctl.mode.held && s.line.state == .valid

/-! ### Entries of phases (R52, R53, R55, R60) -/

/-- R52: APPROACH is entered from IDLE; the target is kept. -/
def Lay.enterApproach (l : Lay) (hover : Nat) : Lay :=
  { l with
    phase := .approach, oz := hover, gate := 0, settle := 0, capture := none, openPending := false,
    heldRelease := false, timer := none }

/-- R55: the entry to SETTLE, with its timer. -/
def Lay.enterSettle (l : Lay) (expiry : Word) : Lay :=
  { l with
    phase := .settle, oz := 0, gate := 0, settle := 0, capture := none, openPending := false,
    timer := some expiry }

/-- R60, R61: the return to IDLE. -/
def Lay.enterIdle (l : Lay) : Lay := { l with phase := .idle, target := none, gate := 0 }

/-- R52: with a HELD ticket at the gripper and the mode LAY, IDLE goes to APPROACH. -/
def approachIfHeld (s : State) : State :=
  if s.lay.phase == .idle && s.ctl.mode == .lay && (heldTicket s).isSome then
    s.setLay (s.lay.enterApproach s.params.hover)
  else s

/-- R48, R52: the ticket of a lay number becomes HELD: its target is copied, and in LAY the placement begins. -/
def placementBegins (lay : Nat) (s : State) : State :=
  approachIfHeld (s.setLay { s.lay with target := (boundOf lay s).map (·.target) })

/-! ### The offset step (R50 stage 1) -/

/-- R53: the step of DESCEND. -/
def Lay.descend (l : Lay) (step : Nat) (expiry : Word) : Lay :=
  if l.oz ≤ step then l.enterSettle expiry else { l with oz := l.oz - step }

/-- R60: the step of LIFT. -/
def Lay.lift (l : Lay) (step hover : Nat) : Lay :=
  if hover ≤ l.oz + step then { l.enterIdle with oz := hover } else { l with oz := l.oz + step }

/-- R55: settle trains at a TRAIN arrival that finds the phase SETTLE. -/
def Lay.countSettle (l : Lay) : Lay :=
  match l.phase with
  | .settle => { l with settle := bump l.settle }
  | _ => l

/-- R50 stage 1. -/
def offsetStep (s : State) : State :=
  let l := s.lay.countSettle
  if progressAllowed s then
    match l.phase with
    | .descend => s.setLay (l.descend s.params.descendStep (s.clock.ms + BitVec.ofNat 32 s.params.settleTime))
    | .lift => s.setLay (l.lift s.params.liftStep s.params.hover)
    | _ => s.setLay l
  else s.setLay l

/-! ### The verdict (R50 stage 3, R52, R54) -/

/-- An absent or exceeding value is not within a tolerance. -/
def within (v : Option Int) (tol : Nat) : Bool :=
  match v with
  | some e => decide (e.natAbs ≤ tol)
  | none => false

/-- R52: |E − C| is within the settle tolerance on each axis. -/
def converged (s : State) : Bool :=
  within (s.stab.e.x.map (· - s.stab.c.x)) s.params.tolX && within (s.stab.e.y.map (· - s.stab.c.y)) s.params.tolY &&
    within (s.stab.e.z.map (· - s.stab.c.z)) s.params.tolZ && within (s.stab.e.w.map (· - s.stab.c.w)) s.params.tolW

/-- The verdict on reach and convergence (R52, R54), in a train whose progress is allowed. -/
def layVerdict (s : State) : State :=
  if progressAllowed s then
    match s.lay.phase with
    | .approach =>
      if s.ctl.mode == .lay && s.stab.reach == some true && converged s then s.setLay { s.lay with phase := .descend }
      else s
    | .descend | .settle =>
      if s.stab.reach == some true then s else s.setLay (s.lay.toApproach s.params.hover)
    | .idle | .release | .lift => s
  else s

/-- R58: an OPEN request is made at this TRAIN arrival. DESIGN CHOICE, unsafe: a pending request is made without a look at a K raised
since (log entry 52) and at a no-release finding of the arrival's own evaluation (log entry 53). -/
def openRequested (s : State) : Bool :=
  progressAllowed s && s.ctl.mode == .lay && s.lay.phase == .settle && s.lay.openPending

/-- R58: the request is granted. -/
def Lay.enterRelease (l : Lay) : Lay :=
  { l with phase := .release, timer := none, openPending := false, heldRelease := false }

/-! ### The release gate (R56, R57) -/

/-- The gate of a train is judged: SETTLE, in no hold (R56, R62). -/
def gateJudged (s : State) : Bool := s.lay.phase == .settle && !s.ctl.mode.held

/-- R57: a closed gate. -/
def Lay.closeGate (l : Lay) : Lay := { l with gate := 0, openPending := false }

/-- The gate error and sample quality of the train (R57). -/
def captureNow (st : Stab) : Capture :=
  { x := st.err.x.getD 0, y := st.err.y.getD 0, z := st.err.z.getD 0, w := st.err.w.getD 0,
    quality := match st.used with | some u => u.2 | none => 0 }

/-- R57: an open gate. -/
def Lay.openGate (l : Lay) (k : Nat) (st : Stab) : Lay :=
  let n := min 255 (l.gate + 1)
  if k ≤ n then { l with gate := n, capture := some (captureNow st), openPending := true } else { l with gate := n }

/-- A fine role has a present, readable entry whose feedback was seen in the last 3 trains (R56). -/
def fineFresh (s : State) (r : Role) : Bool :=
  match entryOfRole r s with
  | some i => freshStamp s.ring.lastCycle (feedbackOf s i).stamp
  | none => false

/-- |Err| is within the settle tolerance on each axis (R56). -/
def errWithin (s : State) : Bool :=
  within s.stab.err.x s.params.tolX && within s.stab.err.y s.params.tolY && within s.stab.err.z s.params.tolZ &&
    within s.stab.err.w s.params.tolW

/-- The term condition on the course part as read (R56, R130): an unreadable course or term closes the gate. -/
def courseTermOpen (c : Nat) (p : Option Part) (s : State) : Bool :=
  match p with
  | some d =>
    !courseUnreadable s c && (field d 1 1 == 255 || resolve false s (field d 1 1))
  | none => false

/-- The conditions of R56 but the course's term. -/
def gateConditions (s : State) : Bool :=
  s.line.state == .valid && fineFresh s .fineX && fineFresh s .fineY && fineFresh s .fineZ && fineFresh s .fineW &&
    errWithin s && !s.guard.outcome.noRelease && s.axis.slot.x && s.axis.slot.y && s.axis.slot.z && s.axis.slot.w &&
    decide (s.lay.asLaid.length < 64) && s.ctl.mode == .lay

/-- The gate opens or closes (R57). -/
def settleGate (isOpen : Bool) (s : State) : State :=
  s.setLay (if isOpen then s.lay.openGate s.params.releaseK s.stab else s.lay.closeGate)

/-- The judgement of a gate that is due, reading the course's term from table memory (R56). -/
def judgeGate (s : State) : State :=
  match heldTicket s with
  | none => settleGate false s
  | some t =>
    match readPart (coursePart t.course 0) s with
    | (p, u) => settleGate (courseTermOpen t.course p u && gateConditions u) u

/-- The gate of the previous train, never judged, is judged closed at a TRAIN arrival; the new train's gate is due (R50). -/
def gateAtTrain (s : State) : State :=
  let t := if s.lay.gateDue && gateJudged s then settleGate false s else s
  t.setLay { t.lay with gateDue := true }

/-- The gate at an outbound END arrival (R56): judged when it is due, otherwise judged closed. DESIGN CHOICE (log entry 44),
unsafe: a gate judged closed outright, here or at a TRAIN arrival, reads no course part and no term. -/
def gateAtEnd (s : State) : State :=
  let t := if gateJudged s then (if s.lay.gateDue then judgeGate s else settleGate false s) else s
  t.setLay { t.lay with gateDue := false }

/-! ### The settle timer (R55) -/

/-- The settle timer is at its expiry while the phase is SETTLE. -/
def settleIsDue (s : State) : Bool :=
  match s.lay.timer with
  | some t => s.lay.phase == .settle && reached s.clock.ms t
  | none => false

/-- R55: PLACE_TIMEOUT with the HELD ticket's lay number; SLOW_SETTLE is set; the timer stops. -/
def reachSettle (s : State) : State :=
  if settleIsDue s then
    let t := s.setLay { s.lay with timer := none }
    match heldTicket t with
    | some k => latch .placeTimeout k.lay (t.setTrack (t.track.update k.lay (fun x => { x with slow := true })))
    | none => t
  else s

/-! ### The end of a release (R59, R61, R65) -/

/-- Saturate to −32,767 … 32,767 (R65). -/
def sat16 (v : Int) : Int := sat (-32767) 32767 v

/-- R65: the as-laid record of a ticket. -/
def asLaidRecord (k : Ticket) (unconfirmed : Bool) (l : Lay) : AsLaid :=
  let c := l.capture.getD { x := 0, y := 0, z := 0, w := 0, quality := 0 }
  { lay := k.lay, course := k.course, ticket := k.num, x := sat16 c.x, y := sat16 c.y, z := sat16 c.z, w := c.w,
    settle := l.settle, quality := c.quality, slowSettle := k.slow, lateAdhesive := k.spoilt,
    heldRelease := l.heldRelease, unconfirmed := unconfirmed, reissued := decide (0 < k.reissue) }

/-- R59: a release ends: the record is appended and the phase becomes LIFT with O_z = 0. -/
def Lay.endRelease (l : Lay) (k : Ticket) (unconfirmed : Bool) : Lay :=
  { l with
    asLaid := l.asLaid ++ [asLaidRecord k unconfirmed l], heldRelease := false, phase := .lift, oz := 0 }

/-- R61: a discard has removed the HELD ticket. -/
def Lay.discardHeld (l : Lay) : Lay :=
  match l.phase with
  | .idle | .approach => l.enterIdle
  | .descend | .settle => { l with phase := .lift, timer := none, openPending := false, capture := none }
  | .release | .lift => l

/-- What a STATION DISCARD of a ticket means to the lay controller (R59, R61). -/
def discardPlacement (k : Ticket) (s : State) : State :=
  match k.state with
  | .releasing => s.setLay (s.lay.endRelease k true)
  | .held => s.setLay s.lay.discardHeld
  | _ => s

end Sys2Proof.Machine
end

