-- ==== Sys2Proof/Machine/BrickTrack.lean ====
section
/-! DEFINITION. The track controller (chapter 2): the issue of commands, their completion, a station's report, timeouts,
open time, and STATION RETRY and DISCARD on the track. -/

namespace Sys2Proof.Machine

/-! ### Small operations -/

/-- Replace the record of a station. -/
def setStation (st : Station) (r : StationRec) (s : State) : State := s.setTrack (s.track.setStation st r)

/-- Change the ticket of a lay number. -/
def setTicket (lay : Nat) (f : Ticket → Ticket) (s : State) : State := s.setTrack (s.track.update lay f)

/-- A station is stalled (R26). -/
def stalled (s : State) (st : Station) : Bool := (s.track.station st).stall != .none

/-- A command is in flight at a station. -/
def busy (s : State) (st : Station) : Bool := (s.track.station st).inflight.isSome

/-- R31: the mode permits a command. -/
def modePermits (m : Mode) (c : Cmd) : Bool :=
  match m with
  | .lay => true
  | .guard => c != .feedOne && c != .handover
  | .hold | .standby => false

/-- R31 but for the axis entry: nothing in flight at the addressed station, no touched station stalled, the mode permits. -/
def mayIssue (c : Cmd) (pos : Station) (s : State) : Bool :=
  !busy s c.station && (c.touches pos).all (fun st => !stalled s st) && modePermits s.ctl.mode c

/-- The command timeout of a station, read from its axis entry at the issue (R30, R31); none without a present, readable
entry. -/
def stationEntry (st : Station) (s : State) : Option Nat × State :=
  match entryOfRole (stationRole st) s with
  | none => (none, s)
  | some i =>
    match readAxis i s with
    | (some e, t) => (some e.a, t)
    | (none, t) => (none, t)

/-- R26, R27, R30: a command goes in flight with the station's next number and its timer started. -/
def launch (c : Cmd) (ticket : Nat) (param : Word) (timeout : Nat) (s : State) : State :=
  let r := s.track.station c.station
  let n := nextNumber r.lastNum
  setStation c.station
    { r with
      lastNum := n
      inflight := some
        { cmd := c, num := n, param := param, ticket := ticket, issued := s.clock.ms, timeout := timeout
          timer := true } } s

/-- Issue a command for a ticket that makes it due, if R31 allows; the ticket changes by `f`. -/
def issueFor (c : Cmd) (k : Ticket) (param : Word) (f : Ticket → Ticket) (s : State) : State :=
  if mayIssue c k.pos s then
    match stationEntry c.station s with
    | (none, t) => t
    | (some timeout, t) => launch c k.lay param timeout (setTicket k.lay f t)
  else s

/-- A lay number as a command parameter. -/
def layParam (k : Ticket) : Word := BitVec.ofNat 32 k.lay

/-! ### The commands, station by station (R32 to R39) -/

/-- R24, R32: a new ticket at FEED. -/
def newTicket (num : Half) (e : QueueEntry) (r : PlanRec) : Ticket :=
  { num := num, lay := e.lay, course := e.course, strict := r.order == 1, cut := r.cut == 1, glue := r.glue,
    length := r.length, reissue := e.reissue, pos := .feed, state := .feeding, reject := false, spoilt := false,
    purge := false, measured := none, glueTime := none, slow := false }

/-- R32: FEED_ONE at FEED, with the admission of the head (R17). DESIGN CHOICE (log entry 37), unsafe: FEED's axis part is
read before the admission request, so that nothing is bound without a station to command; the read comes also in a train whose
request finds an empty queue or a head that stalls, with its correction, its counts and TABLE_ECC. -/
def issueFeed (s : State) : State :=
  if (s.track.first .feed).isNone && decide (s.track.tickets.length < 9) && mayIssue .feedOne .feed s then
    match stationEntry .feed s with
    | (none, t) => t
    | (some timeout, t) =>
      match admitHead t with
      | (.none, u) => u
      | (.bound e r _, u) =>
        let num := u.track.counter + 1
        let k := newTicket num e r
        launch .feedOne k.lay (layParam k) timeout
          (u.setTrack { u.track with tickets := u.track.tickets ++ [k], counter := num })
  else s

/-- R34: the ticket that EJECT is due for, AT_SAW first. -/
def ejectTicket (s : State) : Option Ticket :=
  match s.track.first .saw with
  | some k => if k.state == .atSaw && (k.reject || k.purge) then some k else none
  | none =>
    match s.track.first .feed with
    | some k => if k.state == .atFeed && k.purge then some k else none
    | none => none

/-- R33: the ticket that CUT is due for. -/
def cutTicket (s : State) : Option Ticket :=
  match s.track.first .saw, s.track.first .feed with
  | none, some k => if k.state == .atFeed && k.unmarked then some k else none
  | _, _ => none

/-- R33, R34: SAW. -/
def issueSaw (s : State) : State :=
  match ejectTicket s with
  | some k => issueFor .eject k (layParam k) id s
  | none =>
    match cutTicket s with
    | some k =>
      issueFor .cut k (if k.cut then BitVec.ofNat 32 (k.length * 10) else 0) (fun x => { x with state := .cutting }) s
    | none => s

/-- R35: GLUE. -/
def issueGlue (s : State) : State :=
  match s.track.first .glue, s.track.first .saw with
  | none, some k =>
    if k.state == .atSaw && k.unmarked then
      issueFor .glue k (BitVec.ofNat 32 k.glue) (fun x => { x with state := .gluing }) s
    else s
  | _, _ => s

/-- R36: SHUTTLE; when both are due the arbiter takes DELIVER (log entry 14). -/
def issueShuttle (s : State) : State :=
  match s.track.first .shuttle, s.track.first .flipper with
  | some k, none => issueFor .deliver k (layParam k) (fun x => { x with state := .delivering }) s
  | _, _ =>
    match s.track.first .glue with
    | some k =>
      if k.state == .atGlue && decide ((s.track.at .shuttle).length < 4) then
        issueFor .load k (layParam k) (fun x => { x with state := .loading }) s
      else s
    | none => s

/-- R37: a ticket may be handed over. -/
def handoverDue (k : Ticket) (s : State) : Bool :=
  k.state == .atFlipper && k.unmarked && (s.track.first .gripper).isNone && s.lay.phase == .idle &&
    match remainingOpen s.params.openTime s.clock.ms k with
    | some r => decide (s.params.reserve ≤ r)
    | none => false

/-- R37, R38: FLIPPER. -/
def issueFlipper (s : State) : State :=
  match s.track.first .flipper with
  | none => s
  | some k =>
    if k.state == .atFlipper && (k.spoilt || k.purge) then issueFor .drop k (layParam k) id s
    else if handoverDue k s then issueFor .handover k (layParam k) (fun x => { x with state := .handingOver }) s
    else s

/-- R38: the marking at the flipper, in any mode. -/
def spoilAtFlipper (s : State) : State :=
  match s.track.first .flipper with
  | none => s
  | some k =>
    match k.state, remainingOpen s.params.openTime s.clock.ms k with
    | .atFlipper, some r => if decide (r < s.params.reserve) then s.setTrack (s.track.markSpoilt k) else s
    | _, _ => s

/-- The issues of a TRAIN arrival, each station in turn; OPEN is issued in the lay controller's stage 3 (R39). -/
def issueCommands (s : State) : State := issueFlipper (issueShuttle (issueGlue (issueSaw (issueFeed s))))

/-- R39, R58: the lay controller's request for OPEN; granted when R31 allows the command, otherwise declined. -/
def requestOpen (s : State) : State :=
  match openRequested s, heldTicket s with
  | true, some k =>
    if mayIssue .openJaws .gripper s then
      match stationEntry .gripper s with
      | (none, t) => t
      | (some timeout, t) =>
        launch .openJaws k.lay (layParam k) timeout
          ((setTicket k.lay (fun x => { x with state := .releasing }) t).setLay t.lay.enterRelease)
    else s
  | _, _ => s

/-! ### Completion (R28, R32 to R39) -/

/-- R33: the measured length is out of tolerance. -/
def lengthOff (k : Ticket) (measured : Int) (tol : Nat) : Bool := decide (tol < (measured - k.length * 10).natAbs)

/-- R43: the reissue of a dropped ticket counts. -/
def reissueCounts (k : Ticket) : Bool := (k.reject || k.spoilt) && !k.purge

/-- R34, R38, R43: the ticket leaves the track and its record is reissued. -/
def dropTicket (k : Ticket) (counts : Bool) (s : State) : State :=
  reissue k.lay counts (s.setTrack (s.track.remove k.lay))

/-- The ticket takes a position and a state. -/
def moveTicket (k : Ticket) (pos : Station) (state : TicketState) (s : State) : State :=
  setTicket k.lay (fun x => { x with pos := pos, state := state }) s

/-- R33: CUT DONE. -/
def cutCompletes (k : Ticket) (measured : Int) (s : State) : State :=
  let t := setTicket k.lay (fun x => { x with pos := .saw, state := .atSaw, measured := some measured }) s
  if lengthOff k measured s.params.lengthTol then t.setTrack (t.track.markReject k) else t

/-- R39, R59: OPEN DONE. -/
def openCompletes (k : Ticket) (s : State) : State :=
  planLaid k.lay ((s.setLay (s.lay.endRelease k false)).setTrack (s.track.remove k.lay))

/-- What the DONE of a command does to its ticket. -/
def completeFor (c : Cmd) (k : Ticket) (measured : Int) (s : State) : State :=
  match c with
  | .feedOne => moveTicket k .feed .atFeed s
  | .cut => cutCompletes k measured s
  | .eject => dropTicket k (reissueCounts k) s
  | .glue => setTicket k.lay (fun x => { x with pos := .glue, state := .atGlue, glueTime := some s.clock.ms }) s
  | .load => moveTicket k .shuttle .onShuttle s
  | .deliver => moveTicket k .flipper .atFlipper s
  | .handover => placementBegins k.lay (moveTicket k .gripper .held s)
  | .drop => dropTicket k (reissueCounts k) s
  | .openJaws => openCompletes k s

/-- R28: the in-flight command of a station completes; the stall cause stands. -/
def complete (st : Station) (fl : InFlight) (measured : Int) (s : State) : State :=
  let t := setStation st { (s.track.station st) with inflight := none } s
  match t.track.find fl.ticket with
  | some k => completeFor fl.cmd k measured t
  | none => t

/-! ### A station's report (R28, R29, R44) -/

/-- R44: a command in flight touches the station. -/
def inTransfer (s : State) (st : Station) : Bool :=
  allStations.any fun x =>
    match (s.track.station x).inflight with
    | some fl => (fl.cmd.touches ((s.track.find fl.ticket).map (·.pos) |>.getD x)).contains st
    | none => false

/-- R44: the track holds a block at a station. -/
def holdsBlock (s : State) (st : Station) : Bool := (s.track.first st).isSome

/-- The brick-present sensor of a report (R192). -/
def brickPresent (f : Feedback) : Bool := f.status.getLsbD 2

/-- The station status of a report (R192): 0 IDLE, 1 BUSY, 2 DONE, 3 FAULT. -/
def stationStatus (f : Feedback) : Nat := f.status.toNat % 4

/-- The echoed command number of a report (R192). -/
def echoOf (f : Feedback) : Nat := f.aux0.toNat % 256

/-- R28, R29: what a report does to the command in flight. -/
def reportCommand (st : Station) (f : Feedback) (s : State) : State :=
  let r := s.track.station st
  match r.inflight with
  | none => s
  | some fl =>
    if stationStatus f = 2 && echoOf f = fl.num && r.stall != .fault then complete st fl f.actual.toInt s
    else if stationStatus f = 3 && echoOf f = fl.num && (r.stall == .none || r.stall == .timeout) then
      latch .stationFault (stationCode st)
        (setStation st { r with stall := .fault, inflight := some { fl with timer := false } } s)
    else s

/-- R44: the comparison of the sensor with the track. -/
def compareSensor (st : Station) (f : Feedback) (s : State) : State :=
  if stalled s st || inTransfer s st || brickPresent f == holdsBlock s st then s
  else
    latch .trackMismatch (stationCode st) (setStation st { (s.track.station st) with stall := .mismatch } s)

/-- A station's report, taken at its capture (R28, R44). -/
def stationReport (st : Station) (f : Feedback) (s : State) : State := compareSensor st f (reportCommand st f s)

/-! ### Timers (R30, R40) -/

/-- The command timer of a station is at its expiry. -/
def stationIsDue (s : State) (st : Station) : Bool :=
  match (s.track.station st).inflight with
  | some fl => fl.timer && reached s.clock.ms (fl.issued + BitVec.ofNat 32 fl.timeout)
  | none => false

/-- R30: the expiry of a station's command timer. -/
def reachStation (st : Station) (s : State) : State :=
  let r := s.track.station st
  match stationIsDue s st, r.inflight with
  | true, some fl =>
    let q := { r with inflight := some { fl with timer := false } }
    if r.stall == .none then
      latch .stationTimeout (stationCode st) (setStation st { q with stall := .timeout } s)
    else setStation st q s
  | _, _ => s

/-- The open time of a ticket has run out, and it is not SPOILT yet (R40). -/
def openIsDue (s : State) (k : Ticket) : Bool :=
  !k.spoilt &&
    match k.glueTime with
    | some g => decide (s.params.openTime ≤ elapsed s.clock.ms g)
    | none => false

/-- R40: the expiry of the open-time timer of the ticket of a lay number. -/
def reachOpenTime (lay : Nat) (s : State) : State :=
  match s.track.find lay with
  | some k => if openIsDue s k then s.setTrack (s.track.markSpoilt k) else s
  | none => s

/-- R40: each of these tickets whose open time has run out, the oldest first. -/
def reachOpenTimesOf (l : List Ticket) (s : State) : State := (l.map (·.lay)).foldl (fun t n => reachOpenTime n t) s

/-- R40: every ticket whose open time has run out. -/
def reachOpenTimes (s : State) : State := reachOpenTimesOf s.track.tickets s

/-- R40: the tickets of a ticket number whose open time has run out. -/
def reachOpenTimeNumbered (num : Half) (s : State) : State :=
  reachOpenTimesOf (s.track.tickets.filter (fun k => k.num == num)) s

/-! ### RETRY and DISCARD (R45, R46) -/

/-- R45: the command in flight is reissued with the next number. -/
def reissueCommand (st : Station) (fl : InFlight) (s : State) : State :=
  let r := s.track.station st
  let n := nextNumber r.lastNum
  setStation st
    { lastNum := n, inflight := some { fl with num := n, issued := s.clock.ms, timer := true }, stall := .none } s

/-- The entry that holds the latest report of a station: its present, readable entry, or, with none, of the unreadable entries
of its role, whose feedback stands as last captured (R152), the one captured last (log entry 15). -/
def reportEntry (st : Station) (s : State) : Option Nat :=
  match entryOfRole (stationRole st) s with
  | some i => some i
  | none =>
    s.axis.recent.find? fun i =>
      (feedbackOf s i).seen &&
        match s.axis.index[i]?.join with
        | some e => e.role == stationRole st
        | none => false

/-- R45: the latest brick-present report of the station agrees with the track (log entry 15). -/
def sensorAgrees (st : Station) (s : State) : Bool :=
  match reportEntry st s with
  | some i => (feedbackOf s i).seen && brickPresent (feedbackOf s i) == holdsBlock s st
  | none => false

/-- R46: what a discard finds at a station. -/
inductive Discard where
  /-- No ticket and no stall. -/
  | nothing
  /-- The ticket found is the subject of a command in flight at another station. -/
  | blocked
  /-- The station is cleared; the ticket, if there is one, is removed. -/
  | taken (k : Option Ticket)
  deriving DecidableEq, Repr

/-- A ticket is the subject of a command in flight at some station. -/
def underCommand (s : State) (lay : Nat) : Bool :=
  allStations.any fun x =>
    match (s.track.station x).inflight with
    | some fl => fl.ticket == lay
    | none => false

/-- R46: the discard ticket. -/
def discardOf (st : Station) (s : State) : Discard :=
  match (s.track.station st).inflight with
  | some fl => .taken (s.track.find fl.ticket)
  | none =>
    match s.track.first st with
    | some k => if underCommand s k.lay then .blocked else .taken (some k)
    | none => if stalled s st then .taken none else .nothing

/-- R46: the station is cleared and the ticket, if any, leaves the track with a reissue that does not count. -/
def discard (st : Station) (k : Option Ticket) (s : State) : State :=
  let t := setStation st { (s.track.station st) with inflight := none, stall := .none } s
  match k with
  | none => t
  | some k => dropTicket k false (discardPlacement k t)

end Sys2Proof.Machine
end

