-- ==== Sys2Proof/Machine/Trains.lean ====
section
/-! DEFINITION. Outbound trains (chapter 8): the TRAIN arrival with the per-train work of every block in the order of log
entry 7, the END arrival, and the train watchdog. -/

namespace Sys2Proof.Machine

/-! ### The ring port's own work at a TRAIN arrival (R140, R144, R146) -/

/-- The cycle number does not follow the last one (R140). -/
def trainGap (last : Option Word) (cycle : Word) : Bool :=
  match last with
  | some n => cycle != n + 1
  | none => false

/-- The watchdog's interval: three times the period, clamped to 250 … 4,000 µs (R146). -/
def watchdogInterval (period : Half) : Nat := 3 * clampN 250 4000 period.toNat

/-- R140: gap check, last cycle number, watchdog, append opportunity. -/
def Ring.train (r : Ring) (cycle : Word) (period : Half) (now : Word) : Ring :=
  { r with
    gaps := if trainGap r.lastCycle cycle then bump r.gaps else r.gaps
    missed := if r.append then bump r.missed else r.missed
    lastCycle := some cycle
    watchdog := some (now + BitVec.ofNat 32 (watchdogInterval period))
    append := true }

/-- No fine slot is filled (R160), and the train of the fine cells is open, or over (R82, R158). -/
def clearSlots (opened : Bool) (s : State) : State :=
  s.setAxis { s.axis with slot := Quad.all false, trainOpen := opened }

/-- P_now handed over by this train's computation, if it made one (R74). -/
def evaluateZones (s : State) : State :=
  match stageSample s, s.stab.pNow with
  | some _, some p => zoneEvaluate p s
  | _, _ => s

/-- The work that follows the port's own and the gate of the train before: terms, scrub, placement, stabilizer, zone guard.
`fr` is the freeze as the arrival found it: a hold that a term or the scrub brings in this arrival freezes the command from the
next one (R79, R82). -/
def trainCompute (fr : Bool) (s : State) : State :=
  evaluateZones (stabCompute fr (offsetStep (approachIfHeld (scrubStep (evalTerms (List.range 32) s)))))

/-- The last work of a TRAIN arrival: verdict, OPEN request, marking at the flipper, issue of commands. -/
def trainIssue (s : State) : State := issueCommands (spoilAtFlipper (requestOpen (layVerdict s)))

/-- What the arrival begins at the ring ports and the conditioner, ahead of the work of the other blocks (R140, R160). -/
def beginTrain (cycle : Word) (period : Half) (s : State) : State :=
  clearSlots true (s.setRing (s.ring.train cycle period s.clock.us))

/-- An outbound TRAIN arrival (R140). -/
def outboundTrain (cycle : Word) (period : Half) (s : State) : State :=
  trainIssue (trainCompute (frozen s) (gateAtTrain (beginTrain cycle period s)))

/-! ### The END arrival (R141, R160) -/

/-- The slot filled flag of a fine role. -/
def slotOf (q : Quad Bool) (r : Role) : Bool :=
  match r with
  | .fineX => q.x
  | .fineY => q.y
  | .fineZ => q.z
  | .fineW => q.w
  | _ => true

/-- R160: the judgement of one fine axis. -/
def judgeSlot (r : Role) (s : State) : State :=
  match entryOfRole r s with
  | none => s
  | some i =>
    if slotOf s.axis.slot r then s
    else
      let t := s.setAxis { s.axis with missing := bump s.axis.missing }
      if s.ctl.mode == .lay then latch .missingSlot i t else t

/-- R160: the judgement of the four fine axes; every flag is then cleared. DESIGN CHOICE (log entry 38), unsafe: X, Y, Z, W in
turn, so the first missing one of these gives the detail of the first fault (R188 lets either latch come first). -/
def judgeSlots (s : State) : State :=
  clearSlots false (judgeSlot .fineW (judgeSlot .fineZ (judgeSlot .fineY (judgeSlot .fineX s))))

/-- An outbound END arrival (R141): the gate uses the slot flags before they are cleared. DESIGN CHOICE (log entry 49), unsafe: the
gate is judged first, so a TABLE_ECC of its course part is latched before a MISSING_SLOT (R188 lets either come first). -/
def outboundEnd (s : State) : State := judgeSlots (gateAtEnd s)

/-! ### The train watchdog (R146) -/

/-- The watchdog's expiry is reached. -/
def watchdogIsDue (s : State) : Bool := passed s s.ring.watchdog

/-- R146: the expiry of the train watchdog. -/
def reachWatchdog (s : State) : State :=
  if watchdogIsDue s then
    let t := s.setRing { s.ring with watchdog := none, expiries := bump s.ring.expiries }
    raiseStarved (if t.ctl.mode == .standby then t else latch .starved ((t.ring.lastCycle.getD 0).toNat) t)
  else s

end Sys2Proof.Machine
end

