-- ==== Sys2Proof/Machine/Setpoints.lean ====
section
/-! DEFINITION. The setpoint conditioner and the feedback store (chapter 9): what a SET cell that passes at the UP port
becomes, and the capture of an FBK cell. -/

namespace Sys2Proof.Machine

/-! ### Coarse SET cells (R156, R157) -/

/-- The last forwarded position of an entry. -/
def lastForwarded (s : State) (i : Nat) : Option Word := s.axis.lastFwd[i]?.join

/-- Note a forwarded position. -/
def setForwarded (i : Nat) (p : Word) (s : State) : State :=
  s.setAxis { s.axis with lastFwd := s.axis.lastFwd.setIfInBounds i (some p) }

/-- R156: the position of the hold form. -/
def holdPosition (s : State) (i : Nat) (c : Cell) : Word :=
  let f := feedbackOf s i
  if f.seen then f.actual else pword c 0

/-- R156: the hold form. -/
def holdForm (s : State) (i : Nat) (c : Cell) : Cell := refill c (setPayload (holdPosition s i c) 0 1 0)

/-- R157: a position limited to a step from a base. -/
def limitStep (base target : Word) (step : Nat) : Word :=
  word32 (base.toInt + sat (-(step : Int)) step (target.toInt - base.toInt))

/-- R157: the base a coarse cell is measured from, none for a never-seen entry without a last forwarded position. -/
def coarseBase (s : State) (i : Nat) : Option Word :=
  match lastForwarded s i with
  | some p => some p
  | none => if (feedbackOf s i).seen then some (feedbackOf s i).actual else none

/-- Bytes 13 to 27 of a SET cell. -/
def setRest (c : Cell) : BitVec 120 := c.payload.extractLsb' 72 120

/-- The SET flags of a rewritten coarse cell: HOLD clear, CONDITIONED as given (R157), and 0 in the bits that no table names
(R191, log entry 19). -/
def coarseFlags (conditioned : Bool) : Byte := if conditioned then 2 else 0

/-- R157: a coarse cell forwarded at a position outside the hold form. -/
def coarseCell (c : Cell) (p : Word) : Cell :=
  if p == pword c 0 then refill c (setPayload p (pword c 4) (coarseFlags false) (setRest c))
  else refill c (setPayload p 0 (coarseFlags true) (setRest c))

/-- The step in force for a coarse entry (R115, R117, R157). -/
def coarseStep (e : AxisRec) (s : State) : Nat :=
  if s.guard.outcome.slow || s.ctl.recovery then e.b else e.a

/-- R156: a coarse cell in the hold form; it sets the last forwarded position. -/
def forwardHeld (i : Nat) (c : Cell) (s : State) : Cell × State :=
  (holdForm s i c, setForwarded i (holdPosition s i c) s)

/-- R157: a coarse cell under the step of its entry. -/
def forwardLimited (i : Nat) (e : AxisRec) (c : Cell) (s : State) : Cell × State :=
  match coarseBase s i with
  | none => (c, setForwarded i (pword c 0) s)
  | some b =>
    let p := limitStep b (pword c 0) (coarseStep e s)
    (coarseCell c p, setForwarded i p s)

/-- A SET cell addressed to a COARSE entry (R152, R156, R157): the steps of a readable entry are read at each cell, in a hold too
(R149). -/
def conditionCoarse (i : Nat) (c : Cell) (s : State) : Cell × State :=
  if axisUnreadable s i then forwardHeld i c s
  else
    match readAxis i s with
    | (none, t) => forwardHeld i c t
    | (some e, t) => if s.ctl.mode.held then forwardHeld i c t else forwardLimited i e c t

/-! ### Fine and station SET cells (R158, R159) -/

/-- The command of a fine role. -/
def fineOf (q : Quad Int) (r : Role) : Int :=
  match r with
  | .fineX => q.x
  | .fineY => q.y
  | .fineZ => q.z
  | .fineW => q.w
  | _ => 0

/-- The slot of a fine role is filled (R160). -/
def fillSlot (q : Quad Bool) (r : Role) : Quad Bool :=
  match r with
  | .fineX => { q with x := true }
  | .fineY => { q with y := true }
  | .fineZ => { q with z := true }
  | .fineW => { q with w := true }
  | _ => q

/-- A fine SET cell comes whose cycle's TRAIN cell was received, or was not: the train received last is then over (R82, log entry
35). -/
def noteCycle (trainSeen : Bool) (s : State) : State :=
  s.setAxis { s.axis with trainOpen := s.axis.trainOpen && trainSeen }

/-- R82: C − C_prev within the train whose TRAIN cell arrived, 0 in a cycle without one (log entry 35). -/
def fineVelocity (s : State) (r : Role) : Int :=
  if s.axis.trainOpen then fineOf s.stab.c r - fineOf s.stab.cPrev r else 0

/-- The HOLD flag of a SET cell. -/
def holdFlag (s : State) : Byte := if s.ctl.mode.held then 1 else 0

/-- R158: a fine SET cell filled from the stabilizer. -/
def fineCell (r : Role) (c : Cell) (s : State) : Cell :=
  refill c (setPayload (word32 (fineOf s.stab.c r)) (word32 (fineVelocity s r)) (holdFlag s) 0)

/-- R158: a SET cell addressed to a fine entry. -/
def fillFine (r : Role) (i : Nat) (c : Cell) (s : State) : Cell × State :=
  if axisUnreadable s i then (c, s)
  else (fineCell r c s, s.setAxis { s.axis with slot := fillSlot s.axis.slot r })

/-- R159: a station SET cell filled from the track controller with the command in flight as it stands (R26). DESIGN CHOICE (log entry
51), unsafe: after a RETRY that includes the cell of the same outbound train, where R45 says from the next one. -/
def stationCell (st : Station) (c : Cell) (s : State) : Cell :=
  match (s.track.station st).inflight with
  | some fl => refill c (stationPayload fl.param fl.cmd.code fl.num s.ctl.mode.held)
  | none => refill c (stationPayload 0 0 0 s.ctl.mode.held)

/-- R159: a SET cell addressed to a station entry. -/
def fillStation (st : Station) (i : Nat) (c : Cell) (s : State) : Cell × State :=
  if axisUnreadable s i then (c, s) else (stationCell st c s, s)

/-- The content of a SET cell that passes at the UP port (R138, R156 to R159). -/
def conditionSet (c : Cell) (s : State) : Cell × State :=
  match entryOfAddr c.dst s with
  | none => (c, s)
  | some (i, e) =>
    match e.role with
    | .coarse => conditionCoarse i c s
    | .fineX | .fineY | .fineZ | .fineW => fillFine e.role i c s
    | .feed => fillStation .feed i c s
    | .saw => fillStation .saw i c s
    | .glue => fillStation .glue i c s
    | .shuttle => fillStation .shuttle i c s
    | .flipper => fillStation .flipper i c s
    | .gripper => fillStation .gripper i c s
    | .sensor => (c, s)

/-! ### The feedback store (R154) -/

/-- The feedback that an FBK cell carries (R192). -/
def feedbackOfCell (c : Cell) (stamp : Option Word) : Feedback :=
  { actual := pword c 0, status := phalf c 4, aux0 := phalf c 6, aux1 := phalf c 8, aux2 := phalf c 10, aux3 := phalf c 12,
    stamp := stamp, seen := true }

/-- R154: the entry takes the cell's values, all together, and is the one captured last. -/
def storeFeedback (i : Nat) (f : Feedback) (s : State) : State :=
  s.setAxis { s.axis with
    feedback := s.axis.feedback.setIfInBounds i f
    recent := i :: s.axis.recent.filter (fun j => j != i) }

/-- R154: the capture, which informs the term evaluator and then the track controller (log entry 16). -/
def capture (i : Nat) (role : Role) (c : Cell) (s : State) : State :=
  let f := feedbackOfCell c s.ring.lastCycle
  let t := storeFeedback i f s
  let u := evalTerms (termsOnEntry i t) t
  match role.station with
  | some st => stationReport st f u
  | none => u

/-- A good FBK cell that passes at the DOWN port (R142, R154). -/
def captureCell (c : Cell) (s : State) : State :=
  match entryOfAddr c.src s with
  | none => s
  | some (i, e) => if axisUnreadable s i then s else capture i e.role c s

end Sys2Proof.Machine
end

