-- ==== Sys2Proof/Machine/Resets.lean ====
section
/-! DEFINITION. The three resets (R190, R175): power-on reset, ring reset and restart of every block. -/

namespace Sys2Proof.Machine

/-! ### Power-on reset (R139, R162, R190) -/

/-- The own ring address of a strap value: 0 and 127 give none (R139). -/
def ownOfStrap (ra : BitVec 7) : Byte := if ra = 0 || ra = 127 then 0 else ra.zeroExtend 8

/-- R162: origin entry 0 of the strap values: present with level 0, or not present. -/
def originCells (ra oa : BitVec 7) : Memory :=
  if oa = 0 || oa = 127 || oa = ra then [] else [(0, 1), (1, oa.zeroExtend 8)]

/-- R190: the part right after RESET_N is released; the time bases start at 0 (log entry 4). -/
def poweredOn (ra oa : BitVec 7) (ready rxdSpace : Bool) (pending : List Instr) : State :=
  { clock := { us := 0, ms := 0, sub := 0 }
    pins := { ra := ra, oa := oa, trkReady := ready }
    ring := Ring.initial 0 (ownOfStrap ra)
    axis := Axis.initial
    line := { Line.initial with
      breakDue := if rxdSpace then some (BitVec.ofNat 32 (charsTime 2 Params.initial)) else none }
    stab := Stab.initial
    guard := Guard.initial
    terms := Terms.initial
    plan := Plan.initial
    track := Track.initial
    lay := Lay.initial
    mgmt := Mgmt.initial
    mem := { cells := originCells ra oa ++ paramCells, flips := [] }
    params := Params.initial
    ctl := Ctl.initial
    pending := pending }

/-! ### Ring reset (R175) -/

/-- The table memory after a ring reset: the origin parts are kept, every other part is rewritten (R175, R179). -/
def memAfterReset (t : TableMem) : TableMem :=
  { cells := t.cells.filter (fun c => c.1 < 128) ++ paramCells, flips := t.flips.filter (fun k => k / 144 < 8) }

/-- The management unit after a ring reset: the origin parts' unreadable markings are kept (R175, R179). -/
def mgmtAfterReset (m : Mgmt) : Mgmt := { Mgmt.initial with unreadable := m.unreadable.filter (fun n => n < 8) }

/-- R175: every block takes its power-on values, but for the origin table and the own ring address; the time bases run on
and the pins stand as they are. -/
def ringReset (s : State) : State :=
  { clock := s.clock
    pins := s.pins
    ring := Ring.initial s.clock.us s.ring.ownAddr
    axis := Axis.initial
    line := Line.initial
    stab := Stab.initial
    guard := Guard.initial
    terms := Terms.initial
    plan := Plan.initial
    track := Track.initial
    lay := Lay.initial
    mgmt := mgmtAfterReset s.mgmt
    mem := memAfterReset s.mem
    params := Params.initial
    ctl := Ctl.initial
    pending := s.pending }

/-! ### Restart (R175) -/

/-- R47: a station record after a restart: the last command number is kept. -/
def StationRec.restarted (r : StationRec) : StationRec := { StationRec.initial with lastNum := r.lastNum }

/-- R47: the track after a restart. -/
def Track.restarted (t : Track) : Track :=
  { tickets := [], counter := t.counter, feed := t.feed.restarted, saw := t.saw.restarted, glue := t.glue.restarted,
    shuttle := t.shuttle.restarted, flipper := t.flipper.restarted, gripper := t.gripper.restarted }

/-- R67: the lay controller after a restart: the as-laid queue is kept. -/
def Lay.restarted (l : Lay) : Lay := { Lay.initial with asLaid := l.asLaid }

/-- R21: the records of all live tickets are reissued without counting. -/
def reissueAll (s : State) : State := (s.track.tickets.map (·.lay)).foldl (fun t l => reissue l false t) s

/-- R175: the restart of every block; the mode becomes STANDBY and the causes are taken afresh (R190). The fine cells that follow
carry velocity 0 (R84). -/
def restart (s : State) : State :=
  let t := reissueAll s
  toStandby (((t.setTrack t.track.restarted).setLay t.lay.restarted).setAxis { t.axis with trainOpen := false })

end Sys2Proof.Machine
end

