-- ==== Sys2Proof/Machine/Management.lean ====
section
/-! DEFINITION. The management unit (chapter 10): replies, origins and levels, the order of judgement, and the operations
that read tables or act on the machine. Writing tables is in Writes.lean. -/

namespace Sys2Proof.Machine

/-! ### What a reply shows of the state (section 12.2) -/

/-- A status bit. -/
def statusBit (b : Bool) (i : Nat) : Byte := BitVec.ofNat 8 (flagBit b i)

/-- The value of a term in the status byte: FALSE 0, TRUE 1, UNKNOWN 2. -/
def TermValue.code : TermValue → Nat
  | .isFalse => 0
  | .isTrue => 1
  | .unknown => 2

/-- A part of table memory is marked unreadable. -/
def unreadableBit (s : State) (n : Nat) : Byte := statusBit (s.mgmt.unreadable.contains n) 0

/-- The suspended flag of a zone in bit 2. -/
def suspendedBit (s : State) (i : Nat) : Byte := statusBit (s.guard.suspended.contains i) 2

/-- The flags of a zone (R121). -/
def zoneFlags (s : State) (i : Nat) : Byte :=
  statusBit (s.guard.poisoned.contains (zonePart i 0)) 0 ||| statusBit (s.guard.poisoned.contains (zonePart i 1)) 1 |||
    suspendedBit s i

/-- The flags of a term (R132). -/
def termFlags (s : State) (i : Nat) : Byte :=
  unreadableBit s (termPart i) ||| BitVec.ofNat 8 (16 * (termHeld s i).value.code)

/-- The place of a record in the plan queue: reissue count and state (R16). -/
def planFlags (e : QueueEntry) : Byte := BitVec.ofNat 8 (e.reissue + flagBit e.failed 4)

/-- A course part with its reference count in the read-only field (R3). -/
def withRefCount (s : State) (c p : Nat) (d : Part) : Part :=
  d ||| packPart (if p = 0 then [(2, 0), (2, refCount s c)] else [(8, 0), (2, refCount s c)])

/-- A counter page of PARAM part 5, 6 or 7, none outside the part's range (R173). -/
def counterPage (part page : Nat) (s : State) : Option Part :=
  if part = 5 then (if page ≤ 1 then some (linePage page s.line.count) else none)
  else if part = 6 then (if page ≤ 1 then some (ringPage page s) else none)
  else if page = 0 then some (mgmtPage s) else none

/-- The table part number that a table code, index and part name, none outside the table (R169). -/
def partNumber (table index part : Nat) : Option Nat :=
  if table = 1 then (if index < 8 && part = 0 then some (originPart index) else none)
  else if table = 2 then (if index = 0 && part < 5 then some (paramPart part) else none)
  else if table = 3 then (if index < 24 && part = 0 then some (axisPart index) else none)
  else if table = 4 then (if index < 32 && part = 0 then some (termPart index) else none)
  else if table = 5 then (if index < 64 && part < 2 then some (zonePart index part) else none)
  else if table = 6 then (if index < 256 && part < 2 then some (coursePart index part) else none)
  else none

/-- The flags that the owner of a table part attaches to a READ or WRITE of it (section 12.2). -/
def partStatus (s : State) (n : Nat) : Byte :=
  match placeOf n with
  | .origin _ => unreadableBit s n
  | .axis _ => unreadableBit s n
  | .course _ _ => unreadableBit s n
  | .term i => termFlags s i
  | .zone i _ => zoneFlags s i
  | .param _ => 0
  | .plan _ => 0

/-- The content of a part as a reply shows it: a course part carries its reference count. -/
def shownPart (s : State) (n : Nat) (d : Part) : Part :=
  match placeOf n with
  | .course c p => withRefCount s c p d
  | _ => d

/-- The addressed part as it stands after a WRITE, for its reply: read under R177, so that no word in error is shown as it was
stored; a part marked already gives zeros and is not read again (R167, log entry 12). -/
def writtenPart (n : Nat) (s : State) : Part × State :=
  if partMarked s n then (0, s)
  else
    match readPart n s with
    | (some d, t) => (shownPart t n d, t)
    | (none, t) => (0, t)

/-- The status byte and the data of a WRITE's reply, and the state after the read that shows them (R167). DESIGN CHOICE (log entry
12), unsafe: a WRITE that names the PLAN table, which R165 gives no WRITE, shows zeros also for a position that holds a record. -/
def writeShown (r : Request) (s : State) : (Byte × Part) × State :=
  match partNumber r.table.toNat r.index.toNat r.part.toNat with
  | some n =>
    match writtenPart n s with
    | (d, t) => ((partStatus t n, d), t)
  | none =>
    if r.table = 2 && 5 ≤ r.part.toNat then ((0, (counterPage r.part.toNat r.index.toNat s).getD 0), s)
    else if r.table = 3 && r.part = 1 && r.index.toNat < 24 then
      ((unreadableBit s (axisPart r.index.toNat), feedbackPage s r.index.toNat), s)
    else ((0, 0), s)

/-! ### Replies (R166) -/

/-- Queue one reply. -/
def pushReply (p : Reply) (s : State) : State := s.setMgmt { s.mgmt with replies := s.mgmt.replies ++ [p] }

/-- The reply of a request. -/
def replyOf (r : Request) (code : ReplyCode) (status : Byte) (second : Bool) (data : Part) : Reply :=
  { dst := r.src, tag := r.tag, op := r.op, code := code, status := status, second := second, data := data }

/-- Answer a request with given status and data. -/
def answer (r : Request) (code : ReplyCode) (status : Byte) (data : Part) (s : State) : State :=
  pushReply (replyOf r code status false data) s

/-- Answer a PROBE: two replies with one code and one status. -/
def answerTwice (r : Request) (code : ReplyCode) (status : Byte) (lo hi : Part) (s : State) : State :=
  pushReply (replyOf r code status true hi) (pushReply (replyOf r code status false lo) s)

/-- Answer with what the operation shows of the state as it then stands: the mode and the causes (R182), the addressed
part (R167), the suspended flag (R174); for the rest zeros. -/
def respond (r : Request) (code : ReplyCode) (s : State) : State :=
  if r.op = opProbe then answerTwice r code 0 0 0 s
  else if r.op = opReset then s
  else if r.op = opWrite then
    match writeShown r s with
    | (shown, t) => answer r code shown.1 shown.2 t
  else if r.op = opMode then answer r code (BitVec.ofNat 8 (causeByte s.ctl)) (packPart [(1, s.ctl.mode.code)]) s
  else if r.op = opSuspend || r.op = opRestore then answer r code (suspendedBit s r.index.toNat) 0 s
  else answer r code 0 0 s

/-- The replies an operation makes (R166). -/
def replyCount (op : Byte) : Nat := if op = opProbe then 2 else if op = opReset then 0 else 1

/-- The data bytes carry a number. -/
def numberData (n : Nat) : Part := packPart [(4, n)]

/-! ### Origins (R163, log entry 11) -/

/-- Read the origin entries of a list in turn; the level of the first present, readable one with the address. DESIGN CHOICE (log
entry 45), unsafe: by rising index. -/
def readOrigins (src : Byte) : List Nat → State → Option Nat × State
  | [], s => (none, s)
  | i :: is, s =>
    match readPart (originPart i) s with
    | (p, t) =>
      match readOrigins src is t with
      | (rest, u) =>
        match p with
        | some d =>
          let o := originRec d
          (if o.present = 1 && o.addr = src.toNat then some o.level else rest, u)
        | none => (rest, u)

/-- The origin level of a source address (R163). -/
def originLevel (src : Byte) (s : State) : Option Nat × State := readOrigins src (List.range 8) s

/-! ### READ (R169) -/

/-- READ of a part of table memory. -/
def readTablePart (r : Request) (n : Nat) (s : State) : State :=
  match readPart n s with
  | (some d, t) => answer r .ok (partStatus t n) (shownPart t n d) t
  | (none, t) => answer r .memoryError (partStatus t n) 0 t

/-- READ of the PLAN table by queue position (R16). -/
def readPlan (r : Request) (s : State) : State :=
  match s.plan.queue[r.index.toNat]?, r.part.toNat with
  | some e, 0 =>
    match readPart (planPart e.slot) s with
    | (some d, t) => answer r .ok (planFlags e) d t
    | (none, t) => answer r .memoryError (planFlags e) 0 t
  | _, _ => answer r .badIndex 0 0 s

/-- READ of PARAM parts 5 to 7 (R173). -/
def readCounters (r : Request) (s : State) : State :=
  match counterPage r.part.toNat r.index.toNat s with
  | some d => answer r .ok 0 d s
  | none => answer r .badIndex 0 0 s

/-- READ (R169, R153). -/
def opReadExec (r : Request) (s : State) : State :=
  let table := r.table.toNat
  if table = 7 then readPlan r s
  else if table = 2 && 5 ≤ r.part.toNat then readCounters r s
  else if table = 3 && r.part = 1 && r.index.toNat < 24 then
    answer r .ok (unreadableBit s (axisPart r.index.toNat)) (feedbackPage s r.index.toNat) s
  else
    match partNumber table r.index.toNat r.part.toNat with
    | some n => readTablePart r n s
    | none => answer r .badIndex 0 0 s

/-! ### PROBE (R170) -/

/-- A corner as reply data. -/
def cornerData (x y z : Int) : Part := packPart [(4, (word32 x).toNat), (4, (word32 y).toNat), (4, (word32 z).toNat)]

/-- PROBE of a zone (R121). DESIGN CHOICE (log entry 12), unsafe: with either part poisoned both replies are MEMORY_ERROR with the
accessible flag clear and no corner, part 0 readable or not. -/
def probeZone (r : Request) (level : Nat) (s : State) : State :=
  match readZone r.index.toNat s with
  | (none, t) => answerTwice r .memoryError 0 0 0 t
  | (some z, t) =>
    let b := z.box
    answerTwice r .ok (statusBit (z.present && decide (level ≤ z.dpl)) 0) (cornerData b.lo.x b.lo.y b.lo.z)
      (cornerData b.hi.x b.hi.y b.hi.z) t

/-- PROBE of a course (R2, R170). -/
def probeCourse (r : Request) (s : State) : State :=
  match readCourse r.index.toNat s with
  | (none, t) => answerTwice r .memoryError 0 0 0 t
  | (some c, t) =>
    answerTwice r .ok (statusBit c.present 0) (cornerData c.x c.y c.z)
      (cornerData (boxMax c.x c.g c.extX) (boxMax c.y c.g c.extY) c.z) t

/-- PROBE (R170). -/
def opProbeExec (r : Request) (level : Nat) (s : State) : State :=
  if r.table = 5 then
    (if r.index.toNat < 64 then probeZone r level s else answerTwice r .badIndex 0 0 0 s)
  else (if r.index.toNat < 256 then probeCourse r s else answerTwice r .badIndex 0 0 0 s)

/-! ### SCAN (R171) -/

/-- The number of entries of a table. -/
def tableSize (table : Nat) : Nat :=
  if table = 1 then 8
  else if table = 3 then 24
  else if table = 4 then 32
  else if table = 5 then 64
  else 256

/-- The present field of an entry's part 0 (sections 12.3). -/
def presentField (table : Nat) (d : Part) : Bool := if table = 5 || table = 6 then d.getLsbD 0 else field d 0 1 == 1

/-- Part 0 of an entry that SCAN examines. -/
def scanPart (table i : Nat) : Nat := (partNumber table i 0).getD 0

/-- The entry is present and readable, as a read of its part 0 finds it; a course is unreadable by either part. -/
def scanPresent (table i : Nat) (s : State) : Bool × State :=
  match readPart (scanPart table i) s with
  | (some d, t) => (presentField table d && !(table == 6 && courseUnreadable t i), t)
  | (none, t) => (false, t)

/-- A zone is poisoned: either of its parts is (R105). -/
def zonePoisoned (s : State) (i : Nat) : Bool :=
  s.guard.poisoned.contains (zonePart i 0) || s.guard.poisoned.contains (zonePart i 1)

/-- An examined entry meets the stop condition (R171). DESIGN CHOICE (log entry 11), unsafe: PRESENT and ABSENT read the entry's
part 0 alone; NONE, SUSPENDED and POISONED read no part, so a scan for these finds no new error. -/
def scanMeets (table stop i : Nat) (s : State) : Bool × State :=
  match stop with
  | 0 => (false, s)
  | 1 => scanPresent table i s
  | 2 => (!(scanPresent table i s).1, (scanPresent table i s).2)
  | 3 => (s.guard.suspended.contains i, s)
  | _ => (zonePoisoned s i, s)

/-- The end of a scan: found, the last index examined, the remaining count. -/
structure ScanEnd where
  found : Bool
  last : Nat
  left : Nat
  deriving DecidableEq, Repr

/-- The next index of a scan, none outside the table. -/
def scanNext (size : Nat) (up : Bool) (i : Nat) : Option Nat :=
  if up then (if i + 1 < size then some (i + 1) else none) else (if i = 0 then none else some (i - 1))

/-- Examine entries from `i` on, `count` of them at most (R171). -/
def scanFrom (table stop : Nat) (up : Bool) : Nat → Nat → State → ScanEnd × State
  | 0, i, s => ({ found := false, last := i, left := 0 }, s)
  | count + 1, i, s =>
    match scanMeets table stop i s with
    | (true, t) => ({ found := true, last := i, left := count }, t)
    | (false, t) =>
      match count, scanNext (tableSize table) up i with
      | 0, _ => ({ found := false, last := i, left := 0 }, t)
      | _, none => ({ found := false, last := i, left := count }, t)
      | _, some j => scanFrom table stop up count j t

/-- A SCAN's count, direction and stop condition are in range (R171). -/
def scanValid (table count : Nat) (dir : Byte) (stop : Nat) : Bool :=
  1 ≤ count && count ≤ 256 && (dir == 1 || dir == 0xFF) && (stop ≤ 2 || (stop ≤ 4 && table == 5))

/-- SCAN (R171). -/
def opScanExec (r : Request) (s : State) : State :=
  let table := r.table.toNat
  let count := field r.data 0 2
  let dir : Byte := r.data.extractLsb' 16 8
  let stop := field r.data 3 1
  if tableSize table ≤ r.index.toNat then answer r .badIndex 0 0 s
  else if !scanValid table count dir stop then answer r .badValue 0 0 s
  else
    match scanFrom table stop (dir == 1) count r.index.toNat s with
    | (e, t) => answer r .ok 0 (packPart [(1, if e.found then 1 else 0), (1, 0), (2, e.last), (2, e.left)]) t

/-! ### Plan operations (R10, R12, R13) -/

/-- The lay number L of a PLAN_FLUSH or SKIP. -/
def layOf (r : Request) : Nat := field r.data 0 4

/-- PLAN_APPEND (R10). -/
def opAppendExec (r : Request) (s : State) : State :=
  if !planRecValid (planRec r.data) then respond r .badValue s
  else if !layInOrder (planRec r.data).lay s.plan then respond r .order s
  else if 4096 ≤ s.plan.queue.length then respond r .queueFull s
  else
    let t := planAccept r.data s
    answer r .ok 0 (packPart [(2, t.plan.queue.length)]) t

/-- PLAN_FLUSH (R12). -/
def opFlushExec (r : Request) (s : State) : State :=
  if layOf r = 0 then respond r .badValue s
  else answer r .ok 0 (numberData (flushCount (layOf r) s)) (planFlushFrom (layOf r) s)

/-- SKIP (R13). -/
def opSkipExec (r : Request) (s : State) : State :=
  if layOf r ≠ 0 && (boundOf (layOf r) s).isSome then respond r .refusedBusy s
  else
    match skipTarget (layOf r) s with
    | none => respond r .notFound s
    | some e => answer r .ok 0 (numberData e.lay) (planRemove e s)

/-! ### MODE (R181, R182) -/

/-- R181: the entries that MODE GUARD from STANDBY asks for. -/
def coarseSeen (s : State) : Bool :=
  let l := (List.range 24).filter fun i =>
    match s.axis.index[i]?.join with
    | some e => e.role == .coarse && !axisUnreadable s i
    | none => false
  !l.isEmpty && l.all (fun i => (feedbackOf s i).seen)

/-- R181: the roles that MODE LAY asks for. -/
def rolesPresent (s : State) : Bool :=
  [Role.fineX, .fineY, .fineZ, .fineW, .feed, .saw, .glue, .shuttle, .flipper, .gripper].all
    fun r => (entryOfRole r s).isSome

/-- MODE GUARD (R181); an active condition cause brings HOLD in the same event. -/
def requestGuard (s : State) : ReplyCode × State :=
  match s.ctl.mode with
  | .standby =>
    if s.line.state == .valid && coarseSeen s then (.ok, report (setMode .guard s)) else (.refusedMode, s)
  | .guard => (.ok, s)
  | .lay => (.ok, report (setMode .guard s))
  | .hold => (.refusedMode, s)

/-- MODE LAY (R181). -/
def requestLay (s : State) : ReplyCode × State :=
  match s.ctl.mode with
  | .guard => if !s.ctl.recovery && rolesPresent s then (.ok, setMode .lay s) else (.refusedMode, s)
  | .lay => (.ok, s)
  | .standby | .hold => (.refusedMode, s)

/-- MODE STANDBY (R181). -/
def requestStandby (s : State) : ReplyCode × State := (.ok, toStandby s)

/-- MODE HOLD (R182). -/
def requestHold (s : State) : ReplyCode × State :=
  match s.ctl.mode with
  | .standby => (.refusedMode, s)
  | .guard | .lay | .hold => (.ok, raiseRequest s)

/-- HOLD is left: the event causes are emptied and the return mode becomes none (R182). -/
def leaveHold (s : State) : State := s.setCtl { s.ctl with ret := none, starved := false, request := false }

/-- RESUME (R182); without a return mode, which no run reaches, GUARD (log entry 28). -/
def requestResume (s : State) : ReplyCode × State :=
  match s.ctl.mode with
  | .hold =>
    if s.ctl.conditions.any then (.refusedMode, s)
    else (.ok, setMode (if s.ctl.ret = some .lay then .lay else .guard) (leaveHold s))
  | .standby | .guard | .lay => (.refusedMode, s)

/-- R182: GUARD is the one active condition cause. -/
def onlyGuard (c : Conditions) : Bool := c.guard && !c.tracker && !c.zoneEcc && !c.term

/-- The recovery flag is set and the recovery run starts at 0 (R117). -/
def beginRecovery (s : State) : State :=
  (s.setGuard { s.guard with run := 0 }).setCtl { s.ctl with recovery := true }

/-- RECOVER (R182). -/
def requestRecover (s : State) : ReplyCode × State :=
  match s.ctl.mode with
  | .hold =>
    if onlyGuard s.ctl.conditions then (.ok, takeCauses (setMode .guard (beginRecovery (leaveHold s))))
    else (.refusedMode, s)
  | .standby | .guard | .lay => (.refusedMode, s)

/-- The mode request of a code (section 12.2). -/
def modeRequest (code : Nat) (s : State) : ReplyCode × State :=
  match code with
  | 1 => requestGuard s
  | 2 => requestLay s
  | 3 => requestStandby s
  | 4 => requestHold s
  | 5 => requestResume s
  | _ => requestRecover s

/-- MODE (R174): the code first, then the level, then the mode controller. -/
def opModeExec (r : Request) (level : Nat) (s : State) : State :=
  let code := field r.data 0 1
  if code = 0 || 6 < code then respond r .badValue s
  else if (if code = 6 then 0 else 1) < level then respond r .refusedLevel s
  else
    match modeRequest code s with
    | (c, t) => respond r c t

/-! ### SUSPEND, RESTORE, CLEAR_FAULTS, STATION, RESTART (R109, R174, R45, R46, R175) -/

/-- Set or clear the suspended flag of a zone. -/
def setSuspended (i : Nat) (on : Bool) (s : State) : State :=
  s.setGuard { s.guard with
    suspended := if on then setInsert i s.guard.suspended else setErase i s.guard.suspended }

/-- R109 step 1: part 0 is poisoned. -/
def suspendPoisoned (r : Request) (level : Nat) (s : State) : State :=
  respond r (if 0 < level then .refusedLevel else .memoryError) s

/-- R109: SUSPEND and RESTORE. -/
def opSuspendExec (r : Request) (level : Nat) (on : Bool) (s : State) : State :=
  let i := r.index.toNat
  if 64 ≤ i then respond r .badIndex s
  else if s.guard.poisoned.contains (zonePart i 0) then suspendPoisoned r level s
  else
    match readPart (zonePart i 0) s with
    | (none, t) => suspendPoisoned r level t
    | (some p, t) =>
      let z := zoneRec p 0
      if !z.present then respond r .badIndex t
      else if z.dpl < level then respond r .refusedLevel t
      else respond r .ok (setSuspended i on t)

/-- R174: CLEAR_FAULTS. -/
def clearFaults (s : State) : State := s.setCtl { s.ctl with faults := 0, first := none }

/-- R45: STATION RETRY of a station. -/
def retry (st : Station) (s : State) : ReplyCode × State :=
  let r := s.track.station st
  match r.stall with
  | .none => (.notFound, s)
  | .timeout | .fault =>
    match r.inflight with
    | some fl => (.ok, reissueCommand st fl s)
    | none => (.ok, setStation st { r with stall := .none } s)
  | .mismatch =>
    if sensorAgrees st s then (.ok, setStation st { r with stall := .none } s) else (.refusedBusy, s)

/-- R46: STATION DISCARD of a station, answered. -/
def discardAnswer (r : Request) (st : Station) (s : State) : State :=
  match discardOf st s with
  | .nothing => answer r .notFound 0 0 s
  | .blocked => answer r .refusedBusy 0 0 s
  | .taken k => answer r .ok 0 (numberData (match k with | some t => t.lay | none => 0)) (discard st k s)

/-- STATION (R45, R46). -/
def opStationExec (r : Request) (s : State) : State :=
  match stationOfCode r.index.toNat with
  | none => respond r .badIndex s
  | some st =>
    let action := field r.data 0 1
    if action = 1 then
      match retry st s with
      | (c, t) => respond r c t
    else if action = 2 then discardAnswer r st s
    else respond r .badValue s

/-- RESTART (R175): its reply joins the kept queue after the restart. -/
def opRestartExec (r : Request) (s : State) : State := respond r .ok (restart s)

end Sys2Proof.Machine
end

