-- ==== Sys2Proof/Machine/Writes.lean ====
section
/-! DEFINITION. WRITE (chapter 10): the merge, the judgement of each table by its owner (R1, R4, R107, R108, R124, R150,
R162, R172) and the effects of an accepted WRITE; and the order in which every operation is judged (R164). -/

namespace Sys2Proof.Machine

/-! ### The merge (R167, R168) -/

/-- The mask selects every byte. -/
def fullMask (mask : Half) : Bool := mask == 0xFFFF

/-- The merged part: with a full mask the written data; otherwise the stored part as read, none when it cannot be read. -/
def readForMerge (n : Nat) (mask : Half) (data : Part) (s : State) : Option Part × State :=
  if fullMask mask then (some data, s)
  else
    match readPart n s with
    | (some d, t) => (some (mergePart d data mask), t)
    | (none, t) => (none, t)

/-- A stored part whose present bit or level the judgement needs, read unless it is marked and about to be rewritten whole (log
entry 11). -/
def readStored (n : Nat) (mask : Half) (s : State) : Option Part × State :=
  if fullMask mask && partMarked s n then (none, s) else readPart n s

/-- The merged part from the stored part as read (R167). -/
def mergeStored (r : Request) (stored : Option Part) : Option Part :=
  if fullMask r.mask then some r.data else stored.map (fun d => mergePart d r.data r.mask)

/-- Store a merged part unless the mask is zero; `effects` are those of the accepted WRITE (R167). DESIGN CHOICE (log entry 47),
unsafe: a WRITE of zero mask that passes every test has none of them, so it evaluates no term. -/
def storeMerged (r : Request) (n : Nat) (m : Part) (effects : State → State) (s : State) : State :=
  if r.mask = 0 then s else effects (storeAccepted n m s)

/-! ### ORIGIN (R162) -/

/-- The other present, readable origin entries. -/
def otherOrigins (i : Nat) (s : State) : List OriginRec :=
  ((List.range 8).filter fun j => j != i && !s.mgmt.unreadable.contains (originPart j)).map
    (fun j => originRec (peekPart s (originPart j))) |>.filter (fun o => o.present == 1)

/-- R162: a merged origin entry is valid. -/
def originValid (i : Nat) (o : OriginRec) (s : State) : Bool :=
  let others := otherOrigins i s
  if o.present = 0 then others.any (fun k => k.level == 0)
  else
    o.present == 1 && 1 ≤ o.addr && o.addr ≤ 126 && o.addr != s.ring.ownAddr.toNat &&
      others.all (fun k => k.addr != o.addr) && o.level ≤ 2 && (o.level == 0 || others.any (fun k => k.level == 0))

/-- WRITE to the ORIGIN table (R162, R164); MEMORY_ERROR stands between level and validation (log entry 48). -/
def writeOriginTable (r : Request) (level : Nat) (s : State) : State :=
  let i := r.index.toNat
  if 8 ≤ i || r.part ≠ 0 then respond r .badIndex s
  else if 0 < level then respond r .refusedLevel s
  else
    match readForMerge (originPart i) r.mask r.data s with
    | (none, t) => respond r .memoryError t
    | (some m, t) =>
      if originValid i (originRec m) t then respond r .ok (storeMerged r (originPart i) m id t)
      else respond r .badValue t

/-! ### PARAM (R172) -/

/-- The line settings differ. -/
def settingsDiffer (a b : Params) : Bool := a.rate != b.rate || a.parity != b.parity

/-- The ages differ. -/
def agesDiffer (a b : Params) : Bool := a.staleAge != b.staleAge || a.lostAge != b.lostAge

/-- What a changed part 3 does to the tracker line: settings (R86), loop test (R101), expiry instants (R96). DESIGN CHOICE (log
entry 39), unsafe: in this order, so a loop test set with an age that has passed makes the tracker LOST with detail 4. -/
def lineEffects (old : Params) (s : State) : State :=
  let t := if settingsDiffer old s.params then settingsChanged s else s
  let u :=
    if old.trkLoop == s.params.trkLoop then t
    else if s.params.trkLoop then loopSet t
    else loopCleared t
  if agesDiffer old s.params then recomputeExpiries u else u

/-- What a changed part 4 does: the newly named term is evaluated, and the cause follows it (R131). -/
def guardEffects (old : Params) (s : State) : State :=
  if old.holdTerm = s.params.holdTerm then s
  else if s.params.holdTerm < 32 then evalTerm s.params.holdTerm s
  else report s

/-- The effects of new parameter values, by part. -/
def paramEffects (p : Nat) (old : Params) (s : State) : State :=
  match p with
  | 0 => reachOpenTimes s
  | 3 => lineEffects old s
  | 4 => guardEffects old s
  | _ => s

/-- An accepted WRITE of PARAM part `p`: the clamped values come into force and their image is stored (R172). -/
def acceptParam (p : Nat) (v : Params) (s : State) : State :=
  let t := if p = 3 then loopCatchUp s else s
  paramEffects p t.params (storePart (paramPart p) (paramImage p v) (t.setParams v))

/-- The reply code: OK_CLAMPED when a stored field differs from the merged value (R86, R172). -/
def paramCode (p : Nat) (m : Part) (v : Params) : ReplyCode :=
  if m &&& usedBits (.param p) = paramImage p v then .ok else .okClamped

/-- WRITE to PARAM parts 0 to 4, its index and level judged. -/
def writeParamPart (r : Request) (p : Nat) (s : State) : State :=
  match readForMerge (paramPart p) r.mask r.data s with
  | (none, t) => respond r .memoryError t
  | (some m, t) =>
    let v := paramClamp p m t.params
    respond r (paramCode p m v) (if r.mask = 0 then t else acceptParam p v t)

/-- WRITE to the PARAM table (R172, R173). -/
def writeParamTable (r : Request) (level : Nat) (s : State) : State :=
  let p := r.part.toNat
  if p < 5 then
    if r.index ≠ 0 then respond r .badIndex s
    else if (if p = 4 then 0 else 1) < level then respond r .refusedLevel s
    else writeParamPart r p s
  else if (counterPage p r.index.toNat s).isNone then respond r .badIndex s
  else if 1 < level then respond r .refusedLevel s
  else respond r .badValue s

/-! ### AXIS (R150, R151) -/

/-- The index entries of the other present, readable entries. -/
def otherAxes (i : Nat) (s : State) : List AxisIdx :=
  (List.range 24).filterMap fun j => if j != i && !axisUnreadable s j then s.axis.index[j]?.join else none

/-- R149, R150: the parameters of a role lie in their ranges; a stroke is no less than the command of its axis. -/
def roleParamsValid (r : Role) (a b : Nat) (c : Quad Int) : Bool :=
  match r with
  | .coarse => 1 ≤ a && a ≤ 2147483647 && 1 ≤ b && b ≤ a
  | .fineX => a ≤ 200000 && 10 ≤ b && b ≤ 20000 && decide (c.x.natAbs ≤ a)
  | .fineY => a ≤ 200000 && 10 ≤ b && b ≤ 20000 && decide (c.y.natAbs ≤ a)
  | .fineZ => a ≤ 200000 && 10 ≤ b && b ≤ 20000 && decide (c.z.natAbs ≤ a)
  | .fineW => a ≤ 1500 && 1 ≤ b && b ≤ 200 && decide (c.w.natAbs ≤ a)
  | .feed | .saw | .glue | .shuttle | .flipper | .gripper => 100 ≤ a && a ≤ 60000
  | .sensor => true

/-- R150: the role is free for one more entry. -/
def roleFree (r : Role) (others : List AxisIdx) : Bool :=
  match r with
  | .sensor => true
  | .coarse => (others.filter (fun e => e.role == .coarse)).length ≤ 7
  | _ => others.all (fun e => e.role != r)

/-- R150: a merged axis entry is valid together with the others. -/
def axisValid (i : Nat) (e : AxisRec) (s : State) : Bool :=
  if e.present = 0 then true
  else
    match roleOfCode e.role with
    | none => false
    | some role =>
      let others := otherAxes i s
      e.present == 1 && 1 ≤ e.addr && e.addr ≤ 126 && e.addr != s.ring.ownAddr.toNat &&
        others.all (fun o => o.addr.toNat != e.addr) && roleFree role others && roleParamsValid role e.a e.b s.stab.c

/-- What the address index holds for a merged entry (R152). -/
def indexOf (e : AxisRec) : Option AxisIdx :=
  if e.present = 1 then (roleOfCode e.role).map (fun r => { addr := BitVec.ofNat 8 e.addr, role := r }) else none

/-- R152: unreadable entries of the same node address leave the address index. -/
def dropUnreadable (i : Nat) (a : Byte) (s : State) : Vector (Option AxisIdx) 24 :=
  Vector.ofFn fun j : Fin 24 =>
    match s.axis.index[j] with
    | some e => if j.val != i && axisUnreadable s j.val && e.addr == a then none else some e
    | none => none

/-- The address index after an accepted WRITE of entry `i` (R152). -/
def newIndex (i : Nat) (e : AxisRec) (s : State) : Vector (Option AxisIdx) 24 :=
  match indexOf e with
  | some x => (dropUnreadable i x.addr s).setIfInBounds i (some x)
  | none => s.axis.index.setIfInBounds i none

/-- R151: an accepted WRITE of entry `i`: index, feedback and last forwarded position, then the terms that name it. DESIGN CHOICE
(log entry 40), unsafe: what changed is judged against the address index, also for an entry that is unreadable or has left the
index, and the feedback that becomes never-seen loses its values and its stamp, as after a reset (R161). -/
def axisAccepted (i : Nat) (e : AxisRec) (s : State) : State :=
  let a := { s.axis with index := newIndex i e s }
  let t :=
    if s.axis.index[i]?.join = indexOf e then s.setAxis a
    else
      s.setAxis { a with
        feedback := a.feedback.setIfInBounds i Feedback.initial, lastFwd := a.lastFwd.setIfInBounds i none }
  evalTerms (termsNaming i t) t

/-- WRITE to the AXIS table (R151). DESIGN CHOICE (log entry 48), unsafe: the MEMORY_ERROR of R152 and R168 comes after the level,
the mode and the index and before the validation. -/
def writeAxisTable (r : Request) (level : Nat) (s : State) : State :=
  let i := r.index.toNat
  if 1 < level then respond r .refusedLevel s
  else if s.ctl.mode ≠ .standby then respond r .refusedMode s
  else if 24 ≤ i || r.part ≠ 0 then respond r .badIndex s
  else
    match readForMerge (axisPart i) r.mask r.data s with
    | (none, t) => respond r .memoryError t
    | (some m, t) =>
      if axisValid i (axisRec m) t then
        respond r .ok (storeMerged r (axisPart i) m (axisAccepted i (axisRec m)) t)
      else respond r .badValue t

/-! ### TERM (R124) -/

/-- R124: a merged term record is valid. -/
def termValid (t : TermRec) : Bool :=
  t.present ≤ 1 && t.unknownAs ≤ 1 && t.kind ≤ 2 && t.cond ≤ 13 && (t.kind == 2 || t.axis ≤ 23) &&
    (t.kind != 1 || t.aux ≤ 3)

/-- R124: the level meets the DPL of every zone that names the term, part 0 of each zone being read, by rising index (log entry
45); a zone whose part 0 is poisoned counts as naming every term with DPL 0. -/
def termLevelOk (term level : Nat) : List Nat → State → Bool × State
  | [], s => (true, s)
  | i :: is, s =>
    match readPart (zonePart i 0) s with
    | (p, t) =>
      match termLevelOk term level is t with
      | (ok, u) =>
        match p with
        | none => (ok && level == 0, u)
        | some d =>
          let z := zoneRec d 0
          (ok && (!z.present || z.term != term || level ≤ z.dpl), u)

/-- WRITE to the TERM table (R124). DESIGN CHOICE (log entry 48), unsafe: the level tests come before the MEMORY_ERROR of R168. -/
def writeTermTable (r : Request) (level : Nat) (s : State) : State :=
  let i := r.index.toNat
  if 32 ≤ i || r.part ≠ 0 then respond r .badIndex s
  else if 1 < level then respond r .refusedLevel s
  else
    match termLevelOk i level (List.range 64) s with
    | (false, t) => respond r .refusedLevel t
    | (true, t) =>
      match readForMerge (termPart i) r.mask r.data t with
      | (none, u) => respond r .memoryError u
      | (some m, u) =>
        if termValid (termRec m) then respond r .ok (storeMerged r (termPart i) m (evalTerm i) u)
        else respond r .badValue u

/-! ### ZONE (R107, R108, R120) -/

/-- R107: what is known of the stored descriptor: present, and its DPL; poisoned counts as present with DPL 0. -/
def storedLevel (p : Option Part) : Bool × Nat :=
  match p with
  | some d => ((zoneRec d 0).present, (zoneRec d 0).dpl)
  | none => (true, 0)

/-- R107: the existing-DPL test. -/
def existingOk (level : Nat) (p : Option Part) : Bool := !(storedLevel p).1 || level ≤ (storedLevel p).2

/-- R108: the fields of a merged part 0 are valid. -/
def zoneFieldsValid (d : Part) : Bool :=
  let z := zoneRec d 0
  z.dpl ≤ 2 && (z.term ≤ 31 || z.term == 255) && z.type ≤ 4 && (!z.present || z.type != 0)

/-- The merged part 0 of a WRITE: the written one, or the stored one when part 1 is written; none when poisoned. -/
def mergedZero (part1 : Bool) (m : Part) (p0 : Option Part) : Option Part := if part1 then p0 else some m

/-- R108: validation; with part 0 poisoned, of the written part's fields alone (R120). -/
def zoneValid (d : Option Part) : Bool :=
  match d with
  | some p => zoneFieldsValid p
  | none => true

/-- R107: the new-DPL test; the DPL of a poisoned part 0 is taken as 0 (log entry 31). -/
def newOk (level : Nat) (d : Option Part) : Bool := level ≤ (storedLevel d).2

/-- Part 0 as stored; a WRITE of part 1 rewrites no byte of it. -/
def readZero (r : Request) (s : State) : Option Part × State :=
  readStored (zonePart r.index.toNat 0) (if r.part = 0 then r.mask else 0) s

/-- The written part merged; part 0 has been read already (R167). -/
def zoneMerged (r : Request) (p0 : Option Part) (s : State) : Option Part × State :=
  if r.part = 0 then
    (mergeStored r p0, (readPart (zonePart r.index.toNat 1) s).2)
  else readForMerge (zonePart r.index.toNat 1) r.mask r.data s

/-- WRITE to a zone part whose existing-DPL test passes. -/
def writeZoneMerged (r : Request) (level : Nat) (p0 : Option Part) (s : State) : State :=
  match zoneMerged r p0 s with
  | (none, t) => respond r .memoryError t
  | (some m, t) =>
    let d := mergedZero (r.part = 1) m p0
    if !zoneValid d then respond r .badValue t
    else if !newOk level d then respond r .refusedLevel t
    else respond r .ok (storeMerged r (zonePart r.index.toNat r.part.toNat) m report t)

/-- WRITE to the ZONE table (R108). DESIGN CHOICE (log entry 41), unsafe: the existing-DPL test comes first, so a requester that
fails it gets REFUSED_LEVEL also where a poisoned part would give MEMORY_ERROR (R120, R168). -/
def writeZoneTable (r : Request) (level : Nat) (s : State) : State :=
  if 64 ≤ r.index.toNat || 2 ≤ r.part.toNat then respond r .badIndex s
  else
    match readZero r s with
    | (p0, t) => if existingOk level p0 then writeZoneMerged r level p0 t else respond r .refusedLevel t

/-! ### COURSE (R1, R4, R5) -/

/-- R1: the fields of a course's part 0 are valid: only the interlock term can be out of range. -/
def courseFieldsValid (d : Part) : Bool := field d 1 1 ≤ 31 || field d 1 1 == 255

/-- R1: validation of the merged descriptor; with part 0 unreadable, of the written part alone. -/
def courseValid (part1 : Bool) (m : Part) (other : Option Part) : Bool :=
  match if part1 then other else some m with
  | some d => courseFieldsValid d
  | none => true

/-- The mask bits of the bytes that R4 protects: flags, origin and extents (section 12.3). -/
def protectedBytes (part : Nat) : Half := if part = 0 then 0xFFF1 else 0x00FF

/-- R4, R5: the course is busy for this mask. -/
def courseBusy (r : Request) (stored0 : Option Part) (s : State) : Bool :=
  let c := r.index.toNat
  decide (0 < refCount s c) && (r.mask &&& protectedBytes r.part.toNat) != 0 &&
    (courseUnreadable s c || match stored0 with | some d => d.getLsbD 0 | none => true)

/-- WRITE to a course part after the read of both parts: with a partial mask an unreadable descriptor, whichever of its parts is
in error, has no good bytes to merge (R5). -/
def writeCourseMerged (r : Request) (m : Option Part) (other stored0 : Option Part) (s : State) : State :=
  match m with
  | none => respond r .memoryError s
  | some d =>
    if !fullMask r.mask && courseUnreadable s r.index.toNat then respond r .memoryError s
    else if !courseValid (r.part = 1) d other then respond r .badValue s
    else if courseBusy r stored0 s then respond r .refusedBusy s
    else respond r .ok (storeMerged r (coursePart r.index.toNat r.part.toNat) d id s)

/-- WRITE to the COURSE table (R1, R4); MEMORY_ERROR stands between level and validation (log entry 48). DESIGN CHOICE (log entry
11), unsafe: a part 1 rewritten whole is not read before that, whereas a part 0 rewritten whole is, unless it is marked. -/
def writeCourseTable (r : Request) (level : Nat) (s : State) : State :=
  let c := r.index.toNat
  let p := r.part.toNat
  if 256 ≤ c || 2 ≤ p then respond r .badIndex s
  else if 1 < level then respond r .refusedLevel s
  else if p = 0 then
    match readStored (coursePart c 0) r.mask s with
    | (p0, t) =>
      match readPart (coursePart c 1) t with
      | (other, u) => writeCourseMerged r (mergeStored r p0) other p0 u
  else
    match readForMerge (coursePart c 1) r.mask r.data s with
    | (m, t) =>
      match readPart (coursePart c 0) t with
      | (p0, u) => writeCourseMerged r m p0 p0 u

/-! ### The order of judgement (R164, R165) -/

/-- WRITE, by table. -/
def opWriteExec (r : Request) (level : Nat) (s : State) : State :=
  match r.table.toNat with
  | 1 => writeOriginTable r level s
  | 2 => writeParamTable r level s
  | 3 => writeAxisTable r level s
  | 4 => writeTermTable r level s
  | 5 => writeZoneTable r level s
  | _ => writeCourseTable r level s

/-- R165: the table code names a table the operation applies to. -/
def tableOk (op : Byte) (table : Nat) : Bool :=
  if op = opRead then 1 ≤ table && table ≤ 7
  else if op = opWrite then 1 ≤ table && table ≤ 6
  else if op = opProbe then table == 5 || table == 6
  else if op = opScan then table == 1 || (3 ≤ table && table ≤ 6)
  else true

/-- R165: the minimum level of an operation; those without one of their own, and MODE, take 2 here. -/
def minimumLevel (op : Byte) : Nat :=
  if op = opPlanAppend || op = opPlanFlush || op = opSkip || op = opClearFaults || op = opStation || op = opRestart then 1
  else if op = opReset then 0
  else 2

/-- Step 7 of R164: the operation's own tests and its execution. -/
def perform (r : Request) (level : Nat) (s : State) : State :=
  if r.op = opRead then opReadExec r s
  else if r.op = opWrite then opWriteExec r level s
  else if r.op = opProbe then opProbeExec r level s
  else if r.op = opScan then opScanExec r s
  else if r.op = opPlanAppend then opAppendExec r s
  else if r.op = opPlanFlush then opFlushExec r s
  else if r.op = opSkip then opSkipExec r s
  else if r.op = opMode then opModeExec r level s
  else if r.op = opSuspend then opSuspendExec r level true s
  else if r.op = opRestore then opSuspendExec r level false s
  else if r.op = opClearFaults then respond r .ok (clearFaults s)
  else if r.op = opStation then opStationExec r s
  else if r.op = opRestart then opRestartExec r s
  else ringReset s

/-- The operation code is one the part knows (section 12.2). -/
def knownOp (op : Byte) : Bool := 1 ≤ op.toNat && op.toNat ≤ 14

/-- Steps 3 to 7 of R164 for a request of an origin of level `origin`. -/
def judgeRequest (r : Request) (origin : Nat) (s : State) : State :=
  if 2 < r.level.toNat then respond r .badValue s
  else if !knownOp r.op then respond r .unknownOp s
  else if !tableOk r.op r.table.toNat then respond r .badTable s
  else if minimumLevel r.op < max origin r.level.toNat then respond r .refusedLevel s
  else perform r (max origin r.level.toNat) s

/-- Step 1 of R164: the reply queue has room (R166). -/
def hasRoom (r : Request) (s : State) : Bool := decide (s.mgmt.replies.length + replyCount r.op ≤ 16)

/-- A consumed MGT cell's operation (R164). -/
def manage (r : Request) (s : State) : State :=
  if hasRoom r s then
    match originLevel r.src s with
    | (none, t) => respond r .refusedLevel t
    | (some l, t) => judgeRequest r l t
  else s.setMgmt { s.mgmt with dropped := bump s.mgmt.dropped }

end Sys2Proof.Machine
end

