-- ==== Sys2Proof/Machine/Ports.lean ====
section
/-! DEFINITION. The ring ports (chapter 8): receiving a cell, the sync state, forwarding, consuming, appending the part's
own cells, and transmission. -/

namespace Sys2Proof.Machine

/-! ### The receiving side (R134, R135) -/

/-- The receiving side of a port. -/
def Ring.rx (r : Ring) : Port → PortRx
  | .up => r.up
  | .down => r.down

/-- Replace the receiving side of a port. -/
def Ring.setRx (r : Ring) (p : Port) (x : PortRx) : Ring :=
  match p with
  | .up => { r with up := x }
  | .down => { r with down := x }

/-- The transmitting side of a port. -/
def Ring.tx (r : Ring) : Port → PortTx
  | .up => r.txUp
  | .down => r.txDown

/-- Replace the transmitting side of a port. -/
def Ring.setTx (r : Ring) (p : Port) (x : PortTx) : Ring :=
  match p with
  | .up => { r with txUp := x }
  | .down => { r with txDown := x }

/-- A SYNCED port becomes HUNTING (R135). -/
def PortRx.loseSync (x : PortRx) : PortRx := { x with sync := .hunting, losses := bump x.losses, goodRun := 0 }

/-- The sync state after a good cell (R135). -/
def PortRx.afterGood (x : PortRx) : PortRx :=
  match x.sync with
  | .synced => { x with badRun := 0 }
  | .hunting =>
    if x.goodRun < 7 then { x with goodRun := x.goodRun + 1 } else { x with sync := .synced, badRun := 0 }

/-- The sync state after a bad cell (R135). -/
def PortRx.afterBad (x : PortRx) : PortRx :=
  match x.sync with
  | .synced => if x.badRun < 3 then { x with badRun := x.badRun + 1 } else x.loseSync
  | .hunting => { x with goodRun := 0 }

/-- A cell is received: its count, the sync state, and the line-activity timer restarted (R134, R135). -/
def PortRx.receive (x : PortRx) (good : Bool) (now : Word) : PortRx :=
  let y := { x with activity := some now }
  if good then { y.afterGood with good := bump x.good } else { y.afterBad with bad := bump x.bad }

/-- The cell passes: the port was SYNCED and is SYNCED after it (R134, R135). -/
def PortRx.passes (x : PortRx) (good : Bool) : Bool := x.sync == .synced && (good || decide (x.badRun < 3))

/-- No cell has begun at the port for 1 ms (R135). -/
def activityIsDue (x : PortRx) (now : Word) : Bool :=
  match x.activity with
  | some t => decide (1000 ≤ elapsed now t)
  | none => false

/-- R135: the line-activity timer runs out. -/
def PortRx.silent (x : PortRx) : PortRx :=
  match x.sync with
  | .synced => { x.loseSync with activity := none }
  | .hunting => { x with activity := none }

/-- The expiry of a port's line-activity timer, if it is reached. -/
def reachActivity (p : Port) (s : State) : State :=
  if activityIsDue (s.ring.rx p) s.clock.us then s.setRing (s.ring.setRx p (s.ring.rx p).silent) else s

/-! ### The transmitting side (R136) -/

/-- The port that a cell received at a port leaves by. -/
def otherPort : Port → Port
  | .up => .down
  | .down => .up

/-- A cell joins a transmit queue; at a full queue it is dropped and counted (R136). -/
def enqueue (p : Port) (c : Cell) (s : State) : State :=
  let x := s.ring.tx p
  if x.queue.length < 64 then s.setRing (s.ring.setTx p { x with queue := x.queue ++ [c] })
  else s.setRing { s.ring with overflows := bump s.ring.overflows }

/-- A received FILL cell joins an empty queue and is otherwise absorbed (R136). -/
def enqueueFill (p : Port) (c : Cell) (s : State) : State :=
  if (s.ring.tx p).queue.isEmpty then enqueue p c s else s

/-- R137: a bad cell that passes is replaced by a VOID cell. -/
def enqueueVoid (p : Port) (s : State) : State :=
  enqueue p voidCell (s.setRing { s.ring with void := bump s.ring.void })

/-- R136: a transmit side sends the cell at the head of its queue, or its own FILL cell. -/
def transmit (p : Port) (s : State) : State :=
  let x := s.ring.tx p
  match x.queue with
  | [] => s.setRing (s.ring.setTx p { x with line := some (fillCell s.ring.ownAddr) })
  | c :: cs => s.setRing (s.ring.setTx p { queue := cs, line := some c })

/-! ### The part's own cells (R143, R145, R189) -/

/-- The STAT cell of the state as it stands (R189). -/
def statCell (s : State) : Cell := goodCell broadcast s.ring.ownAddr kindStat 0 (statPayload s)

/-- The REPLY cell of a reply. -/
def replyCell (own : Byte) (r : Reply) : Cell := goodCell r.dst own kindReply 0 (replyPayload r)

/-- The ASLAID cell of a record. -/
def asLaidCell (own : Byte) (r : AsLaid) : Cell := goodCell broadcast own kindAslaid 0 (asLaidPayload r)

/-- Cells join a transmit queue in turn. -/
def enqueueAll (p : Port) (l : List Cell) (s : State) : State := l.foldl (fun t c => enqueue p c t) s

/-- The cells inserted before a return END: one STAT, up to four REPLY, up to two ASLAID (R143). -/
def ownCells (s : State) : List Cell :=
  statCell s :: ((s.mgmt.replies.take 4).map (replyCell s.ring.ownAddr) ++
    (s.lay.asLaid.take 2).map (asLaidCell s.ring.ownAddr))

/-- R143: the append opportunity is taken; replies and records leave their queues as their cells are inserted. -/
def appendOwn (s : State) : State :=
  if s.ring.append then
    let t := enqueueAll .up (ownCells s) s
    let u := t.setMgmt { t.mgmt with replies := t.mgmt.replies.drop 4 }
    let v := u.setLay { u.lay with asLaid := u.lay.asLaid.drop 2 }
    v.setRing { v.ring with append := false }
  else s

/-! ### Reading by kind (R138, R142) -/

/-- An MGT cell that the part consumes at the UP port (R139). -/
def consumed (c : Cell) (s : State) : Bool := s.ring.ownAddr != 0 && c.dst == s.ring.ownAddr

/-- A conditioned cell that finds the DOWN queue full is not forwarded (R136), so the last forwarded positions stay as `s`
holds them (R157). -/
def keepUnsent (s t : State) : State :=
  if (t.ring.tx .down).queue.length < 64 then t else t.setAxis { t.axis with lastFwd := s.axis.lastFwd }

/-- A SET cell is conditioned and joins the DOWN queue with its content (R138). -/
def passSet (c : Cell) (s : State) : State :=
  match conditionSet c s with
  | (d, t) => enqueue .down d (keepUnsent s t)

/-- The cycle number and the period of a TRAIN cell start an outbound TRAIN arrival (R140, R192). -/
def passTrain (c : Cell) (s : State) : State :=
  enqueue .down c (if isReturn c then s else outboundTrain (pword c 0) (phalf c 4) s)

/-- A good cell that passes at the UP port (R138). -/
def passUp (c : Cell) (s : State) : State :=
  if c.kind = kindTrain then passTrain c s
  else if c.kind = kindSet then passSet c s
  else if c.kind = kindMgt then (if consumed c s then manage (requestOf c) s else enqueue .down c s)
  else if c.kind = kindEnd then enqueue .down c (outboundEnd s)
  else if c.kind = kindFill then enqueueFill .down c s
  else enqueue .down c s

/-- A good cell that passes at the DOWN port (R142). -/
def passDown (c : Cell) (s : State) : State :=
  if c.kind = kindFbk then enqueue .up c (captureCell c s)
  else if c.kind = kindEnd then enqueue .up c (appendOwn s)
  else if c.kind = kindFill then enqueueFill .up c s
  else enqueue .up c s

/-- A good cell that passes at a port. -/
def passGood (p : Port) (c : Cell) (s : State) : State :=
  match p with
  | .up => passUp c s
  | .down => passDown c s

/-- A whole cell arrives at a port (R134): counted, judged by the sync state, and passed or dropped. -/
def receive (p : Port) (c : Cell) (s : State) : State :=
  let x := s.ring.rx p
  let good := isGood c
  let t := s.setRing (s.ring.setRx p (x.receive good s.clock.us))
  if x.passes good then (if good then passGood p c t else enqueueVoid (otherPort p) t) else t

end Sys2Proof.Machine
end

