-- ==== Sys2Proof/Machine/Timers.lean ====
section
/-! DEFINITION. Time: every expiry that the present instant has reached, and the microsecond that passes when no command
waits (log entries 2, 30). -/

namespace Sys2Proof.Machine

/-- The break of a line that a power-on reset found at space is detected when it falls due (R104, log entry 21). -/
def reachBreak (s : State) : State :=
  match s.line.breakDue with
  | some t => if reached s.clock.us t then detectBreak (s.setLine { s.line with breakDue := none }) else s
  | none => s

/-- Every station's command timer. -/
def reachStations (s : State) : State := allStations.foldl (fun t st => reachStation st t) s

/-- Every expiry that the present instant has reached, in the order of log entry 2. -/
def runDue (s : State) : State :=
  let ports := reachWatchdog (reachActivity .down (reachActivity .up s))
  let track := reachSettle (reachOpenTimes (reachStations ports))
  let line := reachBreak (reachLost (reachStale track))
  reachReacquire (reachSent (loopCatchUp line))

/-- One microsecond passes on the time bases (00_scope 4.4). -/
def Clock.next (c : Clock) : Clock :=
  if c.sub < 999 then { c with us := c.us + 1, sub := c.sub + 1 } else { us := c.us + 1, ms := c.ms + 1, sub := 0 }

/-- The part with no command waiting: what is due comes about, and a microsecond passes (log entry 2). -/
def tick (s : State) : State :=
  let t := runDue s
  t.setClock t.clock.next

end Sys2Proof.Machine
end

