-- ==== Sys2Proof/Machine/RingCommands.lean ====
section
/-! DEFINITION. The commands of the resets, the ring ports, the setpoint cells and the feedback cells. A row whose cell the
table names builds that cell and is received like any other (log entry 1). -/

namespace Sys2Proof.Machine

/-- The outcome of a command. -/
abbrev Result := Host.Outcome State Fault Refusal

/-- POWER_ON_RESET (R190); the queue of waiting commands is outside the part. -/
def execPowerOnReset (ra oa : BitVec 7) (ready rxdSpace : Bool) (s : State) : Result :=
  .next (poweredOn ra oa ready rxdSpace s.pending)

/-- CELL_RECEIVE (R134). -/
def execCellReceive (p : Port) (c : Cell) (s : State) : Result := .next (receive p c s)

/-- LINE_ACTIVITY_TIMEOUT (R135). -/
def execLineActivityTimeout (p : Port) (s : State) : Result := .next (reachActivity p s)

/-- CELL_TRANSMIT (R136). -/
def execCellTransmit (p : Port) (s : State) : Result := .next (transmit p s)

/-- OUTBOUND_TRAIN_ARRIVAL (R140): a good TRAIN cell at the UP port. -/
def execOutboundTrainArrival (dst src flags : Byte) (cycle : Word) (period : Half) (rest : BitVec 144) (s : State) : Result :=
  .next (receive .up (goodCell dst src kindTrain flags (trainPayload cycle period rest)) s)

/-- OUTBOUND_END_ARRIVAL (R141): a good END cell at the UP port. -/
def execOutboundEndArrival (dst src flags : Byte) (payload : BitVec 192) (s : State) : Result :=
  .next (receive .up (goodCell dst src kindEnd flags payload) s)

/-- COARSE_SET (R157): a drive SET cell at the UP port with the CRC it carries. -/
def execCoarseSet (dst src flags : Byte) (position velocity : Word) (setFlags : Byte) (rest : BitVec 120) (crc : Word)
    (s : State) : Result :=
  .next (receive .up
    { dst := dst, src := src, kind := kindSet, flags := flags, payload := setPayload position velocity setFlags rest,
      crc := crc } s)

/-- FINE_SET (R158): a SET cell for a fine drive at the UP port, of a cycle whose TRAIN cell was received or was not. DESIGN CHOICE
(log entry 35), unsafe: the command says which, since no rule says how the part tells. -/
def execFineSet (dst src flags : Byte) (body : FineBody) (crc : Word) (s : State) : Result :=
  .next (receive .up { dst := dst, src := src, kind := kindSet, flags := flags, payload := body.payload, crc := crc }
    (noteCycle body.trainSeen s))

/-- STATION_SET (R159): a SET cell for a station at the UP port. -/
def execStationSet (dst src flags : Byte) (payload : BitVec 192) (crc : Word) (s : State) : Result :=
  .next (receive .up { dst := dst, src := src, kind := kindSet, flags := flags, payload := payload, crc := crc } s)

/-- FBK_CAPTURE (R154): a good FBK cell at the DOWN port. -/
def execFbkCapture (dst src flags : Byte) (actual : Word) (status aux0 aux1 aux2 aux3 : Half) (rest : BitVec 80)
    (s : State) : Result :=
  .next (receive .down (goodCell dst src kindFbk flags (fbkPayload actual status aux0 aux1 aux2 aux3 rest)) s)

/-- The FBK cell of a station that reports DONE with an echo, its sensor and its measured value (R28, R192). -/
def doneCell (src echo : Byte) (brick : Bool) (measured : Word) : Cell :=
  goodCell broadcast src kindFbk 0 (fbkPayload measured (doneStatus brick) (echo.zeroExtend 16) 0 0 0 0)

/-- A station's DONE report arrives at the DOWN port. -/
def reportDone (src echo : Byte) (brick : Bool) (measured : Word) (s : State) : Result :=
  .next (receive .down (doneCell src echo brick measured) s)

/-- FEED_ONE_DONE (R32). -/
def execFeedOneDone (src echo : Byte) (brick : Bool) (measured : Word) (s : State) : Result :=
  reportDone src echo brick measured s

/-- CUT_DONE (R33). -/
def execCutDone (src echo : Byte) (brick : Bool) (measured : Word) (s : State) : Result :=
  reportDone src echo brick measured s

/-- EJECT_DONE (R34). -/
def execEjectDone (src echo : Byte) (brick : Bool) (measured : Word) (s : State) : Result :=
  reportDone src echo brick measured s

/-- GLUE_DONE (R35). -/
def execGlueDone (src echo : Byte) (brick : Bool) (measured : Word) (s : State) : Result :=
  reportDone src echo brick measured s

/-- LOAD_DONE (R36). -/
def execLoadDone (src echo : Byte) (brick : Bool) (measured : Word) (s : State) : Result :=
  reportDone src echo brick measured s

/-- DELIVER_DONE (R36). -/
def execDeliverDone (src echo : Byte) (brick : Bool) (measured : Word) (s : State) : Result :=
  reportDone src echo brick measured s

/-- HANDOVER_DONE (R37). -/
def execHandoverDone (src echo : Byte) (brick : Bool) (measured : Word) (s : State) : Result :=
  reportDone src echo brick measured s

/-- DROP_DONE (R38). -/
def execDropDone (src echo : Byte) (brick : Bool) (measured : Word) (s : State) : Result :=
  reportDone src echo brick measured s

/-- OPEN_DONE (R39, R59). -/
def execOpenDone (src echo : Byte) (brick : Bool) (measured : Word) (s : State) : Result :=
  reportDone src echo brick measured s

/-- RETURN_END_ARRIVAL (R143): a good END cell at the DOWN port. -/
def execReturnEndArrival (dst src flags : Byte) (payload : BitVec 192) (s : State) : Result :=
  .next (receive .down (goodCell dst src kindEnd flags payload) s)

end Sys2Proof.Machine
end

