-- ==== Sys2Proof/Machine/LineCommands.lean ====
section
/-! DEFINITION. The commands of the expiries, the tracker line and the errors of table memory. An expiry that its own timer
has not reached comes to nothing (log entry 30). -/

namespace Sys2Proof.Machine

/-- TRAIN_WATCHDOG_EXPIRY (R146). -/
def execTrainWatchdogExpiry (s : State) : Result := .next (reachWatchdog s)

/-- STATION_TIMEOUT (R30). -/
def execStationTimeout (st : Station) (s : State) : Result := .next (reachStation st s)

/-- OPEN_TIME_EXPIRY (R40). -/
def execOpenTimeExpiry (ticket : Half) (s : State) : Result := .next (reachOpenTimeNumbered ticket s)

/-- PLACE_TIMEOUT (R55). -/
def execPlaceTimeout (s : State) : Result := .next (reachSettle s)

/-- CHARACTER_RECEIVE (R87). -/
def execCharacterReceive (data : Byte) (parity stop : Bool) (s : State) : Result :=
  .next (receiveCharacter data parity stop s)

/-- SAMPLE_FRAME_COMPLETE (R90): the 24 characters of a sample frame. -/
def execSampleFrameComplete (seq latency : Half) (x y z : Word) (yaw : Half) (quality status : Byte) (crc : Half)
    (badParity : Bool) (s : State) : Result :=
  .next (receiveFrame (0xB6#8 :: 20#8 :: (sampleBody seq latency x y z yaw quality status ++ bytes16 crc)) badParity s)

/-- LOOP_FRAME (R101): the rest of the frame being sent reaches the looped receiver. -/
def execLoopFrame (noise : Half) (badParity : Bool) (s : State) : Result := .next (loopFeed 16 noise badParity s)

/-- BREAK (R88). -/
def execLineBreak (s : State) : Result := .next (detectBreak s)

/-- BREAK_END (R88). -/
def execLineBreakEnd (s : State) : Result := .next (endBreak s)

/-- TRK_READY_CHANGE (R98). -/
def execTrkReadyChange (active : Bool) (s : State) : Result := .next (setReady active s)

/-- STALE_EXPIRY (R96). -/
def execStaleExpiry (s : State) : Result := .next (reachStale s)

/-- LOST_EXPIRY (R96). -/
def execLostExpiry (s : State) : Result := .next (reachLost s)

/-- REACQUIRE_DUE (R99). -/
def execReacquireDue (s : State) : Result := .next (reachReacquire s)

/-- REACQUIRE_SENT (R99, R100). -/
def execReacquireSent (s : State) : Result := .next (reachSent s)

/-- The number of a bit of table memory (log entry 8). -/
def bitNumber (part word bit : Nat) : Nat := (2 * part + word) * 72 + bit

/-- Flip one bit of table memory, and a second one of the same word if given. -/
def flipBits (part word bit : Nat) (second : Option Nat) (s : State) : State :=
  let one := setToggle (bitNumber part word bit) s.mem.flips
  s.setMem { s.mem with
    flips := match second with
      | some b => setToggle (bitNumber part word b) one
      | none => one }

/-- The named bits exist (section 10.8). -/
def bitsExist (part word bit : Nat) (second : Option Nat) : Bool :=
  part < partCount && word < 2 && bit < 72 &&
    match second with
    | some b => b < 72
    | none => true

/-- TABLE_MEMORY_ERROR (R177): bits of a word flip; nothing acts on them before a read of the part. -/
def execTableMemoryError (part word bit : Nat) (second : Option Nat) (s : State) : Result :=
  if bitsExist part word bit second then .next (flipBits part word bit second s) else .fault .noSuchBit

end Sys2Proof.Machine
end

