-- ==== Sys2Proof/Machine/TableCommands.lean ====
section
/-! DEFINITION. The management operations on tables, as MGT cells addressed to the part at the UP port (R139). -/

namespace Sys2Proof.Machine

/-- The MGT cell of an operation, addressed to the part (section 12.2). -/
def mgtCell (own : Byte) (who : Sender) (op selector : Byte) (index mask : Half) (data : Part) : Cell :=
  goodCell own who.src kindMgt 0 (mgtPayload op who.tag who.level selector index mask data)

/-- An operation arrives at the UP port. -/
def operate (who : Sender) (op selector : Byte) (index mask : Half) (data : Part) (s : State) : Result :=
  .next (receive .up (mgtCell s.ring.ownAddr who op selector index mask data) s)

/-- The byte 7 of a WRITE to PARAM part 3 (section 12.2). -/
def paramLine : Byte := selectorOf 2 3

/-- READ (R169). -/
def execRead (who : Sender) (table : BitVec 4) (part : BitVec 3) (index : Half) (s : State) : Result :=
  operate who opRead (selectorOf table part) index 0 0 s

/-- WRITE to a table without a row of its own (R165). -/
def execWrite (who : Sender) (table : BitVec 4) (part : BitVec 3) (index mask : Half) (data : Part) (s : State) : Result :=
  operate who opWrite (selectorOf table part) index mask data s

/-- WRITE_ORIGIN (R162). -/
def execWriteOrigin (who : Sender) (part : BitVec 3) (index mask : Half) (data : Part) (s : State) : Result :=
  operate who opWrite (selectorOf 1 part) index mask data s

/-- WRITE_PARAM (R172). -/
def execWriteParam (who : Sender) (part : BitVec 3) (index mask : Half) (data : Part) (s : State) : Result :=
  operate who opWrite (selectorOf 2 part) index mask data s

/-- APPLY (R86): byte 2 is written with the apply flag set. -/
def execApplySettings (who : Sender) (index mask : Half) (data : Part) (s : State) : Result :=
  operate who opWrite paramLine index (mask ||| 4) (data ||| 0x10000) s

/-- TRK_LOOP_SET (R101): byte 2 is written with TRK_LOOP set. -/
def execTrkLoopSet (who : Sender) (index mask : Half) (data : Part) (s : State) : Result :=
  operate who opWrite paramLine index (mask ||| 4) (data ||| 0x20000) s

/-- TRK_LOOP_CLEAR (R101): byte 2 is written with TRK_LOOP clear. -/
def execTrkLoopClear (who : Sender) (index mask : Half) (data : Part) (s : State) : Result :=
  operate who opWrite paramLine index (mask ||| 4) (data &&& ~~~0x20000#128) s

/-- WRITE_AXIS (R151). -/
def execWriteAxis (who : Sender) (part : BitVec 3) (index mask : Half) (data : Part) (s : State) : Result :=
  operate who opWrite (selectorOf 3 part) index mask data s

/-- WRITE_TERM (R124). -/
def execWriteTerm (who : Sender) (part : BitVec 3) (index mask : Half) (data : Part) (s : State) : Result :=
  operate who opWrite (selectorOf 4 part) index mask data s

/-- WRITE_ZONE (R108). -/
def execWriteZone (who : Sender) (part : BitVec 3) (index mask : Half) (data : Part) (s : State) : Result :=
  operate who opWrite (selectorOf 5 part) index mask data s

/-- WRITE_COURSE (R1). -/
def execWriteCourse (who : Sender) (part : BitVec 3) (index mask : Half) (data : Part) (s : State) : Result :=
  operate who opWrite (selectorOf 6 part) index mask data s

/-- PROBE (R170). -/
def execProbe (who : Sender) (table : BitVec 4) (index : Half) (s : State) : Result :=
  operate who opProbe (selectorOf table 0) index 0 0 s

/-- The data bytes of a SCAN (section 12.2). -/
def scanData (count : Half) (dir stop : Byte) : Part := packPart [(2, count.toNat), (1, dir.toNat), (1, stop.toNat)]

/-- SCAN (R171). -/
def execScan (who : Sender) (table : BitVec 4) (index count : Half) (dir stop : Byte) (s : State) : Result :=
  operate who opScan (selectorOf table 0) index 0 (scanData count dir stop) s

end Sys2Proof.Machine
end

