-- ==== Sys2Proof/Machine/MachineCommands.lean ====
section
/-! DEFINITION. The management operations on the plan and on the machine, as MGT cells addressed to the part at the UP port
(R139, R174). -/

namespace Sys2Proof.Machine

/-- PLAN_APPEND (R10). -/
def execPlanAppend (who : Sender) (record : Part) (s : State) : Result := operate who opPlanAppend 0 0 0 record s

/-- PLAN_FLUSH (R12). -/
def execPlanFlush (who : Sender) (lay : Word) (s : State) : Result :=
  operate who opPlanFlush 0 0 0 (numberData lay.toNat) s

/-- SKIP (R13). -/
def execSkip (who : Sender) (lay : Word) (s : State) : Result := operate who opSkip 0 0 0 (numberData lay.toNat) s

/-- MODE GUARD (R181). -/
def execModeGuard (who : Sender) (s : State) : Result := operate who opMode 0 0 0 1 s

/-- MODE LAY (R181). -/
def execModeLay (who : Sender) (s : State) : Result := operate who opMode 0 0 0 2 s

/-- MODE STANDBY (R181). -/
def execModeStandby (who : Sender) (s : State) : Result := operate who opMode 0 0 0 3 s

/-- MODE HOLD (R182). -/
def execModeHold (who : Sender) (s : State) : Result := operate who opMode 0 0 0 4 s

/-- MODE RESUME (R182). -/
def execResume (who : Sender) (s : State) : Result := operate who opMode 0 0 0 5 s

/-- MODE RECOVER (R182). -/
def execRecover (who : Sender) (s : State) : Result := operate who opMode 0 0 0 6 s

/-- SUSPEND (R109). -/
def execSuspend (who : Sender) (index : Half) (s : State) : Result := operate who opSuspend 0 index 0 0 s

/-- RESTORE (R109). -/
def execRestore (who : Sender) (index : Half) (s : State) : Result := operate who opRestore 0 index 0 0 s

/-- CLEAR_FAULTS (R174). -/
def execClearFaults (who : Sender) (s : State) : Result := operate who opClearFaults 0 0 0 0 s

/-- STATION RETRY (R45). -/
def execStationRetry (who : Sender) (station : Half) (s : State) : Result := operate who opStation 0 station 0 1 s

/-- STATION DISCARD (R46). -/
def execStationDiscard (who : Sender) (station : Half) (s : State) : Result := operate who opStation 0 station 0 2 s

/-- RESTART (R175). -/
def execRestart (who : Sender) (s : State) : Result := operate who opRestart 0 0 0 0 s

/-- RESET, the ring reset (R175). -/
def execRingReset (who : Sender) (s : State) : Result := operate who opReset 0 0 0 0 s

/-- UNKNOWN_OP (R164). -/
def execUnknownOp (who : Sender) (op selector : Byte) (index mask : Half) (data : Part) (s : State) : Result :=
  operate who op selector index mask data s

end Sys2Proof.Machine
end

