-- ==== Sys2Proof/Machine/Dispatch.lean ====
section
/-! DEFINITION. The effect of each command, one arm for each row of spec/opcode_table.json. -/

namespace Sys2Proof.Machine

def exec (i : Instr) (s : State) : Host.Outcome State Fault Refusal :=
  match i with
  | .powerOnReset ra oa ready rxdSpace => Sys2Proof.Machine.execPowerOnReset ra oa ready rxdSpace s
  | .cellReceive port cell => Sys2Proof.Machine.execCellReceive port cell s
  | .lineActivityTimeout port => Sys2Proof.Machine.execLineActivityTimeout port s
  | .cellTransmit port => Sys2Proof.Machine.execCellTransmit port s
  | .outboundTrainArrival dst src flags cycle period rest => Sys2Proof.Machine.execOutboundTrainArrival dst src flags cycle period rest s
  | .outboundEndArrival dst src flags payload => Sys2Proof.Machine.execOutboundEndArrival dst src flags payload s
  | .coarseSet dst src flags position velocity setFlags rest crc => Sys2Proof.Machine.execCoarseSet dst src flags position velocity setFlags rest crc s
  | .fineSet dst src flags body crc => Sys2Proof.Machine.execFineSet dst src flags body crc s
  | .stationSet dst src flags payload crc => Sys2Proof.Machine.execStationSet dst src flags payload crc s
  | .fbkCapture dst src flags actual status aux0 aux1 aux2 aux3 rest => Sys2Proof.Machine.execFbkCapture dst src flags actual status aux0 aux1 aux2 aux3 rest s
  | .feedOneDone src echo brick measured => Sys2Proof.Machine.execFeedOneDone src echo brick measured s
  | .cutDone src echo brick measured => Sys2Proof.Machine.execCutDone src echo brick measured s
  | .ejectDone src echo brick measured => Sys2Proof.Machine.execEjectDone src echo brick measured s
  | .glueDone src echo brick measured => Sys2Proof.Machine.execGlueDone src echo brick measured s
  | .loadDone src echo brick measured => Sys2Proof.Machine.execLoadDone src echo brick measured s
  | .deliverDone src echo brick measured => Sys2Proof.Machine.execDeliverDone src echo brick measured s
  | .handoverDone src echo brick measured => Sys2Proof.Machine.execHandoverDone src echo brick measured s
  | .dropDone src echo brick measured => Sys2Proof.Machine.execDropDone src echo brick measured s
  | .openDone src echo brick measured => Sys2Proof.Machine.execOpenDone src echo brick measured s
  | .returnEndArrival dst src flags payload => Sys2Proof.Machine.execReturnEndArrival dst src flags payload s
  | .trainWatchdogExpiry => Sys2Proof.Machine.execTrainWatchdogExpiry s
  | .stationTimeout station => Sys2Proof.Machine.execStationTimeout station s
  | .openTimeExpiry ticket => Sys2Proof.Machine.execOpenTimeExpiry ticket s
  | .placeTimeout => Sys2Proof.Machine.execPlaceTimeout s
  | .characterReceive data parity stop => Sys2Proof.Machine.execCharacterReceive data parity stop s
  | .sampleFrameComplete seq latency x y z yaw quality status crc badParity => Sys2Proof.Machine.execSampleFrameComplete seq latency x y z yaw quality status crc badParity s
  | .loopFrame noise badParity => Sys2Proof.Machine.execLoopFrame noise badParity s
  | .lineBreak => Sys2Proof.Machine.execLineBreak s
  | .lineBreakEnd => Sys2Proof.Machine.execLineBreakEnd s
  | .trkReadyChange active => Sys2Proof.Machine.execTrkReadyChange active s
  | .staleExpiry => Sys2Proof.Machine.execStaleExpiry s
  | .lostExpiry => Sys2Proof.Machine.execLostExpiry s
  | .reacquireDue => Sys2Proof.Machine.execReacquireDue s
  | .reacquireSent => Sys2Proof.Machine.execReacquireSent s
  | .read who table part index => Sys2Proof.Machine.execRead who table part index s
  | .write who table part index mask data => Sys2Proof.Machine.execWrite who table part index mask data s
  | .writeOrigin who part index mask data => Sys2Proof.Machine.execWriteOrigin who part index mask data s
  | .writeParam who part index mask data => Sys2Proof.Machine.execWriteParam who part index mask data s
  | .applySettings who index mask data => Sys2Proof.Machine.execApplySettings who index mask data s
  | .trkLoopSet who index mask data => Sys2Proof.Machine.execTrkLoopSet who index mask data s
  | .trkLoopClear who index mask data => Sys2Proof.Machine.execTrkLoopClear who index mask data s
  | .writeAxis who part index mask data => Sys2Proof.Machine.execWriteAxis who part index mask data s
  | .writeTerm who part index mask data => Sys2Proof.Machine.execWriteTerm who part index mask data s
  | .writeZone who part index mask data => Sys2Proof.Machine.execWriteZone who part index mask data s
  | .writeCourse who part index mask data => Sys2Proof.Machine.execWriteCourse who part index mask data s
  | .probe who table index => Sys2Proof.Machine.execProbe who table index s
  | .scan who table index count dir stop => Sys2Proof.Machine.execScan who table index count dir stop s
  | .planAppend who record => Sys2Proof.Machine.execPlanAppend who record s
  | .planFlush who lay => Sys2Proof.Machine.execPlanFlush who lay s
  | .skip who lay => Sys2Proof.Machine.execSkip who lay s
  | .modeGuard who => Sys2Proof.Machine.execModeGuard who s
  | .modeLay who => Sys2Proof.Machine.execModeLay who s
  | .modeStandby who => Sys2Proof.Machine.execModeStandby who s
  | .modeHold who => Sys2Proof.Machine.execModeHold who s
  | .resume who => Sys2Proof.Machine.execResume who s
  | .recover who => Sys2Proof.Machine.execRecover who s
  | .suspend who index => Sys2Proof.Machine.execSuspend who index s
  | .restore who index => Sys2Proof.Machine.execRestore who index s
  | .clearFaults who => Sys2Proof.Machine.execClearFaults who s
  | .stationRetry who station => Sys2Proof.Machine.execStationRetry who station s
  | .stationDiscard who station => Sys2Proof.Machine.execStationDiscard who station s
  | .restart who => Sys2Proof.Machine.execRestart who s
  | .ringReset who => Sys2Proof.Machine.execRingReset who s
  | .unknownOp who op selector index mask data => Sys2Proof.Machine.execUnknownOp who op selector index mask data s
  | .tableMemoryError part word bit second => Sys2Proof.Machine.execTableMemoryError part word bit second s

end Sys2Proof.Machine
end

