-- ==== Sys2Proof/Machine/Step.lean ====
section
/-! DEFINITION. One step: the command at the front of the queue acts on the part with the queue's rest; with no command
waiting, a microsecond passes. -/

namespace Sys2Proof.Machine

/-- One step of the part (log entries 1 and 2). -/
def step (s : State) : Host.Outcome State Fault Refusal :=
  match s.pending with
  | [] => .next (tick s)
  | c :: cs => exec c (s.setPending cs)

/-- The state with the command that a word spells, if it spells one, at the front of its queue. -/
def State.withFetchWord (s : State) (nbits w : Nat) : State :=
  match decodeTableWord nbits w with
  | some c => s.setPending (c :: s.pending)
  | none => s

end Sys2Proof.Machine
end

