-- ==== Sys2Proof/Safety.lean ====
section
/-! DEFINITION. What counts as a safe state and a safe step, in the terms the statements use: the laws of the part that the
manual names, and the bounds of its queues. -/

namespace Sys2Proof.Machine

/-- R187: HOLD_N is asserted exactly while the mode is STANDBY or HOLD. -/
def HoldLine (s : State) : Prop := s.ctl.holdN = s.ctl.mode.held

/-- R166: the reply queue holds up to 16 replies. -/
def RepliesBounded (s : State) : Prop := s.mgmt.replies.length ≤ 16

/-- R136: each transmit queue holds up to 64 cells. -/
def QueuesBounded (s : State) : Prop := s.ring.txUp.queue.length ≤ 64 ∧ s.ring.txDown.queue.length ≤ 64

/-- Table memory is in its canonical form. -/
def MemoryCanonical (s : State) : Prop := Memory.wf s.mem.cells = true ∧ setWf s.mem.flips = true

/-- The laws of the part that every step keeps: HOLD_N follows the mode (R187), at most `n` replies wait (R166), each
transmit queue holds at most 64 cells (R136), table memory is canonical. -/
structure Lawful (n : Nat) (s : State) : Prop where
  hold : HoldLine s
  replies : s.mgmt.replies.length ≤ n
  queues : QueuesBounded s
  memory : MemoryCanonical s

/-- R9: the lay numbers of the plan queue increase strictly from head to tail. -/
def layRising (l : List QueueEntry) : Prop := l.Pairwise (fun a b => a.lay < b.lay)

/-- R9: the plan queue is in lay number order; no two records of the bound set, and no record of the queue and one of the
bound set, share a lay number. -/
structure PlanOrdered (p : Plan) : Prop where
  rising : layRising p.queue
  apart : ∀ q ∈ p.queue, ∀ b ∈ p.bound, q.lay ≠ b.lay
  once : p.bound.Pairwise (fun a b => a.lay ≠ b.lay)

/-! ### Laws between the blocks -/

/-- The hold causes: those that the mode controller holds are those of their owners (R183), none is active in GUARD and LAY
(R185), only zone parts are poisoned (R119); the recovery flag belongs to GUARD, a return mode to HOLD (R185, R186). -/
structure Watched (s : State) : Prop where
  causes : s.ctl.conditions = conditionsNow s
  calm : s.ctl.mode.held = false → s.ctl.conditions = ⟨false, false, false, false⟩
  zones : ∀ n ∈ s.guard.poisoned, 69 ≤ n ∧ n < 197
  recovery : s.ctl.recovery = true → s.ctl.mode = .guard
  back : s.ctl.mode = .hold → s.ctl.ret = some .guard ∨ s.ctl.ret = some .lay
  away : s.ctl.mode ≠ .hold → s.ctl.ret = none

/-- R88, R101, R104: while the break of a line that a power-on reset found at space is still awaited, no break is in progress and
no loop test is on. -/
def BreakAwaited (s : State) : Prop := s.line.breakDue ≠ none → s.line.inBreak = false ∧ s.params.trkLoop = false

/-- R3: a course's reference count is the number of records, queued and bound, that name it. -/
def RefsCounted (p : Plan) : Prop :=
  ∀ c < 256, p.refs[c]?.getD 0 =
    (p.queue.filter (fun q => q.course == c)).length + (p.bound.filter (fun b => b.course == c)).length

/-- Where the ticket of a command in flight stands while the command acts, and in what state (R32 to R39). -/
def Acting (c : Cmd) (k : Ticket) : Prop :=
  match c with
  | .feedOne => k.pos = .feed ∧ k.state = .feeding
  | .cut => k.pos = .feed ∧ k.state = .cutting
  | .eject => k.pos = .saw ∧ k.state = .atSaw ∧ (k.reject = true ∨ k.purge = true) ∨
      k.pos = .feed ∧ k.state = .atFeed ∧ k.purge = true
  | .glue => k.pos = .saw ∧ k.state = .gluing
  | .load => k.pos = .glue ∧ k.state = .loading
  | .deliver => k.pos = .shuttle ∧ k.state = .delivering
  | .handover => k.pos = .flipper ∧ k.state = .handingOver
  | .drop => k.pos = .flipper ∧ k.state = .atFlipper ∧ (k.spoilt = true ∨ k.purge = true)
  | .openJaws => k.pos = .gripper ∧ k.state = .releasing

/-- The station to which a command brings its ticket, if that is another one (section 2.4). -/
def bringsTo (c : Cmd) : Option Station :=
  match c with
  | .cut => some .saw
  | .glue => some .glue
  | .load => some .shuttle
  | .deliver => some .flipper
  | .handover => some .gripper
  | .feedOne | .eject | .drop | .openJaws => none

/-- The tickets that a station has room for (R23). -/
def capacity (st : Station) : Nat := if st = .shuttle then 4 else 1

/-- The laws of the track: the live tickets are those of the bound records (R20, R24); one stands at each station, four on the
SHUTTLE (R23), and a command in flight has its ticket at its place and room where it brings it; a HELD ticket stands at the
GRIPPER, a RELEASING one is the subject of OPEN; at most 64 as-laid records wait, with room for the one that an OPEN pending
or in flight will form (R66). -/
structure TrackSound (s : State) : Prop where
  bound : s.track.tickets.map (·.lay) = s.plan.bound.map (·.lay)
  nine : s.track.tickets.length ≤ 9
  room : ∀ st, (s.track.at st).length ≤ capacity st
  acting : ∀ st fl, (s.track.station st).inflight = some fl →
    fl.cmd.station = st ∧ ∃ k ∈ s.track.tickets, k.lay = fl.ticket ∧ Acting fl.cmd k
  ahead : ∀ st fl dst, (s.track.station st).inflight = some fl → bringsTo fl.cmd = some dst →
    (s.track.at dst).length < capacity dst
  releasing : ∀ k ∈ s.track.tickets, k.state = .releasing →
    ∃ fl, (s.track.station .gripper).inflight = some fl ∧ fl.ticket = k.lay
  held : ∀ k ∈ s.track.tickets, k.state = .held → k.pos = .gripper
  laid : s.lay.asLaid.length ≤ 64
  due : s.lay.openPending = true → s.lay.phase = .settle ∧ s.lay.asLaid.length < 64
  opening : ∀ fl, (s.track.station .gripper).inflight = some fl → s.lay.phase = .release ∧ s.lay.asLaid.length < 64

/-! ### The words of the statements -/

/-- The part after a good cell has been received and counted at a port, before anything is read of it (R134, R135). -/
def arrived (p : Port) (s : State) : State :=
  s.setRing (s.ring.setRx p ((s.ring.rx p).receive true s.clock.us))

/-- A port is SYNCED. -/
def Synced (p : Port) (s : State) : Prop := (s.ring.rx p).sync = .synced

/-- A transmit queue has room for one more cell (R136). -/
def HasPlace (p : Port) (s : State) : Prop := (s.ring.tx p).queue.length < 64

/-- A cell has joined the tail of a transmit queue. -/
def joined (p : Port) (c : Cell) (s : State) : State :=
  s.setRing (s.ring.setTx p { s.ring.tx p with queue := (s.ring.tx p).queue ++ [c] })

/-- A part of table memory holds no flipped bit and is neither unreadable nor poisoned. -/
def PartClean (s : State) (n : Nat) : Prop :=
  wordFlips s.mem.flips (2 * n) = [] ∧ wordFlips s.mem.flips (2 * n + 1) = [] ∧ partMarked s n = false

/-- The level of the first present origin entry with an address (R163). -/
def originOf (s : State) (src : Byte) : Option Nat :=
  (List.range 8).findSome? fun i =>
    let o := originRec (peekPart s (originPart i))
    if o.present = 1 && o.addr = src.toNat then some o.level else none

/-- A management operation of this sender reaches the part and comes to its own tests with this effective level: the UP
port is SYNCED, the part has an address, the reply queue has room for two replies, the origin parts are clean, and the
sender has an origin and asks for a level of 0 to 2 (R139, R163, R164). -/
structure Heard (s : State) (who : Sender) (level : Nat) : Prop where
  synced : Synced .up s
  own : s.ring.ownAddr ≠ 0
  room : s.mgmt.replies.length ≤ 14
  clean : ∀ i < 8, PartClean s (originPart i)
  requested : who.level.toNat ≤ 2
  origin : ∃ l, originOf s who.src = some l ∧ level = max l who.level.toNat

/-- The management command of a row: its sender, its operation code and the replies it makes (R166, section 12.2). -/
def asks : Instr → Option (Sender × Byte × Nat)
  | .read who _ _ _ => some (who, 1, 1)
  | .write who _ _ _ _ _ => some (who, 2, 1)
  | .writeOrigin who _ _ _ _ | .writeParam who _ _ _ _ | .writeAxis who _ _ _ _ | .writeTerm who _ _ _ _
  | .writeZone who _ _ _ _ | .writeCourse who _ _ _ _ => some (who, 2, 1)
  | .applySettings who _ _ _ | .trkLoopSet who _ _ _ | .trkLoopClear who _ _ _ => some (who, 2, 1)
  | .probe who _ _ => some (who, 3, 2)
  | .scan who _ _ _ _ _ => some (who, 4, 1)
  | .planAppend who _ => some (who, 5, 1)
  | .planFlush who _ => some (who, 6, 1)
  | .skip who _ => some (who, 7, 1)
  | .modeGuard who | .modeLay who | .modeStandby who | .modeHold who | .resume who | .recover who => some (who, 8, 1)
  | .suspend who _ => some (who, 9, 1)
  | .restore who _ => some (who, 10, 1)
  | .clearFaults who => some (who, 11, 1)
  | .stationRetry who _ | .stationDiscard who _ => some (who, 12, 1)
  | .restart who => some (who, 13, 1)
  | .ringReset who => some (who, 14, 0)
  | .unknownOp who op _ _ _ _ => if op = 0 ∨ 15 ≤ op.toNat then some (who, op, 1) else none
  | .powerOnReset _ _ _ _ | .cellReceive _ _ | .lineActivityTimeout _ | .cellTransmit _
  | .outboundTrainArrival _ _ _ _ _ _ | .outboundEndArrival _ _ _ _ | .coarseSet _ _ _ _ _ _ _ _ | .fineSet _ _ _ _ _
  | .stationSet _ _ _ _ _ | .fbkCapture _ _ _ _ _ _ _ _ _ _ | .feedOneDone _ _ _ _ | .cutDone _ _ _ _
  | .ejectDone _ _ _ _ | .glueDone _ _ _ _ | .loadDone _ _ _ _ | .deliverDone _ _ _ _ | .handoverDone _ _ _ _
  | .dropDone _ _ _ _ | .openDone _ _ _ _ | .returnEndArrival _ _ _ _ | .trainWatchdogExpiry | .stationTimeout _
  | .openTimeExpiry _ | .placeTimeout | .characterReceive _ _ _ | .sampleFrameComplete _ _ _ _ _ _ _ _ _ _
  | .loopFrame _ _ | .lineBreak | .lineBreakEnd | .trkReadyChange _ | .staleExpiry | .lostExpiry | .reacquireDue
  | .reacquireSent | .tableMemoryError _ _ _ _ => none

/-- One reply has joined the tail of the reply queue (R166). -/
def replied (who : Sender) (op : Byte) (code : ReplyCode) (status : Byte) (data : Part) (s : State) : State :=
  s.setMgmt { s.mgmt with
    replies := s.mgmt.replies ++
      [{ dst := who.src, tag := who.tag, op := op, code := code, status := status, second := false, data := data }] }

/-- A part has been stored with fresh check bits and its marking is cleared; every other part reads as before (R167, R168). -/
structure Stores (n : Nat) (d : Part) (s t : State) : Prop where
  part : peekPart t n = d
  others : ∀ m, m ≠ n → peekPart t m = peekPart s m
  fresh : wordFlips t.mem.flips (2 * n) = [] ∧ wordFlips t.mem.flips (2 * n + 1) = []
  readable : partMarked t n = false

/-- The stored part that a WRITE addresses, merged with its data under its mask (R167). -/
def mergedWith (s : State) (n : Nat) (data : Part) (mask : Half) : Part := mergePart (peekPart s n) data mask

/-- The effect of a cause of LOST on the tracker state, the TRACKER cause, the fault set and the mode, from a tracker state
other than LOST (R97, R183, R185). -/
structure BecomesLost (cause : Nat) (s t : State) : Prop where
  state : t.line.state = .lost
  active : t.ctl.conditions.tracker = true
  latched : s.line.state ≠ .none →
    t.ctl.faults = (s.ctl.latch .trackerLost (BitVec.ofNat 32 cause) s.clock.ms).faults ∧
      t.ctl.first = (s.ctl.latch .trackerLost (BitVec.ofNat 32 cause) s.clock.ms).first
  silent : s.line.state = .none → t.ctl.faults = s.ctl.faults ∧ t.ctl.first = s.ctl.first
  hold : s.ctl.mode.held = false → t.ctl.mode = .hold ∧ t.ctl.holdN = true ∧ t.ctl.recovery = false ∧
    t.ctl.ret = some (if s.ctl.recovery then .guard else s.ctl.mode)
  held : s.ctl.mode.held = true → t.ctl.mode = s.ctl.mode ∧ t.ctl.ret = s.ctl.ret

/-- Nothing but the mode controller, the lay controller, the tracker line, the management unit, table memory, the zone
guard and the terms may differ. -/
structure Undisturbed (s t : State) : Prop where
  clock : t.clock = s.clock
  pins : t.pins = s.pins
  ring : t.ring = s.ring
  axis : t.axis = s.axis
  stab : t.stab = s.stab
  plan : t.plan = s.plan
  track : t.track = s.track
  params : t.params = s.params
  pending : t.pending = s.pending

/-- The FBK cells of a node address find the readable entry `i` of a role, and the DOWN port is SYNCED (R142, R154). -/
structure Seen (s : State) (src : Byte) (role : Role) (i : Nat) : Prop where
  synced : Synced .down s
  entry : ∃ e, entryOfAddr src s = some (i, e) ∧ e.role = role
  readable : axisUnreadable s i = false

/-- A command is in flight at its station for a ticket, under the number that a report echoes, and a matching DONE completes
it (R28). -/
structure Awaits (s : State) (cmd : Cmd) (echo : Byte) (k : Ticket) : Prop where
  flight : ∃ fl, (s.track.station cmd.station).inflight = some fl ∧ fl.cmd = cmd ∧ fl.num = echo.toNat ∧
    s.track.find fl.ticket = some k
  stall : (s.track.station cmd.station).stall ≠ .fault

/-- The row of the opcode table by which the DONE of a command arrives. -/
def doneRow (cmd : Cmd) (src echo : Byte) (brick : Bool) (measured : Word) : Instr :=
  match cmd with
  | .feedOne => .feedOneDone src echo brick measured
  | .cut => .cutDone src echo brick measured
  | .eject => .ejectDone src echo brick measured
  | .glue => .glueDone src echo brick measured
  | .load => .loadDone src echo brick measured
  | .deliver => .deliverDone src echo brick measured
  | .handover => .handoverDone src echo brick measured
  | .drop => .dropDone src echo brick measured
  | .openJaws => .openDone src echo brick measured

/-- A DONE has completed its command: nothing is in flight at the station any more, the other stations and the blocks that
no completion touches stand as they were (R28); the stall cause stays, but for a mismatch that the same report shows (R44). -/
structure Completed (cmd : Cmd) (s t : State) : Prop where
  ended : (t.track.station cmd.station).inflight = none
  number : (t.track.station cmd.station).lastNum = (s.track.station cmd.station).lastNum
  stall : (t.track.station cmd.station).stall = (s.track.station cmd.station).stall ∨
    (s.track.station cmd.station).stall = .none ∧ (t.track.station cmd.station).stall = .mismatch
  others : ∀ st, st ≠ cmd.station → t.track.station st = s.track.station st
  counter : t.track.counter = s.track.counter
  clock : t.clock = s.clock
  pins : t.pins = s.pins
  stab : t.stab = s.stab
  params : t.params = s.params
  pending : t.pending = s.pending

/-- The reply of a MODE request joins the reply queue: it carries the mode and the hold causes as they stand (R182). -/
def moded (who : Sender) (code : ReplyCode) (t : State) : State :=
  replied who 8 code (BitVec.ofNat 8 (causeByte t.ctl)) (BitVec.ofNat 128 t.ctl.mode.code) t

/-- A change of mode leaves the reply queue, the fault set, table memory, the terms and the zones' markings alone. -/
structure LeavesTables (s t : State) : Prop where
  mgmt : t.mgmt = s.mgmt
  faults : t.ctl.faults = s.ctl.faults ∧ t.ctl.first = s.ctl.first
  mem : t.mem = s.mem
  terms : t.terms = s.terms
  zones : t.guard.suspended = s.guard.suspended ∧ t.guard.poisoned = s.guard.poisoned ∧
    t.guard.outcome = s.guard.outcome
  tracker : t.line.state = s.line.state ∧ t.line.cur = s.line.cur

/-- R6: every course descriptor is not present with its other fields zero, readable, and without a reference. -/
def CoursesEmpty (t : State) : Prop :=
  (∀ k < 512, peekPart t (197 + k) = 0 ∧ t.mgmt.unreadable.contains (197 + k) = false) ∧ ∀ c, refCount t c = 0

/-- The commands of a list run one after another, each to a next state. -/
def runAll : List Instr → State → Option State
  | [], s => some s
  | c :: cs, s =>
    match exec c s with
    | .next t => runAll cs t
    | _ => none

/-- No bit of table memory is flipped and no part is unreadable or poisoned. -/
structure TableClean (s : State) : Prop where
  flips : s.mem.flips = []
  unreadable : s.mgmt.unreadable = []
  poisoned : s.guard.poisoned = []

/-- A part that no read has found in error yet holds two flipped bits in its low word and none in its high word (R177). -/
structure TwoBits (s : State) (n : Nat) : Prop where
  fresh : partMarked s n = false
  low : ∃ b c, wordFlips s.mem.flips (2 * n) = [b, c]
  high : wordFlips s.mem.flips (2 * n + 1) = []

/-- The count of an uncorrectable word (R177). -/
def countedBad (s : State) : State :=
  s.setMgmt { s.mgmt with uncorrectable := min 65535 (s.mgmt.uncorrectable + 1) }

/-- R31 but for the axis entry: nothing in flight at the addressed station, no touched station stalled, the mode permits. -/
structure MayIssue (s : State) (c : Cmd) (pos : Station) : Prop where
  idle : (s.track.station c.station).inflight = none
  clear : ∀ st ∈ c.touches pos, (s.track.station st).stall = .none
  mode : s.ctl.mode = .lay ∨ s.ctl.mode = .guard ∧ c ≠ .feedOne ∧ c ≠ .handover

/-- A station has a present, readable entry whose part is clean, with this command timeout (R30, R31). -/
def Fitted (s : State) (st : Station) (timeout : Nat) : Prop :=
  ∃ i, entryOfRole (stationRole st) s = some i ∧ PartClean s (13 + i) ∧ timeout = (axisRec (peekPart s (13 + i))).a

/-- A command for a ticket has gone in flight with the station's next number and its timer started; the ticket has changed by `f`
(R26, R27, R30). -/
def launched (c : Cmd) (k : Ticket) (param : Word) (timeout : Nat) (f : Ticket → Ticket) (s : State) : State :=
  s.setTrack ({ s.track with tickets := s.track.tickets.map (fun x : Ticket => if x.lay = k.lay then f x else x) }.setStation c.station
    { s.track.station c.station with
      lastNum := if (s.track.station c.station).lastNum < 255 then (s.track.station c.station).lastNum + 1 else 1
      inflight := some
        { cmd := c, num := if (s.track.station c.station).lastNum < 255 then (s.track.station c.station).lastNum + 1 else 1
          param := param, ticket := k.lay, issued := s.clock.ms, timeout := timeout, timer := true } })

/-- A command that a ticket makes due is issued when R31 allows it; otherwise nothing changes. -/
def Issues (c : Cmd) (k : Ticket) (param : Word) (f : Ticket → Ticket) (s t : State) : Prop :=
  (¬ MayIssue s c k.pos ∨ entryOfRole (stationRole c.station) s = none → t = s) ∧
  ∀ timeout, MayIssue s c k.pos → Fitted s c.station timeout → t = launched c k param timeout f s

/-- The oldest ticket at a station, on the SHUTTLE the one at place 1 (R23). -/
def standsFirst (s : State) (st : Station) (k : Ticket) : Prop := s.track.tickets.find? (fun x => x.pos = st) = some k

/-- No ticket stands at a station. -/
def standsFree (s : State) (st : Station) : Prop := ∀ k ∈ s.track.tickets, k.pos ≠ st

/-- A step is safe: it ends in a next state. -/
def StepSafe (s : State) : Prop := ∃ t, step s = .next t

end Sys2Proof.Machine
end

