-- ==== Sys2Proof/Certificates/Slice0/Obligations.lean ====
section
/-! DEFINITION. The statements about the part, for the provers. Each formalises rules of spec/ that its docstring names, or says
that it is the model's own. `arrived p s` is the state after a good cell has been counted at a port, `joined p c s` the state
with a cell at the tail of a transmit queue, `Heard s who level` the ground on which a management operation comes to its own
tests, `replied who op code status data s` the state with its reply queued. -/

open Sys2Proof Sys2Proof.Machine

/-! ### Steps and resets -/

/-- A step runs the command at the front of the queue on the part with the queue's rest. -/
def Obligations.StepRunsTheFrontCommand : Prop :=
  ∀ (s : State) (c : Instr) (cs : List Instr), s.pending = c :: cs → step s = exec c (s.setPending cs)

/-- 00_scope 4.4, with log entry 2 (the model's choice): with no command waiting one microsecond passes; nothing is written to
the plan store, the axis table side or the parameters by it. What is due comes about first, with the ticket numbers apart: as
the commands of the expiries would bring it about one after another, the receiver of a loop test catching up with the
characters sent before the frames of the transmitter. -/
def Obligations.IdleStepPassesOneMicrosecond : Prop :=
  ∀ s : State, s.pending = [] →
    (∃ t, step s = .next t ∧ t.pending = [] ∧ t.clock.us = s.clock.us + 1 ∧
      (s.clock.sub < 999 → t.clock.ms = s.clock.ms) ∧ (999 ≤ s.clock.sub → t.clock.ms = s.clock.ms + 1) ∧
      t.plan = s.plan ∧ t.axis = s.axis ∧ t.params = s.params ∧ t.pins = s.pins) ∧
    (BreakAwaited s → s.track.tickets.Pairwise (fun a b => a.num ≠ b.num) →
      ∃ v u, runAll ([.lineActivityTimeout .up, .lineActivityTimeout .down, .trainWatchdogExpiry] ++
          allStations.map Instr.stationTimeout ++ s.track.tickets.map (fun k => .openTimeExpiry k.num) ++
          [.placeTimeout, .staleExpiry, .lostExpiry] ++
          (if passed s s.line.breakDue then [.lineBreak] else [])) s = some v ∧
        runAll [.reacquireSent, .reacquireDue] (loopCatchUp v) = some u ∧
        step s = .next (u.setClock
          { us := s.clock.us + 1, ms := if s.clock.sub < 999 then s.clock.ms else s.clock.ms + 1,
            sub := if s.clock.sub < 999 then s.clock.sub + 1 else 0 }))

/-- R190 and the reset rules of the chapters: what a power-on reset leaves, whatever stood before; the straps as sampled (R139,
R162), the levels of TRK_READY and TRK_RXD as found (R98, R104). The time bases start at 0 by log entry 4. Every other field
takes the value that State.reset gives it. -/
def Obligations.PowerOnResetTakesTheResetValues : Prop :=
  ∀ (ra oa : BitVec 7) (ready space : Bool) (s : State), ∃ t,
    exec (.powerOnReset ra oa ready space) s = .next t ∧
    t.ctl = { mode := .standby, ret := none, recovery := false,
              conditions := { guard := false, tracker := true, zoneEcc := false, term := false },
              starved := false, request := false, faults := 0, first := none, holdN := true } ∧
    t.pins = { ra := ra, oa := oa, trkReady := ready } ∧
    (t.ring.ownAddr = if ra = 0 ∨ ra = 127 then 0 else ra.zeroExtend 8) ∧
    (∀ p, (t.ring.rx p).sync = .hunting ∧ (t.ring.tx p).queue = []) ∧
    t.ring.lastCycle = none ∧ t.ring.watchdog = none ∧ t.ring.append = false ∧
    t.line.state = .none ∧ t.line.cur = none ∧ t.line.breakDue.isSome = space ∧
    t.stab.c = ⟨0, 0, 0, 0⟩ ∧ t.stab.cPrev = ⟨0, 0, 0, 0⟩ ∧
    t.guard.suspended = [] ∧ t.guard.poisoned = [] ∧ t.plan.queue = [] ∧ t.plan.bound = [] ∧ t.plan.highest = 0 ∧
    t.track.tickets = [] ∧ t.track.counter = 0 ∧ t.lay.phase = .idle ∧ t.lay.asLaid = [] ∧
    t.mgmt.replies = [] ∧ t.mgmt.unreadable = [] ∧ t.mem.flips = [] ∧ t.params = State.reset.params ∧
    t.pending = s.pending ∧
    (peekPart t 0 = if oa = 0 ∨ oa = 127 ∨ oa = ra then 0 else packPart [(1, 1), (1, oa.toNat), (1, 0)]) ∧
    (∀ n, 0 < n → peekPart t n = peekPart State.reset n) ∧
    t = { State.reset with
      pins := t.pins, ring := { State.reset.ring with ownAddr := t.ring.ownAddr },
      line := { State.reset.line with breakDue := t.line.breakDue }, mem := t.mem, pending := s.pending }

/-- The laws that every step keeps hold right after reset; the strap values and time bases of that state are the model's (log
entries 4, 5, 6). -/
def Obligations.TheResetStateObeysTheLaws : Prop :=
  Lawful 16 State.reset ∧ PlanOrdered State.reset.plan ∧ State.reset = poweredOn 1 2 false false [] ∧
    Watched State.reset ∧ BreakAwaited State.reset ∧ RefsCounted State.reset.plan ∧ TrackSound State.reset

/-- R187, R166, R136, R183, R185: whatever command a step runs, HOLD_N is asserted exactly in STANDBY and HOLD, at most 16
replies wait, no transmit queue holds more than 64 cells, and table memory is in its canonical form, if that was so before the
step. So it is with the hold causes: those held are those of their owners, and none is active in GUARD and LAY; and with the
break of a line found at space: while it is awaited no break is in progress and no loop test is on (R88, R101, R104). -/
def Obligations.EveryStepKeepsTheLawsOfThePart : Prop :=
  ∀ s t : State, step s = .next t → (Lawful 16 s → Lawful 16 t) ∧ (Watched s → Watched t) ∧ (BreakAwaited s → BreakAwaited t)

/-- R9, R3, R23, R66: whatever command a step runs, the lay numbers of the plan queue increase strictly from head to tail, and
no lay number is both in the queue and bound, if that was so before the step; then each course's reference count stays the
number of the records that name it, one ticket at most stays at each station and four on the SHUTTLE, and 64 as-laid records at
most wait. -/
def Obligations.EveryStepKeepsThePlanInLayOrder : Prop :=
  ∀ s t : State, PlanOrdered s.plan → step s = .next t →
    PlanOrdered t.plan ∧ (RefsCounted s.plan → RefsCounted t.plan) ∧ (TrackSound s → TrackSound t)

/-! ### Ring ports -/

/-- R134, R135, R136, R137: what a cell received does to the sync state of its port. A bad cell that passes at a SYNCED port
is forwarded as a VOID cell and counted; at a full queue it is dropped, and the void counted all the same, beside the
overflow, which is the model's reading (log entry 19); a good one there ends the run of bad ones; a dropped cell does nothing
beyond its own count and its effect on the sync state; the fourth consecutive bad cell makes the port HUNTING, the eighth
consecutive good one SYNCED. -/
def Obligations.ReceivedCellMovesTheSyncState : Prop :=
  ∀ (s : State) (p : Port) (c : Cell),
    (Synced p s → isGood c = false → (s.ring.rx p).badRun < 3 → HasPlace (otherPort p) s →
      exec (.cellReceive p c) s = .next
        (joined (otherPort p) (goodCell 0 0 0 0 0)
          (s.setRing { s.ring.setRx p { s.ring.rx p with
            badRun := (s.ring.rx p).badRun + 1, bad := min 65535 ((s.ring.rx p).bad + 1), activity := some s.clock.us }
            with void := min 65535 (s.ring.void + 1) }))) ∧
    (Synced p s → isGood c = false → (s.ring.rx p).badRun < 3 → ¬ HasPlace (otherPort p) s →
      exec (.cellReceive p c) s = .next (s.setRing { s.ring.setRx p { s.ring.rx p with
        badRun := (s.ring.rx p).badRun + 1, bad := min 65535 ((s.ring.rx p).bad + 1), activity := some s.clock.us }
        with void := min 65535 (s.ring.void + 1), overflows := min 65535 (s.ring.overflows + 1) })) ∧
    (Synced p s → isGood c = true → c.kind ≠ 0x20 ∨ p = .down →
      ∃ t, exec (.cellReceive p c) s = .next t ∧ t.ring.rx (otherPort p) = s.ring.rx (otherPort p) ∧
        t.ring.rx p = { s.ring.rx p with
          badRun := 0, good := min 65535 ((s.ring.rx p).good + 1), activity := some s.clock.us }) ∧
    (Synced p s → isGood c = false → 3 ≤ (s.ring.rx p).badRun →
      exec (.cellReceive p c) s = .next (s.setRing (s.ring.setRx p { s.ring.rx p with
        sync := .hunting, goodRun := 0, losses := min 65535 ((s.ring.rx p).losses + 1)
        bad := min 65535 ((s.ring.rx p).bad + 1), activity := some s.clock.us }))) ∧
    (¬ Synced p s → isGood c = true → (s.ring.rx p).goodRun < 7 →
      exec (.cellReceive p c) s = .next (s.setRing (s.ring.setRx p { s.ring.rx p with
        goodRun := (s.ring.rx p).goodRun + 1, good := min 65535 ((s.ring.rx p).good + 1),
        activity := some s.clock.us }))) ∧
    (¬ Synced p s → isGood c = true → 7 ≤ (s.ring.rx p).goodRun →
      exec (.cellReceive p c) s = .next (s.setRing (s.ring.setRx p { s.ring.rx p with
        sync := .synced, badRun := 0, good := min 65535 ((s.ring.rx p).good + 1),
        activity := some s.clock.us }))) ∧
    (¬ Synced p s → isGood c = false →
      exec (.cellReceive p c) s = .next (s.setRing (s.ring.setRx p { s.ring.rx p with
        goodRun := 0, bad := min 65535 ((s.ring.rx p).bad + 1)
        activity := some s.clock.us })))

/-- R136, R138, R139, R140, R142: a good cell of a kind that its port does not read is forwarded unchanged: at UP also an FBK
cell, a TRAIN with RETURN set and an MGT cell that is not addressed to the part, at DOWN also TRAIN, SET and MGT cells; a FILL
cell joins an empty queue and is absorbed otherwise; a cell that finds its queue full is dropped and counted. -/
def Obligations.UnreadCellIsForwardedUnchanged : Prop :=
  ∀ (s : State) (p : Port) (c : Cell), Synced p s → isGood c = true →
    ((c.kind ≠ 0x01 ∧ c.kind ≠ 0x02 ∧ c.kind ≠ 0x0F ∧ c.kind ≠ 0x10 ∧ c.kind ≠ 0x11 ∧ c.kind ≠ 0x20) ∨
        (p = .up ∧ c.kind = 0x11) ∨ (p = .up ∧ c.kind = 0x01 ∧ c.flags.getLsbD 0 = true) ∨
        (p = .up ∧ c.kind = 0x20 ∧ (s.ring.ownAddr = 0 ∨ c.dst ≠ s.ring.ownAddr)) ∨
        (p = .down ∧ (c.kind = 0x01 ∨ c.kind = 0x10 ∨ c.kind = 0x20)) →
      (HasPlace (otherPort p) s → exec (.cellReceive p c) s = .next (joined (otherPort p) c (arrived p s))) ∧
      (¬ HasPlace (otherPort p) s → exec (.cellReceive p c) s = .next
        ((arrived p s).setRing
          { (arrived p s).ring with overflows := min 65535 (s.ring.overflows + 1) }))) ∧
    (c.kind = 0x0F →
      ((s.ring.tx (otherPort p)).queue = [] →
        exec (.cellReceive p c) s = .next (joined (otherPort p) c (arrived p s))) ∧
      ((s.ring.tx (otherPort p)).queue ≠ [] → exec (.cellReceive p c) s = .next (arrived p s)))

/-- R135: 1 ms of silence at a port; the expiry is the port's own, so before it the command comes to nothing (log entry 30). -/
def Obligations.SilenceOfALineMakesThePortHunt : Prop :=
  ∀ (s : State) (p : Port) (b : Word), (s.ring.rx p).activity = some b →
    (1000 ≤ (s.clock.us - b).toNat → Synced p s →
      exec (.lineActivityTimeout p) s = .next (s.setRing (s.ring.setRx p { s.ring.rx p with
        sync := .hunting, goodRun := 0, losses := min 65535 ((s.ring.rx p).losses + 1), activity := none }))) ∧
    (1000 ≤ (s.clock.us - b).toNat → ¬ Synced p s →
      exec (.lineActivityTimeout p) s = .next (s.setRing (s.ring.setRx p { s.ring.rx p with activity := none }))) ∧
    ((s.clock.us - b).toNat < 1000 → exec (.lineActivityTimeout p) s = .next s)

/-- R136, R145: a transmit side sends the cell at the head of its queue, or, with nothing waiting, a FILL cell of its own. -/
def Obligations.TransmitSideSendsItsHeadOrFill : Prop :=
  ∀ (s : State) (p : Port),
    (∀ c cs, (s.ring.tx p).queue = c :: cs →
      exec (.cellTransmit p) s = .next (s.setRing (s.ring.setTx p { queue := cs, line := some c }))) ∧
    ((s.ring.tx p).queue = [] →
      exec (.cellTransmit p) s = .next (s.setRing (s.ring.setTx p
        { queue := [], line := some (goodCell 0 s.ring.ownAddr 0x0F 0 0) })))

/-! ### Trains -/

/-- R140, R144, R146, R160, R178, R129, R110, R50: what an outbound TRAIN arrival does to the ring ports and to the
conditioner (the train of its fine cells is open, log entry 35), and that the scrub moves on by one part (the pass counted by
log entry 36); the work of the other blocks in the order of log entry 7; with no part in error every term gets its value at
the arrival's cycle number. The TRAIN cell itself is forwarded unchanged. -/
def Obligations.OutboundTrainStartsACycle : Prop :=
  ∀ (s : State) (dst src flags : Byte) (cycle : Word) (period : Half) (rest : BitVec 144) (a : State),
    Synced .up s → HasPlace .down s → flags.getLsbD 0 = false →
    a = ((arrived .up s).setRing { (arrived .up s).ring with
        gaps := if s.ring.lastCycle.isSome ∧ s.ring.lastCycle ≠ some (cycle - 1) then min 65535 (s.ring.gaps + 1)
          else s.ring.gaps
        missed := if s.ring.append then min 65535 (s.ring.missed + 1) else s.ring.missed
        lastCycle := some cycle
        watchdog := some (s.clock.us + BitVec.ofNat 32 (3 * max 250 (min 4000 period.toNat)))
        append := true }).setAxis { s.axis with
          slot := ⟨false, false, false, false⟩
          trainOpen := true } →
    ∃ t, exec (.outboundTrainArrival dst src flags cycle period rest) s = .next t ∧
      t.ring = (joined .down (goodCell dst src 0x01 flags (trainPayload cycle period rest)) a).ring ∧
      t.axis = a.axis ∧
      t.mgmt.scrub = (if s.mgmt.scrub + 1 < 4814 then s.mgmt.scrub + 1 else 0) ∧
      t.mgmt.passDue = decide (4814 ≤ s.mgmt.scrub + 1) ∧
      t.mgmt.passes = (if s.mgmt.passDue then min 65535 (s.mgmt.passes + 1) else s.mgmt.passes) ∧
      t.mgmt.replies = s.mgmt.replies ∧ t.lay.asLaid = s.lay.asLaid ∧ t.params = s.params ∧ t.clock = s.clock ∧
      t.pins = s.pins ∧
      (TableClean s → ∀ i < 32, termHeld t i =
        { value := termValue (termRec (peekPart s (37 + i))) a,
          unknownAs := (termRec (peekPart s (37 + i))).unknownAs == 1 }) ∧
      ∃ u v, u = offsetStep (approachIfHeld (scrubStep (evalTerms (List.range 32) (gateAtTrain a)))) ∧
        v = evaluateZones (stabCompute (s.ctl.mode.held || s.line.state != .valid) u) ∧
        t = joined .down (goodCell dst src 0x01 flags (trainPayload cycle period rest))
          (issueFlipper (issueShuttle (issueGlue (issueSaw (issueFeed (spoilAtFlipper (requestOpen (layVerdict v))))))))

/-- R69, R71, R72, R73, R75, R76, R77, R78, R79, R80: at an outbound TRAIN arrival the commands that stood become C_prev; in
STANDBY or HOLD, or with the tracker not VALID, the commands themselves are frozen. Out of any hold, with the tracker VALID,
no part in error and no global hold term (log entry 7 gives the order of the train's work, and an absent E with an entry
present has the target 0 by log entry 32, the model's choice for a state that no run reaches), the whole of the stabilizer is
what the rules give, and each command moves toward its target by its step at most. No command leaves its stroke or moves by
more than its step. -/
def Obligations.TrainFreezesFineCommandsInAHold : Prop :=
  ∀ (s : State) (dst src flags : Byte) (cycle : Word) (period : Half) (rest : BitVec 144),
    Synced .up s → flags.getLsbD 0 = false →
    ∃ t, exec (.outboundTrainArrival dst src flags cycle period rest) s = .next t ∧ t.stab.cPrev = s.stab.c ∧
      (s.ctl.mode.held = true ∨ s.line.state ≠ .valid → t.stab.c = s.stab.c) ∧
      (s.line.state = .none ∨ s.line.state = .lost → t.stab = { s.stab with cPrev := s.stab.c }) ∧
      (TableClean s → ∀ r i c c', entryOfRole r s = some i →
        (r = .fineX ∧ c = s.stab.c.x ∧ c' = t.stab.c.x ∨ r = .fineY ∧ c = s.stab.c.y ∧ c' = t.stab.c.y ∨
          r = .fineZ ∧ c = s.stab.c.z ∧ c' = t.stab.c.z ∨ r = .fineW ∧ c = s.stab.c.w ∧ c' = t.stab.c.w) →
        (c' - c).natAbs ≤ (axisRec (peekPart s (13 + i))).b ∧
        (c.natAbs ≤ (axisRec (peekPart s (13 + i))).a → c'.natAbs ≤ (axisRec (peekPart s (13 + i))).a)) ∧
      ∀ (k : Sample) (l : Lay) (clip : Int → Int) (v p q : Quad Int) (far near : Nat) (fine : Quad (Option FineAxis))
        (e err : Quad (Option Int)) (reach : Option Bool) (goal : Option Int → FineAxis → Int)
        (cmd : Option FineAxis → Option Int → Int → Int),
        s.line.state = .valid → s.line.cur = some k → s.ctl.mode.held = false → TableClean s → Watched s →
        s.params.holdTerm = 255 → l = (offsetStep (approachIfHeld s)).lay →
        (∀ n, clip n = max (-2147483648) (min 2147483647 n)) →
        fine = Quad.map (fun r => (entryOfRole r s).map fun i =>
          { stroke := (axisRec (peekPart s (13 + i))).a, step := (axisRec (peekPart s (13 + i))).b,
            actual := if (feedbackOf s i).seen then (feedbackOf s i).actual.toInt else 0 })
          ⟨.fineX, .fineY, .fineZ, .fineW⟩ →
        (∀ j, s.line.prev = some j → k.reanchor = false → 200 ≤ (k.tm - j.tm).toInt → (k.tm - j.tm).toInt ≤ 50000 →
          v = ⟨max (-2000) (min 2000 (((k.x - j.x) * 1000).tdiv (k.tm - j.tm).toInt)),
            max (-2000) (min 2000 (((k.y - j.y) * 1000).tdiv (k.tm - j.tm).toInt)),
            max (-2000) (min 2000 (((k.z - j.z) * 1000).tdiv (k.tm - j.tm).toInt)), 0⟩) →
        (s.line.prev = none ∨ k.reanchor = true ∨
            (∃ j, s.line.prev = some j ∧ ((k.tm - j.tm).toInt < 200 ∨ 50000 < (k.tm - j.tm).toInt)) → v = ⟨0, 0, 0, 0⟩) →
        far = min 20000 ((s.clock.us - k.ta).toNat + k.lat + s.params.lAct) →
        near = min 20000 ((s.clock.us - k.ta).toNat + k.lat) →
        p = ⟨clip (k.x + (v.x * far).tdiv 1000), clip (k.y + (v.y * far).tdiv 1000), clip (k.z + (v.z * far).tdiv 1000), k.w⟩ →
        q = ⟨clip (k.x + (v.x * near).tdiv 1000), clip (k.y + (v.y * near).tdiv 1000), clip (k.z + (v.z * near).tdiv 1000),
          k.w⟩ →
        (l.target = none → e = ⟨none, none, none, none⟩ ∧ err = ⟨none, none, none, none⟩) →
        (∀ g, l.target = some g →
          e = ⟨fine.x.map fun _ => clip (g.x - p.x), fine.y.map fun _ => clip (g.y - p.y),
            fine.z.map fun _ => clip (g.z + l.oz - p.z), fine.w.map fun _ => wrapYaw (g.w - p.w)⟩ ∧
          err = ⟨fine.x.map fun f => clip (g.x - (q.x + f.actual)), fine.y.map fun f => clip (g.y - (q.y + f.actual)),
            fine.z.map fun f => clip (g.z + l.oz - (q.z + f.actual)),
            fine.w.map fun f => wrapYaw (g.w - (q.w + f.actual))⟩) →
        (∀ ex ey ez ew fx fy fz fw, e = ⟨some ex, some ey, some ez, some ew⟩ → fine = ⟨some fx, some fy, some fz, some fw⟩ →
          reach = some (decide ((ex.natAbs : Int) ≤ (fx.stroke : Int) - s.params.reachMargin ∧
            (ey.natAbs : Int) ≤ (fy.stroke : Int) - s.params.reachMargin ∧
            (ez.natAbs : Int) ≤ (fz.stroke : Int) - s.params.reachMargin ∧ ew.natAbs ≤ fw.stroke))) →
        (e.x = none ∨ e.y = none ∨ e.z = none ∨ e.w = none → reach = none) →
        (∀ d f, goal d f = if l.phase = .idle ∨ l.phase = .approach ∧ reach ≠ some true then 0
          else max (-(f.stroke : Int)) (min (f.stroke : Int) (d.getD 0))) →
        (∀ d c, cmd none d c = c) →
        (∀ f d c, cmd (some f) d c = c + max (-(f.step : Int)) (min (f.step : Int) (goal d f - c))) →
        t.stab = { c := ⟨cmd fine.x e.x s.stab.c.x, cmd fine.y e.y s.stab.c.y, cmd fine.z e.z s.stab.c.z,
                      cmd fine.w e.w s.stab.c.w⟩
                   cPrev := s.stab.c, pAct := some p, pNow := some q, e := e, reach := reach, err := err
                   used := some (k.seq, k.quality) }

/-- R141, R160, R56, R57, with log entries 27 and 35 (the signs that a train's END has come, the model's own), 38 (the order of
the axes), 44 (no part is read for a gate closed outright) and 49 (the gate comes first): an outbound END arrival, in every phase:
every fine axis with a present entry whose slot stands empty is counted, in LAY with its fault, the slots are cleared, and the
END cell is forwarded unchanged. Where no gate is judged that reads a part in error, the placement alone changes besides: out of
SETTLE, and in a hold, no gate at all is judged. -/
def Obligations.OutboundEndJudgesTheSlots : Prop :=
  ∀ (s : State) (dst src flags : Byte) (payload : BitVec 192),
    Synced .up s → HasPlace .down s →
    ∃ t, exec (.outboundEndArrival dst src flags payload) s = .next t ∧
      t.ring = (joined .down (goodCell dst src 0x02 flags payload) (arrived .up s)).ring ∧
      t.axis = { s.axis with
        slot := ⟨false, false, false, false⟩
        missing := ([Role.fineX, .fineY, .fineZ, .fineW].filter fun r =>
          (entryOfRole r s).isSome && !slotOf s.axis.slot r).foldl (fun n _ => min 65535 (n + 1)) s.axis.missing
        trainOpen := false } ∧
      (s.lay.phase ≠ .settle ∨ s.ctl.mode.held = true → t.lay = { s.lay with gateDue := false }) ∧
      (∀ r ∈ [Role.fineX, .fineY, .fineZ, .fineW], ∀ i, entryOfRole r s = some i → slotOf s.axis.slot r = false →
        s.ctl.mode = .lay → t.ctl.has .missingSlot = true) ∧
      (s.lay.phase ≠ .settle ∨ s.ctl.mode.held = true ∨ s.lay.gateDue = false ∨
          (∀ k, heldTicket s = some k → PartClean s (197 + 2 * k.course)) →
        (s.ctl.mode = .lay → t.ctl = ([Role.fineX, .fineY, .fineZ, .fineW].filter fun r => !slotOf s.axis.slot r).foldl
          (fun c r => match entryOfRole r s with
            | some i => c.latch .missingSlot (BitVec.ofNat 32 i) s.clock.ms
            | none => c) s.ctl) ∧
        (s.ctl.mode ≠ .lay → t.ctl = s.ctl) ∧
        t = ((((arrived .up s).setRing t.ring).setAxis t.axis).setLay t.lay).setCtl t.ctl)

/-- R56, R57, R58, R62, with log entries 27 (the sign that a train's gate is still to be judged), 44 (a gate closed outright
reads no part), 52 and 53 (a pending request is made whatever K and the guard outcome have become): an outbound END arrival in
SETTLE, out of any hold, judges the gate open when the conditions of R56 hold and closed otherwise, or when no train's gate is
due any more; in a hold it judges none. An open gate counts and, from K on, captures and asks for OPEN; a closed one clears
the count and the request. OPEN is issued at a TRAIN arrival in LAY, in SETTLE, with the request pending, to a gripper that is
free. -/
def Obligations.SecondEndClosesTheGate : Prop :=
  (∀ (s : State) (dst src flags : Byte) (payload : BitVec 192), Synced .up s →
    (s.lay.phase = .settle → s.ctl.mode.held = false → s.lay.gateDue = false ∨ (∀ k ∈ s.track.tickets, k.state ≠ .held) →
      ∃ t, exec (.outboundEndArrival dst src flags payload) s = .next t ∧
        t.lay = { s.lay with gate := 0, openPending := false, gateDue := false }) ∧
    (s.ctl.mode.held = true →
      ∃ t, exec (.outboundEndArrival dst src flags payload) s = .next t ∧ t.lay = { s.lay with gateDue := false }) ∧
    (∀ (k : Ticket) (d : Part) (n : Nat) (isOpen : Prop),
      s.lay.phase = .settle → s.ctl.mode.held = false → s.lay.gateDue = true → heldTicket s = some k →
      PartClean s (197 + 2 * k.course) → d = peekPart s (197 + 2 * k.course) → n = min 255 (s.lay.gate + 1) →
      (isOpen ↔ s.line.state = .valid ∧ s.ctl.mode = .lay ∧
        (∀ r ∈ [Role.fineX, .fineY, .fineZ, .fineW], ∃ i last m, entryOfRole r s = some i ∧ s.ring.lastCycle = some last ∧
          (feedbackOf s i).stamp = some m ∧ (last - m).toNat ≤ 2) ∧
        (∃ x y z w, s.stab.err = ⟨some x, some y, some z, some w⟩ ∧ x.natAbs ≤ s.params.tolX ∧ y.natAbs ≤ s.params.tolY ∧
          z.natAbs ≤ s.params.tolZ ∧ w.natAbs ≤ s.params.tolW) ∧
        s.guard.outcome.noRelease = false ∧ s.axis.slot = ⟨true, true, true, true⟩ ∧ s.lay.asLaid.length < 64 ∧
        s.mgmt.unreadable.contains (197 + 2 * k.course + 1) = false ∧
        (field d 1 1 = 255 ∨ s.mgmt.unreadable.contains (37 + field d 1 1) = false ∧
          ((termHeld s (field d 1 1)).value = .isTrue ∨
            (termHeld s (field d 1 1)).value = .unknown ∧ (termHeld s (field d 1 1)).unknownAs = true))) →
      ∃ t, exec (.outboundEndArrival dst src flags payload) s = .next t ∧
        (isOpen → n < s.params.releaseK → t.lay = { s.lay with gateDue := false, gate := n }) ∧
        (isOpen → s.params.releaseK ≤ n → t.lay = { s.lay with
          gateDue := false, gate := n, openPending := true
          capture := some
            { x := s.stab.err.x.getD 0, y := s.stab.err.y.getD 0, z := s.stab.err.z.getD 0, w := s.stab.err.w.getD 0
              quality := match s.stab.used with | some u => u.2 | none => 0 } }) ∧
        (¬ isOpen → t.lay = { s.lay with gate := 0, openPending := false, gateDue := false }))) ∧
  (∀ (s : State) (asked : Prop),
    (asked ↔ s.ctl.mode = .lay ∧ s.line.state = .valid ∧ s.lay.phase = .settle ∧ s.lay.openPending = true) →
    (∀ k timeout, asked → heldTicket s = some k → (s.track.station .gripper).inflight = none →
      (s.track.station .gripper).stall = .none → Fitted s .gripper timeout →
      requestOpen s = (launched .openJaws k (BitVec.ofNat 32 k.lay) timeout (fun x => { x with state := .releasing }) s).setLay
        { s.lay with phase := .release, timer := none, openPending := false, heldRelease := false }) ∧
    (¬ asked ∨ heldTicket s = none ∨ (s.track.station .gripper).inflight ≠ none ∨
        (s.track.station .gripper).stall ≠ .none ∨ entryOfRole .gripper s = none → requestOpen s = s))

/-- R143, R145, R189, with log entry 54 (the first-fault detail of a STAT cell is 0 while there is no first fault): a return
END with the append opportunity open lets one STAT cell, up to four REPLY cells and up to two ASLAID cells go ahead of it;
with it closed, nothing. Nothing else of the part changes. -/
def Obligations.ReturnEndAppendsThePartsCells : Prop :=
  ∀ (s : State) (dst src flags : Byte) (payload : BitVec 192) (cells : List Cell),
    Synced .down s → s.ring.txUp.queue.length ≤ 56 →
    cells = goodCell 127 s.ring.ownAddr 0x30 0 (statPayload (arrived .down s)) ::
      ((s.mgmt.replies.take 4).map (fun r => goodCell r.dst s.ring.ownAddr 0x21 0 (replyPayload r)) ++
        (s.lay.asLaid.take 2).map (fun r => goodCell 127 s.ring.ownAddr 0x31 0 (asLaidPayload r)) ++
        [goodCell dst src 0x02 flags payload]) →
    (s.ring.append = true →
      exec (.returnEndArrival dst src flags payload) s = .next ((((arrived .down s).setRing
        { (arrived .down s).ring with
          txUp := { s.ring.txUp with queue := s.ring.txUp.queue ++ cells }, append := false }).setMgmt
        { s.mgmt with replies := s.mgmt.replies.drop 4 }).setLay { s.lay with asLaid := s.lay.asLaid.drop 2 })) ∧
    (s.ring.append = false → exec (.returnEndArrival dst src flags payload) s =
      .next (joined .up (goodCell dst src 0x02 flags payload) (arrived .down s)))

/-- R146, R184, R185: the train watchdog's expiry is counted once and stops it; out of STANDBY it latches STARVED; in GUARD and
LAY it brings HOLD, in HOLD it is recorded. Before its instant the command comes to nothing (log entry 30). -/
def Obligations.WatchdogExpiryStarves : Prop :=
  ∀ (s : State) (w : Word), s.ring.watchdog = some w →
    ((s.clock.us - w).toNat < 2147483648 → ∃ t, exec .trainWatchdogExpiry s = .next t ∧
      t.ring = { s.ring with watchdog := none, expiries := min 65535 (s.ring.expiries + 1) } ∧
      (s.ctl.mode = .standby → t = s.setRing t.ring) ∧
      (s.ctl.mode ≠ .standby → t.ctl.mode = .hold ∧ t.ctl.starved = true ∧ t.ctl.has .starved = true) ∧
      (s.ctl.mode = .hold → t.ctl.ret = s.ctl.ret ∧ t = (s.setRing t.ring).setCtl t.ctl) ∧
      (s.ctl.mode = .guard ∨ s.ctl.mode = .lay → t.ctl.holdN = true ∧ t.ctl.recovery = false ∧
        t.ctl.ret = some (if s.ctl.recovery then .guard else s.ctl.mode)) ∧
      (s.ctl.faults = 0 → s.ctl.mode ≠ .standby →
        t.ctl.first = some { kind := .starved, detail := s.ring.lastCycle.getD 0, ms := s.clock.ms })) ∧
    (2147483648 ≤ (s.clock.us - w).toNat → exec .trainWatchdogExpiry s = .next s)

/-! ### Setpoints and feedback -/

/-- R156, R152, R149, R136: while the mode is STANDBY or HOLD, or with its entry unreadable (found so before or by the read of
this cell), a coarse SET cell leaves in the hold form, and the position it carries becomes the last forwarded one; the entry
is read at each such cell, in a hold too, unless it is marked unreadable; a cell that finds the DOWN queue full is not
forwarded and leaves that position as it stood (log entry 19). -/
def Obligations.CoarseSetCellTakesTheHoldForm : Prop :=
  ∀ (s : State) (dst src flags : Byte) (position velocity : Word) (setFlags : Byte) (rest : BitVec 120) (crc : Word)
    (i : Nat) (e : AxisIdx) (p : Word) (t : State),
    Synced .up s →
    isGood { dst := dst, src := src, kind := 0x10, flags := flags,
             payload := setPayload position velocity setFlags rest, crc := crc } = true →
    entryOfAddr dst s = some (i, e) → e.role = .coarse →
    p = (if (feedbackOf s i).seen then (feedbackOf s i).actual else position) →
    t = (if axisUnreadable s i then arrived .up s else (readPart (axisPart i) (arrived .up s)).2) →
    (PartClean s (axisPart i) → t = arrived .up s) ∧
    (s.ctl.mode.held = true ∨ axisUnreadable s i = true ∨ (readPart (axisPart i) (arrived .up s)).1 = none →
      (HasPlace .down s →
        exec (.coarseSet dst src flags position velocity setFlags rest crc) s = .next
          (joined .down (goodCell dst src 0x10 flags (setPayload p 0 1 0))
            (t.setAxis { s.axis with lastFwd := s.axis.lastFwd.setIfInBounds i (some p) }))) ∧
      (¬ HasPlace .down s →
        exec (.coarseSet dst src flags position velocity setFlags rest crc) s = .next
          (t.setRing { (arrived .up s).ring with overflows := min 65535 (s.ring.overflows + 1) })))

/-- R157, R191: out of the hold form a coarse SET cell moves from the last forwarded position, or, with none, from the actual
position, by no more than the step in force; a limited cell carries velocity 0 and CONDITIONED. Its other SET flags are 0, and
its bytes 13 to 27 are kept (log entry 19). -/
def Obligations.CoarseSetCellMovesOneStepAtMost : Prop :=
  ∀ (s : State) (dst src flags : Byte) (position velocity : Word) (setFlags : Byte) (rest : BitVec 120) (crc : Word)
    (i : Nat) (e : AxisIdx) (step : Nat),
    Synced .up s → HasPlace .down s →
    isGood { dst := dst, src := src, kind := 0x10, flags := flags,
             payload := setPayload position velocity setFlags rest, crc := crc } = true →
    entryOfAddr dst s = some (i, e) → e.role = .coarse → s.ctl.mode.held = false → PartClean s (axisPart i) →
    step = (if s.guard.outcome.slow = true ∨ s.ctl.recovery = true then (axisRec (peekPart s (axisPart i))).b
      else (axisRec (peekPart s (axisPart i))).a) →
    (∀ b : Word, (s.axis.lastFwd[i]?.join = some b ∨
        s.axis.lastFwd[i]?.join = none ∧ (feedbackOf s i).seen = true ∧ (feedbackOf s i).actual = b) →
      ∃ p : Word, p.toInt = b.toInt + max (-(step : Int)) (min (step : Int) (position.toInt - b.toInt)) ∧
        exec (.coarseSet dst src flags position velocity setFlags rest crc) s = .next
          (joined .down
            (goodCell dst src 0x10 flags
              (if p = position then setPayload position velocity 0 rest else setPayload p 0 2 rest))
            ((arrived .up s).setAxis { s.axis with lastFwd := s.axis.lastFwd.setIfInBounds i (some p) }))) ∧
    (s.axis.lastFwd[i]?.join = none → (feedbackOf s i).seen = false →
      exec (.coarseSet dst src flags position velocity setFlags rest crc) s = .next
        (joined .down
          { dst := dst, src := src, kind := 0x10, flags := flags,
            payload := setPayload position velocity setFlags rest, crc := crc }
          ((arrived .up s).setAxis { s.axis with lastFwd := s.axis.lastFwd.setIfInBounds i (some position) })))

/-- R158, R82, R160: a SET cell of a fine axis leaves filled with the axis's command, and its slot is filled; its velocity is
the last change of the command in the train whose TRAIN cell arrived, and 0 in a cycle whose TRAIN cell was not received,
which the command tells; that train is over by its END or by a cell of a later cycle (log entry 35). With the entry unreadable
the cell passes unchanged (R152). -/
def Obligations.FineSetCellCarriesTheCommand : Prop :=
  ∀ (s : State) (dst src flags : Byte) (payload : BitVec 192) (crc : Word) (i : Nat) (e : AxisIdx) (r : Role)
    (trainSeen : Bool) (c cPrev v : Int) (q : Quad Bool),
    Synced .up s → HasPlace .down s →
    isGood { dst := dst, src := src, kind := 0x10, flags := flags, payload := payload, crc := crc } = true →
    entryOfAddr dst s = some (i, e) → e.role = r →
    (r = .fineX ∧ c = s.stab.c.x ∧ cPrev = s.stab.cPrev.x ∧ q = { s.axis.slot with x := true } ∨
      r = .fineY ∧ c = s.stab.c.y ∧ cPrev = s.stab.cPrev.y ∧ q = { s.axis.slot with y := true } ∨
      r = .fineZ ∧ c = s.stab.c.z ∧ cPrev = s.stab.cPrev.z ∧ q = { s.axis.slot with z := true } ∨
      r = .fineW ∧ c = s.stab.c.w ∧ cPrev = s.stab.cPrev.w ∧ q = { s.axis.slot with w := true }) →
    v = (if s.axis.trainOpen = true ∧ trainSeen = true then c - cPrev else 0) →
    (axisUnreadable s i = false →
      exec (.fineSet dst src flags ⟨payload, trainSeen⟩ crc) s = .next
        (joined .down
          (goodCell dst src 0x10 flags
            (setPayload (BitVec.ofInt 32 c) (BitVec.ofInt 32 v)
              (if s.ctl.mode.held then 1 else 0) 0))
          ((arrived .up s).setAxis { s.axis with slot := q, trainOpen := s.axis.trainOpen && trainSeen }))) ∧
    (axisUnreadable s i = true →
      exec (.fineSet dst src flags ⟨payload, trainSeen⟩ crc) s = .next
        (joined .down { dst := dst, src := src, kind := 0x10, flags := flags, payload := payload, crc := crc }
          ((arrived .up s).setAxis { s.axis with trainOpen := s.axis.trainOpen && trainSeen })))

/-- R159, R26, R152, with log entry 51 (a command that a RETRY reissued is in flight at once): a SET cell of a station leaves
filled with its command in flight, or NONE, in every mode; with the entry unreadable, or addressed to a SENSOR or to no entry,
it passes unchanged. -/
def Obligations.StationSetCellCarriesTheCommandInFlight : Prop :=
  ∀ (s : State) (dst src flags : Byte) (payload : BitVec 192) (crc : Word),
    Synced .up s → HasPlace .down s →
    isGood { dst := dst, src := src, kind := 0x10, flags := flags, payload := payload, crc := crc } = true →
    (∀ (i : Nat) (e : AxisIdx) (st : Station), entryOfAddr dst s = some (i, e) → e.role = stationRole st →
      axisUnreadable s i = false →
      (∀ fl, (s.track.station st).inflight = some fl →
        exec (.stationSet dst src flags payload crc) s = .next
          (joined .down
            (goodCell dst src 0x10 flags
              (packPayload [(4, fl.param.toNat), (1, fl.cmd.code), (1, fl.num), (2, 0), (1, if s.ctl.mode.held then 1 else 0)]))
            (arrived .up s))) ∧
      ((s.track.station st).inflight = none →
        exec (.stationSet dst src flags payload crc) s = .next
          (joined .down
            (goodCell dst src 0x10 flags (packPayload [(4, 0), (1, 0), (1, 0), (2, 0), (1, if s.ctl.mode.held then 1 else 0)]))
            (arrived .up s)))) ∧
    (entryOfAddr dst s = none ∨
        (∃ (i : Nat) (e : AxisIdx), entryOfAddr dst s = some (i, e) ∧
          (e.role = .sensor ∨ (∃ st, e.role = stationRole st) ∧ axisUnreadable s i = true)) →
      exec (.stationSet dst src flags payload crc) s = .next
        (joined .down { dst := dst, src := src, kind := 0x10, flags := flags, payload := payload, crc := crc }
          (arrived .up s)))

/-- R154, R142, R28, R29, R44, with log entries 15 (the entry is the one captured last) and 16 (the terms come before the report):
an FBK cell of a present, readable entry replaces that entry's feedback, all together, with the last cycle number as its stamp,
and is forwarded unchanged; any other FBK cell is forwarded and does nothing. Of a station, a FAULT report of the command in
flight stalls it and stops the timer; any other report that is no matching DONE leaves the command alone, and its brick-present
sensor is compared with the track at a station that is not stalled and not in transfer. -/
def Obligations.FeedbackIsCapturedWhole : Prop :=
  ∀ (s : State) (dst src flags : Byte) (actual : Word) (status aux0 aux1 aux2 aux3 : Half) (rest : BitVec 80),
    Synced .down s → HasPlace .up s →
    (∀ (i : Nat) (e : AxisIdx), entryOfAddr src s = some (i, e) → axisUnreadable s i = false →
      ∃ t, exec (.fbkCapture dst src flags actual status aux0 aux1 aux2 aux3 rest) s = .next t ∧
        t.ring = (joined .up (goodCell dst src 0x11 flags (fbkPayload actual status aux0 aux1 aux2 aux3 rest))
          (arrived .down s)).ring ∧
        t.axis = { s.axis with
          feedback := s.axis.feedback.setIfInBounds i
            { actual := actual, status := status, aux0 := aux0, aux1 := aux1, aux2 := aux2, aux3 := aux3,
              stamp := s.ring.lastCycle, seen := true }
          recent := i :: s.axis.recent.filter (fun j => j != i) } ∧
        t.stab = s.stab ∧ t.params = s.params ∧ t.clock = s.clock ∧ t.pins = s.pins ∧ t.mgmt.replies = s.mgmt.replies ∧
        (e.role.station = none → t.track = s.track ∧ t.plan = s.plan ∧ t.lay.asLaid = s.lay.asLaid) ∧
        ∀ (st : Station) (r : StationRec) (matched fault done compared disagrees calm : Prop),
          e.role = stationRole st → r = s.track.station st →
          (matched ↔ ∃ fl, r.inflight = some fl ∧ fl.num = aux0.toNat % 256) →
          (fault ↔ matched ∧ status.toNat % 4 = 3 ∧ (r.stall = .none ∨ r.stall = .timeout)) →
          (done ↔ matched ∧ status.toNat % 4 = 2 ∧ r.stall ≠ .fault) →
          (compared ↔ r.stall = .none ∧ ∀ x fl, (s.track.station x).inflight = some fl →
            st ∉ fl.cmd.touches (match s.track.find fl.ticket with | some k => k.pos | none => x)) →
          (disagrees ↔ (status.getLsbD 2 = true ↔ standsFree s st)) →
          (calm ↔ ∀ j < 32, 2 ≤ (termRec (peekPart s (37 + j))).kind ∨ (termRec (peekPart s (37 + j))).axis ≠ i) →
          (fault →
            t.track = s.track.setStation st
              { r with stall := .fault, inflight := r.inflight.map fun fl => { fl with timer := false } } ∧
            t.ctl.has .stationFault = true ∧
            (calm → t.ctl = s.ctl.latch .stationFault (BitVec.ofNat 32 (stationCode st)) s.clock.ms)) ∧
          (¬ fault → ¬ done → compared → disagrees →
            t.track = s.track.setStation st { r with stall := .mismatch } ∧ t.ctl.has .trackMismatch = true ∧
            (calm → t.ctl = s.ctl.latch .trackMismatch (BitVec.ofNat 32 (stationCode st)) s.clock.ms)) ∧
          (¬ fault → ¬ done → ¬ compared ∨ ¬ disagrees → t.track = s.track ∧ (calm → t.ctl = s.ctl)) ∧
          (¬ done → t.plan = s.plan ∧ t.lay.asLaid = s.lay.asLaid)) ∧
    (entryOfAddr src s = none ∨ (∃ (i : Nat) (e : AxisIdx), entryOfAddr src s = some (i, e) ∧ axisUnreadable s i = true) →
      exec (.fbkCapture dst src flags actual status aux0 aux1 aux2 aux3 rest) s = .next
        (joined .up (goodCell dst src 0x11 flags (fbkPayload actual status aux0 aux1 aux2 aux3 rest)) (arrived .down s)))

/-! ### The brick track -/

/-- R28, R32, R35, R36: the matching DONE of FEED_ONE, GLUE, LOAD and DELIVER ends the command and moves its ticket on; GLUE
DONE starts its open time. -/
def Obligations.DoneMovesTheTicketOn : Prop :=
  ∀ (s : State) (cmd : Cmd) (src echo : Byte) (brick : Bool) (measured : Word) (i : Nat) (k : Ticket) (f : Ticket → Ticket),
    Seen s src (stationRole cmd.station) i → Awaits s cmd echo k →
    (cmd = .feedOne ∧ (f = fun x => { x with pos := .feed, state := .atFeed }) ∨
      cmd = .glue ∧ (f = fun x => { x with pos := .glue, state := .atGlue, glueTime := some s.clock.ms }) ∨
      cmd = .load ∧ (f = fun x => { x with pos := .shuttle, state := .onShuttle }) ∨
      cmd = .deliver ∧ (f = fun x => { x with pos := .flipper, state := .atFlipper })) →
    ∃ t, exec (doneRow cmd src echo brick measured) s = .next t ∧ Completed cmd s t ∧
      t.track.tickets = s.track.tickets.map (fun x => if x.lay = k.lay then f x else x) ∧
      t.plan = s.plan ∧ t.lay.asLaid = s.lay.asLaid

/-- R37, R48, R50, R52, R53, R54, R55, R60: HANDOVER DONE makes the ticket HELD at the gripper and copies its target; in LAY,
from IDLE, the placement enters APPROACH at the hover height, the mode being that which the capture leaves (log entry 16). The
phases that follow, at each TRAIN arrival: the offset steps in DESCEND and LIFT, the entry to SETTLE with its timer, the return
to IDLE, and the verdict on reach and convergence, all of it in no hold with the tracker VALID. -/
def Obligations.HandoverDoneBeginsThePlacement : Prop :=
  (∀ (s : State) (src echo : Byte) (brick : Bool) (measured : Word) (i : Nat) (k : Ticket),
    Seen s src .flipper i → Awaits s .handover echo k →
    ∃ t, exec (.handoverDone src echo brick measured) s = .next t ∧ Completed .handover s t ∧
      t.track.tickets =
        s.track.tickets.map (fun x => if x.lay = k.lay then { x with pos := .gripper, state := .held } else x) ∧
      t.plan = s.plan ∧ t.lay.asLaid = s.lay.asLaid ∧ t.lay.target = (boundOf k.lay s).map (·.target) ∧
      (s.lay.phase = .idle → t.ctl.mode = .lay → t.lay.phase = .approach ∧ t.lay.oz = s.params.hover ∧ t.lay.gate = 0 ∧
        t.lay.settle = 0 ∧ t.lay.capture = none ∧ t.lay.openPending = false ∧ t.lay.heldRelease = false) ∧
      (s.lay.phase = .idle → t.ctl.mode ≠ .lay → t.lay.phase = .idle)) ∧
  (∀ (s : State) (l : Lay) (p : Params) (go near : Prop), l = s.lay → p = s.params →
    (go ↔ s.ctl.mode.held = false ∧ s.line.state = .valid) →
    (near ↔ ∃ x y z w, s.stab.e = ⟨some x, some y, some z, some w⟩ ∧ (x - s.stab.c.x).natAbs ≤ p.tolX ∧
      (y - s.stab.c.y).natAbs ≤ p.tolY ∧ (z - s.stab.c.z).natAbs ≤ p.tolZ ∧ (w - s.stab.c.w).natAbs ≤ p.tolW) →
    (l.phase = .idle → s.ctl.mode = .lay → (∃ k ∈ s.track.tickets, k.state = .held) →
      approachIfHeld s = s.setLay { l with phase := .approach, oz := p.hover, gate := 0, settle := 0, capture := none
                                           openPending := false, heldRelease := false, timer := none }) ∧
    (l.phase ≠ .idle ∨ s.ctl.mode ≠ .lay ∨ (∀ k ∈ s.track.tickets, k.state ≠ .held) → approachIfHeld s = s) ∧
    (l.phase = .settle → offsetStep s = s.setLay { l with settle := min 65535 (l.settle + 1) }) ∧
    (go → l.phase = .descend → p.descendStep < l.oz → offsetStep s = s.setLay { l with oz := l.oz - p.descendStep }) ∧
    (go → l.phase = .descend → l.oz ≤ p.descendStep →
      offsetStep s = s.setLay { l with phase := .settle, oz := 0, gate := 0, settle := 0, capture := none, openPending := false
                                       timer := some (s.clock.ms + BitVec.ofNat 32 p.settleTime) }) ∧
    (go → l.phase = .lift → l.oz + p.liftStep < p.hover → offsetStep s = s.setLay { l with oz := l.oz + p.liftStep }) ∧
    (go → l.phase = .lift → p.hover ≤ l.oz + p.liftStep →
      offsetStep s = s.setLay { l with phase := .idle, target := none, gate := 0, oz := p.hover }) ∧
    (l.phase ≠ .settle → ¬ go ∨ (l.phase ≠ .descend ∧ l.phase ≠ .lift) → offsetStep s = s) ∧
    (go → l.phase = .approach → s.ctl.mode = .lay → s.stab.reach = some true → near →
      layVerdict s = s.setLay { l with phase := .descend }) ∧
    (go → l.phase = .descend ∨ l.phase = .settle → s.stab.reach ≠ some true →
      layVerdict s = s.setLay { l with phase := .approach, oz := p.hover, gate := 0, settle := 0, timer := none
                                       capture := none, openPending := false }) ∧
    (¬ go ∨ (l.phase = .approach ∧ ¬ (s.ctl.mode = .lay ∧ s.stab.reach = some true ∧ near)) ∨
        ((l.phase = .descend ∨ l.phase = .settle) ∧ s.stab.reach = some true) ∨ l.phase = .idle ∨ l.phase = .release ∨
        l.phase = .lift → layVerdict s = s))

/-- R33, R42: CUT DONE records the measured length; a length out of tolerance rejects the ticket, and a STRICT one purges the
uncommitted tickets admitted after it. -/
def Obligations.CutDoneMeasuresAndRejects : Prop :=
  ∀ (s : State) (src echo : Byte) (brick : Bool) (measured : Word) (i : Nat) (k : Ticket) (m : List Ticket),
    Seen s src .saw i → Awaits s .cut echo k →
    m = s.track.tickets.map (fun x =>
      if x.lay = k.lay then { x with pos := .saw, state := .atSaw, measured := some measured.toInt } else x) →
    ∃ t, exec (.cutDone src echo brick measured) s = .next t ∧ Completed .cut s t ∧
      t.plan = s.plan ∧ t.lay.asLaid = s.lay.asLaid ∧
      ((measured.toInt - k.length * 10).natAbs ≤ s.params.lengthTol ∨ k.reject = true → t.track.tickets = m) ∧
      (s.params.lengthTol < (measured.toInt - k.length * 10).natAbs → k.reject = false →
        t.track.tickets =
          (if k.strict = true ∧ k.committed = false then
            purgeAfter k.lay (m.map (fun x => if x.lay = k.lay then { x with reject := true } else x))
          else m.map (fun x => if x.lay = k.lay then { x with reject := true } else x)))

/-- R17, R18, R19, R20, R14, R34, R38, R43, R118: an admission request tests the head of the queue in the order of R17, stalls
it with the fault of the first test that fails, and otherwise takes it off the queue and binds it with its target. EJECT DONE
and DROP DONE take the ticket off the track and return its bound record to the plan queue at the place of its lay number; the
reissue of a rejected or spoilt block that is not purged counts, and at the limit the record has FAILED. -/
def Obligations.DroppedBlockIsReissued : Prop :=
  (∀ (s : State) (cmd : Cmd) (src echo : Byte) (brick : Bool) (measured : Word) (i : Nat) (k : Ticket) (counts : Bool),
    Seen s src (stationRole cmd.station) i → Awaits s cmd echo k → (cmd = .eject ∨ cmd = .drop) →
    (counts = true ↔ (k.reject = true ∨ k.spoilt = true) ∧ k.purge = false) →
    ∃ t, exec (doneRow cmd src echo brick measured) s = .next t ∧ Completed cmd s t ∧
      t.track.tickets = s.track.tickets.filter (fun x => x.lay != k.lay) ∧ t.lay.asLaid = s.lay.asLaid ∧
      (boundOf k.lay s = none → t.plan = s.plan) ∧
      (∀ b n, boundOf k.lay s = some b → n = (if counts then min 15 (b.reissue + 1) else b.reissue) →
        t.plan = { s.plan with
          bound := s.plan.bound.filter (fun x => x.lay != k.lay)
          queue := insertByLay
            { lay := b.lay, course := b.course, failed := counts && decide (s.params.reissueLimit ≤ n), reissue := n,
              slot := b.slot } s.plan.queue })) ∧
  (∀ s : State, s.plan.queue = [] → admitHead s = (.none, s)) ∧
  (∀ (s : State) (e : QueueEntry) (es : List QueueEntry) (stalls : FaultKind → State), s.plan.queue = e :: es →
    (∀ f, stalls f = s.setCtl (s.ctl.latch f (BitVec.ofNat 32 e.lay) s.clock.ms)) →
    (e.failed = true → admitHead s = (.none, stalls .recordFailed)) ∧
    (e.failed = false → TwoBits s (709 + e.slot) →
      admitHead s = (.none, (stalls .planEcc).setMgmt (countedBad s).mgmt)) ∧
    (e.failed = false → PartClean s (709 + e.slot) →
      partMarked s (197 + 2 * e.course) = true ∨ partMarked s (197 + 2 * e.course + 1) = true →
      ∃ t, admitHead s = (.none, t) ∧ t.ctl.has .courseAbsent = true ∧ t.plan = s.plan ∧ t.track = s.track) ∧
    (∀ (r : PlanRec) (c : CourseRec) (g : Target) (fits free : Prop) (active inside : Nat → Prop) (type : Nat → Nat),
      e.failed = false → PartClean s (709 + e.slot) → PartClean s (197 + 2 * e.course) →
      PartClean s (197 + 2 * e.course + 1) → r = planRec (peekPart s (709 + e.slot)) →
      c = courseRec (peekPart s (197 + 2 * e.course)) (peekPart s (197 + 2 * e.course + 1)) →
      (fits ↔ 0 ≤ r.dx ∧ r.dx ≤ (if c.g then c.extX * 4096 + 4095 else c.extX * 16 + 15 : Nat) ∧
        0 ≤ r.dy ∧ r.dy ≤ (if c.g then c.extY * 4096 + 4095 else c.extY * 16 + 15 : Nat)) →
      g = { x := max (-2147483648) (min 2147483647 (c.x + r.dx)), y := max (-2147483648) (min 2147483647 (c.y + r.dy)),
            z := c.z, w := r.yaw } →
      (∀ z, type z = ((peekPart s (69 + 2 * z)).extractLsb' 1 3).toNat) →
      (∀ z, active z ↔ z < 64 ∧ (peekPart s (69 + 2 * z)).getLsbD 0 = true ∧ z ∉ s.guard.suspended ∧
        (field (peekPart s (69 + 2 * z)) 1 1 = 255 ∨ resolve true s (field (peekPart s (69 + 2 * z)) 1 1) = true)) →
      (∀ z, inside z ↔ ∃ b, b = (zoneRec (peekPart s (69 + 2 * z)) (peekPart s (69 + 2 * z + 1))).box ∧
        b.lo.x ≤ g.x ∧ g.x ≤ b.hi.x ∧ b.lo.y ≤ g.y ∧ g.y ≤ b.hi.y ∧ b.lo.z ≤ g.z ∧ g.z ≤ b.hi.z) →
      (free ↔ (∀ z, active z → inside z → type z ≠ 1 ∧ type z ≠ 4) ∧
        ((∃ z, active z ∧ type z = 2) → ∃ z, active z ∧ type z = 2 ∧ inside z)) →
      (c.present = false → admitHead s = (.none, stalls .courseAbsent)) ∧
      (c.present = true → ¬ fits → admitHead s = (.none, stalls .recordLimit)) ∧
      (c.present = true → fits → (∀ n, 69 ≤ n → n < 197 → PartClean s n) → ¬ free →
        admitHead s = (.none, stalls .targetInZone)) ∧
      (c.present = true → fits → (∃ n, 69 ≤ n ∧ n < 197 ∧ n ∈ s.guard.poisoned) →
        ∃ t, admitHead s = (.none, t) ∧ t.ctl.has .targetInZone = true ∧ t.plan = s.plan ∧ t.track = s.track) ∧
      (c.present = true → fits → (∀ n, 69 ≤ n → n < 197 → PartClean s n) → free → layRising s.plan.queue →
        admitHead s = (.bound e r g, s.setPlan { s.plan with
          queue := es
          bound := s.plan.bound ++
            [{ lay := e.lay, course := e.course, reissue := e.reissue, slot := e.slot, target := g }] }))))

/-- R39, R59, R65, R21, R3, with log entry 16 (the terms are evaluated before the report is taken, so a hold that this capture
brings finds the release in flight): OPEN DONE lays the block: the ticket leaves the track, its record leaves the plan store and
its course's count falls, the as-laid record of the capture joins its queue, and the phase becomes LIFT with offset 0. -/
def Obligations.OpenDoneLaysTheBlock : Prop :=
  ∀ (s : State) (src echo : Byte) (brick : Bool) (measured : Word) (i : Nat) (k : Ticket) (c : Capture),
    Seen s src .gripper i → Awaits s .openJaws echo k → s.lay.capture = some c →
    ∃ t, exec (.openDone src echo brick measured) s = .next t ∧ Completed .openJaws s t ∧
      t.track.tickets = s.track.tickets.filter (fun x => x.lay != k.lay) ∧
      t.lay.phase = .lift ∧ t.lay.oz = 0 ∧ t.lay.heldRelease = false ∧ t.lay.target = s.lay.target ∧
      t.lay.asLaid = s.lay.asLaid ++
        [{ lay := k.lay, course := k.course, ticket := k.num,
           x := max (-32767) (min 32767 c.x), y := max (-32767) (min 32767 c.y), z := max (-32767) (min 32767 c.z), w := c.w,
           settle := s.lay.settle, quality := c.quality, slowSettle := k.slow, lateAdhesive := k.spoilt,
           heldRelease := s.lay.heldRelease || (!s.ctl.mode.held && t.ctl.mode.held && s.lay.phase == .release),
           unconfirmed := false, reissued := decide (0 < k.reissue) }] ∧
      (boundOf k.lay s = none → t.plan = s.plan) ∧
      (∀ b, boundOf k.lay s = some b →
        t.plan = { s.plan with
          bound := s.plan.bound.filter (fun x => x.lay != k.lay)
          refs := s.plan.refs.setIfInBounds b.course (refCount s b.course - 1) })

/-- R30, R31, R32, R33, R34, R35, R36, R37, R38, R39: the issue of the station commands at a TRAIN arrival, station by station
(with both due the SHUTTLE takes DELIVER, log entry 14; FEED's axis part is read before the admission, log entry 37), and none
in STANDBY and HOLD; each goes in flight with its timer started. The command timer's expiry at a station without a stall cause
stalls it with TIMEOUT and latches its fault; the command stays in flight. Before the expiry, and with no command in flight, the
command comes to nothing (log entry 30). -/
def Obligations.CommandTimerStallsTheStation : Prop :=
  (∀ (s : State) (st : Station),
    ((s.track.station st).inflight = none → exec (.stationTimeout st) s = .next s) ∧
    (∀ fl, (s.track.station st).inflight = some fl →
      (fl.timer = true → (s.clock.ms - (fl.issued + BitVec.ofNat 32 fl.timeout)).toNat < 2147483648 →
        ((s.track.station st).stall = .none →
          ∃ t, exec (.stationTimeout st) s = .next t ∧
            t.track.station st = { s.track.station st with
              stall := .timeout, inflight := some { fl with timer := false } } ∧
            (∀ x, x ≠ st → t.track.station x = s.track.station x) ∧ t.track.tickets = s.track.tickets ∧
            t.track.counter = s.track.counter ∧
            t.ctl = s.ctl.latch .stationTimeout (BitVec.ofNat 32 (stationCode st)) s.clock.ms ∧
            t = (s.setTrack t.track).setCtl t.ctl) ∧
        ((s.track.station st).stall ≠ .none →
          ∃ t, exec (.stationTimeout st) s = .next t ∧
            t.track.station st = { s.track.station st with inflight := some { fl with timer := false } } ∧
            (∀ x, x ≠ st → t.track.station x = s.track.station x) ∧ t.track.tickets = s.track.tickets ∧
            t.track.counter = s.track.counter ∧ t = s.setTrack t.track)) ∧
      (fl.timer = false ∨ 2147483648 ≤ (s.clock.ms - (fl.issued + BitVec.ofNat 32 fl.timeout)).toNat →
        exec (.stationTimeout st) s = .next s))) ∧
  (∀ s : State, s.ctl.mode.held = true →
    issueFeed s = s ∧ issueSaw s = s ∧ issueGlue s = s ∧ issueShuttle s = s ∧ issueFlipper s = s ∧ requestOpen s = s) ∧
  (∀ s : State,
    (¬ standsFree s .feed ∨ 9 ≤ s.track.tickets.length ∨ ¬ MayIssue s .feedOne .feed ∨ entryOfRole .feed s = none →
      issueFeed s = s) ∧
    (∀ timeout u, standsFree s .feed → s.track.tickets.length < 9 → MayIssue s .feedOne .feed → Fitted s .feed timeout →
      (admitHead s = (.none, u) → issueFeed s = u) ∧
      (∀ e r g k, admitHead s = (.bound e r g, u) →
        k = { num := s.track.counter + 1, lay := e.lay, course := e.course, strict := r.order == 1, cut := r.cut == 1
              glue := r.glue, length := r.length, reissue := e.reissue, pos := .feed, state := .feeding, reject := false
              spoilt := false, purge := false, measured := none, glueTime := none, slow := false } →
        issueFeed s = launched .feedOne k (BitVec.ofNat 32 e.lay) timeout id
          (u.setTrack { u.track with tickets := s.track.tickets ++ [k], counter := s.track.counter + 1 })))) ∧
  (∀ (s : State) (eject cut : Ticket → Prop),
    (∀ k, eject k ↔ standsFirst s .saw k ∧ k.state = .atSaw ∧ (k.reject = true ∨ k.purge = true) ∨
      standsFree s .saw ∧ standsFirst s .feed k ∧ k.state = .atFeed ∧ k.purge = true) →
    (∀ k, cut k ↔ standsFree s .saw ∧ standsFirst s .feed k ∧ k.state = .atFeed ∧ k.reject = false ∧ k.spoilt = false ∧
      k.purge = false) →
    (∀ k, eject k → Issues .eject k (BitVec.ofNat 32 k.lay) id s (issueSaw s)) ∧
    (∀ k, cut k → Issues .cut k (if k.cut then BitVec.ofNat 32 (k.length * 10) else 0) (fun x => { x with state := .cutting })
      s (issueSaw s)) ∧
    ((∀ k, ¬ eject k ∧ ¬ cut k) → issueSaw s = s)) ∧
  (∀ (s : State) (glue : Ticket → Prop),
    (∀ k, glue k ↔ standsFree s .glue ∧ standsFirst s .saw k ∧ k.state = .atSaw ∧ k.reject = false ∧ k.spoilt = false ∧
      k.purge = false) →
    (∀ k, glue k → Issues .glue k (BitVec.ofNat 32 k.glue) (fun x => { x with state := .gluing }) s (issueGlue s)) ∧
    ((∀ k, ¬ glue k) → issueGlue s = s)) ∧
  (∀ (s : State) (deliver load : Ticket → Prop),
    (∀ k, deliver k ↔ standsFirst s .shuttle k ∧ standsFree s .flipper) →
    (∀ k, load k ↔ standsFirst s .glue k ∧ k.state = .atGlue ∧ (s.track.at .shuttle).length < 4) →
    (∀ k, deliver k → Issues .deliver k (BitVec.ofNat 32 k.lay) (fun x => { x with state := .delivering }) s (issueShuttle s)) ∧
    (∀ k, (∀ x, ¬ deliver x) → load k →
      Issues .load k (BitVec.ofNat 32 k.lay) (fun x => { x with state := .loading }) s (issueShuttle s)) ∧
    ((∀ k, ¬ deliver k ∧ ¬ load k) → issueShuttle s = s)) ∧
  (∀ (s : State) (drop handover : Ticket → Prop),
    (∀ k, drop k ↔ standsFirst s .flipper k ∧ k.state = .atFlipper ∧ (k.spoilt = true ∨ k.purge = true)) →
    (∀ k, handover k ↔ standsFirst s .flipper k ∧ k.state = .atFlipper ∧ k.reject = false ∧ k.spoilt = false ∧
      k.purge = false ∧ standsFree s .gripper ∧ s.lay.phase = .idle ∧
      ∃ g, k.glueTime = some g ∧ s.params.reserve ≤ s.params.openTime - (s.clock.ms - g).toNat) →
    (∀ k, drop k → Issues .drop k (BitVec.ofNat 32 k.lay) id s (issueFlipper s)) ∧
    (∀ k, handover k →
      Issues .handover k (BitVec.ofNat 32 k.lay) (fun x => { x with state := .handingOver }) s (issueFlipper s)) ∧
    ((∀ k, ¬ drop k ∧ ¬ handover k) → issueFlipper s = s))

/-- R38, R40, R42, R55: with its open time run out a ticket becomes SPOILT, and a STRICT one purges the uncommitted tickets
admitted after it; before that, for a ticket SPOILT already, not yet glued or not on the track, nothing changes. A ticket
AT_FLIPPER whose remaining open time is below the reserve becomes SPOILT at a TRAIN arrival in the same way. The settle timer's
expiry in SETTLE latches PLACE_TIMEOUT with the HELD ticket's lay number, marks the ticket SLOW_SETTLE and stops the timer; the
phase goes on. With no timer running, in another phase or before the expiry nothing changes. -/
def Obligations.PlacementTimersMarkTheTicket : Prop :=
  ∀ (s : State) (num : Half) (k : Ticket) (spoils : State),
    spoils = s.setTrack { s.track with
      tickets :=
        if k.strict = true ∧ k.committed = false then
          purgeAfter k.lay (s.track.tickets.map (fun x => if x.lay = k.lay then { x with spoilt := true } else x))
        else s.track.tickets.map (fun x => if x.lay = k.lay then { x with spoilt := true } else x) } →
    ((∀ x ∈ s.track.tickets, x.num ≠ num) → exec (.openTimeExpiry num) s = .next s) ∧
    (∀ g, s.track.tickets.filter (fun x => x.num = num) = [k] → s.track.find k.lay = some k →
      k.glueTime = some g → k.spoilt = false → s.params.openTime ≤ (s.clock.ms - g).toNat →
      exec (.openTimeExpiry num) s = .next spoils) ∧
    (s.track.tickets.Pairwise (fun a b => a.lay ≠ b.lay) →
      (∀ x ∈ s.track.tickets, x.num = num → x.glueTime = none ∨ x.spoilt = true ∨
        (∃ g, x.glueTime = some g ∧ (s.clock.ms - g).toNat < s.params.openTime)) →
      exec (.openTimeExpiry num) s = .next s) ∧
    (∀ g, standsFirst s .flipper k → k.state = .atFlipper → k.glueTime = some g → k.spoilt = false →
      s.params.openTime - (s.clock.ms - g).toNat < s.params.reserve → spoilAtFlipper s = spoils) ∧
    (standsFree s .flipper ∨ (standsFirst s .flipper k ∧ (k.state ≠ .atFlipper ∨ k.spoilt = true ∨ k.glueTime = none ∨
        ∃ g, k.glueTime = some g ∧ s.params.reserve ≤ s.params.openTime - (s.clock.ms - g).toNat)) →
      spoilAtFlipper s = s) ∧
    (∀ w x, s.lay.timer = some w → s.lay.phase = .settle → (s.clock.ms - w).toNat < 2147483648 → heldTicket s = some x →
      exec .placeTimeout s = .next
        (((s.setLay { s.lay with timer := none }).setTrack { s.track with
          tickets := s.track.tickets.map (fun y => if y.lay = x.lay then { y with slow := true } else y) }).setCtl
          (s.ctl.latch .placeTimeout (BitVec.ofNat 32 x.lay) s.clock.ms))) ∧
    (s.lay.timer = none ∨ s.lay.phase ≠ .settle ∨ (∃ w, s.lay.timer = some w ∧ 2147483648 ≤ (s.clock.ms - w).toNat) →
      exec .placeTimeout s = .next s)

/-! ### The tracker line -/

/-- R87, R88, R89, with log entry 21 (a character shows that a line found at space at a power-on reset is back at mark, so no
break is due any more): what one character on TRK_RXD does to the frame assembler; a wrong stop bit is a framing error, and a
frame it abandons a discard. In the loop test and during a break no character is taken. -/
def Obligations.CharacterMovesTheAssembler : Prop :=
  ∀ (s : State) (data : Byte) (parity stop flag : Bool) (l : Line), l = { s.line with breakDue := none } →
    (flag = true ↔ s.params.parity = 1 ∧ oddOnes data ≠ parity ∨ 2 ≤ s.params.parity ∧ oddOnes data = parity) →
    (s.params.trkLoop = true → exec (.characterReceive data parity stop) s = .next s) ∧
    (s.params.trkLoop = false → s.line.inBreak = true →
      exec (.characterReceive data parity stop) s = .next (s.setLine l)) ∧
    (s.params.trkLoop = false → s.line.inBreak = false → stop = false →
      (l.asm.state = .hunt →
        exec (.characterReceive data parity stop) s = .next (s.setLine { l with
          count := { l.count with framing := min 65535 (l.count.framing + 1) } })) ∧
      (l.asm.state ≠ .hunt →
        exec (.characterReceive data parity stop) s = .next (s.setLine { l with
          asm := { state := .hunt, parityBad := false, body := [], crcHigh := none }
          count := { l.count with
            framing := min 65535 (l.count.framing + 1), discards := min 65535 (l.count.discards + 1) } }))) ∧
    (s.params.trkLoop = false → s.line.inBreak = false → stop = true →
      (l.asm.state = .hunt → data = 0xB6 ∧ flag = false →
        exec (.characterReceive data parity stop) s = .next (s.setLine { l with
          asm := { state := .length, parityBad := false, body := [], crcHigh := none } })) ∧
      (l.asm.state = .hunt → data ≠ 0xB6 ∨ flag = true →
        exec (.characterReceive data parity stop) s = .next (s.setLine l)) ∧
      (l.asm.state = .length → data = 20 →
        exec (.characterReceive data parity stop) s = .next (s.setLine { l with
          asm := { l.asm with state := .body, parityBad := l.asm.parityBad || flag } })) ∧
      (l.asm.state = .length → data ≠ 20 →
        exec (.characterReceive data parity stop) s = .next (s.setLine { l with
          asm := { state := .hunt, parityBad := false, body := [], crcHigh := none }
          count := { l.count with
            lengthErr := min 65535 (l.count.lengthErr + 1), discards := min 65535 (l.count.discards + 1) } })) ∧
      (l.asm.state = .body →
        exec (.characterReceive data parity stop) s = .next (s.setLine { l with
          asm := { l.asm with
            state := if l.asm.body.length + 1 < 20 then .body else .check
            parityBad := l.asm.parityBad || flag
            body := l.asm.body ++ [data] } })) ∧
      (l.asm.state = .check → l.asm.crcHigh = none →
        exec (.characterReceive data parity stop) s = .next (s.setLine { l with
          asm := { l.asm with crcHigh := some data, parityBad := l.asm.parityBad || flag } })))

/-- R90, R91, R92, with log entry 21 (its characters end the wait for the break of a line found at space): a whole sample frame
on a quiet line: a wrong parity bit and a wrong CRC discard it; a frame that completes correctly sets the last sequence number,
counting a gap, and a candidate that is not ready, not locked, of too low a quality or of an impossible yaw is ignored. -/
def Obligations.SampleFrameIsCheckedAndIgnored : Prop :=
  ∀ (s : State) (seq latency : Half) (x y z : Word) (yaw : Half) (quality status : Byte) (crc : Half) (bad : Bool)
    (l : Line),
    s.params.trkLoop = false → s.line.inBreak = false → s.line.asm.state = .hunt →
    l = { s.line with
      breakDue := none, asm := { state := .hunt, parityBad := false, body := [], crcHigh := none } } →
    (bad = true → s.params.parity ≠ 0 →
      exec (.sampleFrameComplete seq latency x y z yaw quality status crc bad) s = .next (s.setLine { l with
        count := { l.count with
          discards := min 65535 (l.count.discards + 1), parityBad := min 65535 (l.count.parityBad + 1) } })) ∧
    (bad = false ∨ s.params.parity = 0 →
      crc16 (20 :: sampleBody seq latency x y z yaw quality status) ≠ crc →
      exec (.sampleFrameComplete seq latency x y z yaw quality status crc bad) s = .next (s.setLine { l with
        count := { l.count with
          discards := min 65535 (l.count.discards + 1), crcErr := min 65535 (l.count.crcErr + 1) } })) ∧
    (bad = false ∨ s.params.parity = 0 →
      crc16 (20 :: sampleBody seq latency x y z yaw quality status) = crc →
      s.pins.trkReady = false ∨ status.getLsbD 0 = false ∨ quality.toNat < s.params.minQuality ∨ 36000 ≤ yaw.toNat →
      exec (.sampleFrameComplete seq latency x y z yaw quality status crc bad) s = .next (s.setLine { l with
        lastSeq := some seq
        count := { l.count with
          seqGaps := if s.line.lastSeq = none ∨ s.line.lastSeq = some (seq - 1) then l.count.seqGaps
            else min 65535 (l.count.seqGaps + 1)
          ignored := min 65535 (l.count.ignored + 1) } }))

/-- R93, R94, R95, R96, R97, with log entries 2 (expiries in one event) and 42 (the gate count also in RELEASE and in a hold): a
sample frame whose candidate is not ignored. With the tracker NONE or LOST it is accepted. In VALID or STALE a candidate within
the jump limit of the extrapolated current sample is accepted, one beyond it is rejected, and the third in a row is a re-anchor.
The state after an acceptance with neither expiry passed is VALID, and the terms get the tracker word. -/
def Obligations.SampleIsAcceptedOrRejected : Prop :=
  ∀ (s : State) (seq latency : Half) (x y z : Word) (yaw : Half) (quality status : Byte) (c : Sample) (jump : Bool),
    s.params.trkLoop = false → s.line.inBreak = false → s.line.asm.state = .hunt →
    s.pins.trkReady = true → status.getLsbD 0 = true → s.params.minQuality ≤ quality.toNat → yaw.toNat < 36000 →
    c = { seq := seq, x := x.toInt, y := y.toInt, z := z.toInt, w := yaw.toNat, lat := min 5000 latency.toNat,
          ta := s.clock.us, tm := s.clock.us - BitVec.ofNat 32 (min 5000 latency.toNat), quality := quality,
          status := status, used := false, reanchor := false } →
    (jump = true ↔ (s.line.state = .valid ∨ s.line.state = .stale) ∧
      ∃ k p a, s.line.cur = some k ∧ a = max 0 (min 20000 (c.tm - k.tm).toInt) ∧
        p = predict k (velocity k s.line.prev) a.toNat ∧
        (s.params.jumpLimit < (c.x - p.x).natAbs ∨ s.params.jumpLimit < (c.y - p.y).natAbs ∨
          s.params.jumpLimit < (c.z - p.z).natAbs)) →
    ∃ t, exec (.sampleFrameComplete seq latency x y z yaw quality status
        (crc16 (20 :: sampleBody seq latency x y z yaw quality status)) false) s = .next t ∧ Undisturbed s t ∧
      t.line.lastSeq = some seq ∧
      (jump = true → s.line.rejectRun < 2 →
        t.line.cur = s.line.cur ∧ t.line.prev = s.line.prev ∧ t.line.rejectRun = s.line.rejectRun + 1 ∧
        t.line.state = s.line.state ∧ t.line.staleAt = s.line.staleAt ∧ t.line.lostAt = s.line.lostAt ∧
        t.line.count.rejects = min 65535 (s.line.count.rejects + 1) ∧ t.terms = s.terms ∧ t.ctl = s.ctl ∧ t.lay = s.lay) ∧
      (jump = false ∨ 2 ≤ s.line.rejectRun →
        t.line.cur = some { c with reanchor := jump } ∧ t.line.prev = (if jump then none else s.line.cur) ∧
        t.line.rejectRun = 0 ∧
        t.line.staleAt = some (c.tm + BitVec.ofNat 32 s.params.staleAge) ∧
        t.line.lostAt = some (c.tm + BitVec.ofNat 32 s.params.lostAge) ∧
        t.line.count.reanchors = (if jump then min 65535 (s.line.count.reanchors + 1) else s.line.count.reanchors) ∧
        t.line.count.superseded = (if (∃ k, s.line.cur = some k ∧ k.used = false) then
          min 65535 (s.line.count.superseded + 1) else s.line.count.superseded) ∧
        t.terms.tracker = some { word := status ++ quality, stamp := s.ring.lastCycle } ∧
        ((s.clock.us - (c.tm + BitVec.ofNat 32 s.params.staleAge)).toNat ≥ 2147483648 →
          (s.clock.us - (c.tm + BitVec.ofNat 32 s.params.lostAge)).toNat ≥ 2147483648 →
          t.line.state = .valid ∧ t.ctl.conditions.tracker = false) ∧
        ((s.clock.us - (c.tm + BitVec.ofNat 32 s.params.staleAge)).toNat < 2147483648 →
          (s.clock.us - (c.tm + BitVec.ofNat 32 s.params.lostAge)).toNat ≥ 2147483648 →
          t.line.state = .stale ∧ (s.line.state ≠ .stale → t.lay.gate = 0 ∧ t.lay.openPending = false)) ∧
        ((s.clock.us - (c.tm + BitVec.ofNat 32 s.params.lostAge)).toNat < 2147483648 → t.line.state = .lost))

/-- R101, R90: in the loop test a whole REACQUIRE frame at the looped receiver counts as a loop frame; with its CRC disturbed it
is a CRC error, with a wrong parity bit a parity-bad frame. With no loop test, or nothing being sent, the command comes to
nothing. -/
def Obligations.LoopFrameIsCounted : Prop :=
  ∀ (s : State) (noise : Half) (bad : Bool),
    (∀ (f : TxFrame) (body : List Byte) (l : Line),
      s.params.trkLoop = true → s.line.sending = some f → f.fed = 0 → body.length = 12 →
      f.bytes = 0xB7 :: 12 :: (body ++ bytes16 (crc16 (12 :: body))) → s.line.asm.state = .hunt →
      l = { s.line with
        sending := some { f with fed := 16 }, asm := { state := .hunt, parityBad := false, body := [], crcHigh := none } } →
      (noise = 0 → bad = false ∨ s.params.parity = 0 →
        exec (.loopFrame noise bad) s = .next (s.setLine { l with
          count := { l.count with loopFrames := min 65535 (l.count.loopFrames + 1) } })) ∧
      (noise ≠ 0 → bad = false ∨ s.params.parity = 0 →
        exec (.loopFrame noise bad) s = .next (s.setLine { l with
          count := { l.count with
            discards := min 65535 (l.count.discards + 1), crcErr := min 65535 (l.count.crcErr + 1) } })) ∧
      (bad = true → s.params.parity ≠ 0 →
        exec (.loopFrame noise bad) s = .next (s.setLine { l with
          count := { l.count with
            discards := min 65535 (l.count.discards + 1), parityBad := min 65535 (l.count.parityBad + 1) } }))) ∧
    (s.params.trkLoop = false ∨ s.line.sending = none → exec (.loopFrame noise bad) s = .next s)

/-- R88, R97, R98, R101, with log entry 21 (the return to mark ends the wait for the break of a line found at space): a break is
counted, abandons a frame begun and makes the tracker LOST at once from any state; in the loop test, and during a break, none is
detected; its end changes nothing else. Each change of TRK_READY is counted; to inactive it makes the tracker LOST, to active it
changes no state; the level that stands already is no change. -/
def Obligations.BreakAndReadyLossLoseTheTracker : Prop :=
  ∀ s : State,
    (s.params.trkLoop = true ∨ s.line.inBreak = true → exec .lineBreak s = .next s) ∧
    (s.params.trkLoop = false → s.line.inBreak = false →
      ∃ t, exec .lineBreak s = .next t ∧ Undisturbed s t ∧ t.line.inBreak = true ∧ t.line.state = .lost ∧
        t.line.asm.state = .hunt ∧ t.line.count.breaks = min 65535 (s.line.count.breaks + 1) ∧
        t.line.count.discards = (if s.line.asm.state = .hunt then s.line.count.discards
          else min 65535 (s.line.count.discards + 1)) ∧
        (s.line.state ≠ .lost → BecomesLost 2 s t) ∧
        (s.line.state = .lost → t.ctl = s.ctl ∧ t.lay = s.lay)) ∧
    exec .lineBreakEnd s = .next (s.setLine { s.line with inBreak := false, breakDue := none }) ∧
    exec (.trkReadyChange s.pins.trkReady) s = .next s ∧
    (s.pins.trkReady = false →
      exec (.trkReadyChange true) s = .next ((s.setPins { s.pins with trkReady := true }).setLine { s.line with
        count := { s.line.count with readyChanges := min 65535 (s.line.count.readyChanges + 1) } })) ∧
    (s.pins.trkReady = true →
      ∃ t, exec (.trkReadyChange false) s = .next t ∧ t.pins = { s.pins with trkReady := false } ∧
        Undisturbed (s.setPins { s.pins with trkReady := false }) t ∧
        t.line.count.readyChanges = min 65535 (s.line.count.readyChanges + 1) ∧ t.line.state = .lost ∧
        (s.line.state ≠ .lost → BecomesLost 3 s t) ∧ (s.line.state = .lost → t.ctl = s.ctl ∧ t.lay = s.lay))

/-- R96, R97, R57, with log entry 42 (the gate count also in RELEASE and in a hold): the stale expiry in VALID makes the tracker
STALE and clears the gate count and the pending request; the lost expiry in VALID or STALE makes it LOST. Not yet reached, or in
another state, neither has an effect. -/
def Obligations.TrackerExpiriesAgeTheSample : Prop :=
  ∀ s : State,
    (∀ w, s.line.staleAt = some w → (s.clock.us - w).toNat < 2147483648 → s.line.state = .valid →
      ∃ t, exec .staleExpiry s = .next t ∧ Undisturbed s t ∧ t.line.state = .stale ∧ t.lay.gate = 0 ∧
        t.lay.openPending = false ∧ t.ctl.faults = s.ctl.faults ∧ t.line.cur = s.line.cur) ∧
    (s.line.state ≠ .valid ∨ s.line.staleAt = none ∨
        (∃ w, s.line.staleAt = some w ∧ 2147483648 ≤ (s.clock.us - w).toNat) →
      exec .staleExpiry s = .next s) ∧
    (∀ w, s.line.lostAt = some w → (s.clock.us - w).toNat < 2147483648 → s.line.state = .valid ∨ s.line.state = .stale →
      ∃ t, exec .lostExpiry s = .next t ∧ Undisturbed s t ∧ BecomesLost 1 s t ∧ t.line.cur = s.line.cur) ∧
    (s.line.state = .none ∨ s.line.state = .lost ∨ s.line.lostAt = none ∨
        (∃ w, s.line.lostAt = some w ∧ 2147483648 ≤ (s.clock.us - w).toNat) →
      exec .lostExpiry s = .next s)

/-- R99, R100, R193: 100 ms after the last one a running transmitter's next frame falls due, made from the predicted position as
it stands: it begins when nothing is being sent and otherwise replaces the pending frame. Otherwise the command comes to
nothing. -/
def Obligations.ReacquireFrameFallsDue : Prop :=
  ∀ (s : State) (d : Word) (body f : List Byte), s.line.lastDue = some d →
    (∀ p, s.stab.pNow = some p →
      body = bytes32 (BitVec.ofInt 32 p.x) ++ bytes32 (BitVec.ofInt 32 p.y) ++ bytes32 (BitVec.ofInt 32 p.z)) →
    (s.stab.pNow = none → body = List.replicate 12 0) →
    f = 0xB7 :: 12 :: (body ++ bytes16 (crc16 (12 :: body))) →
    (s.line.running = true → (s.clock.ms - (d + 100)).toNat < 2147483648 → s.line.sending = none →
      exec .reacquireDue s = .next (s.setLine { s.line with
        lastDue := some (d + 100), sending := some { bytes := f, begun := s.clock.us, fed := 0 } })) ∧
    (s.line.running = true → (s.clock.ms - (d + 100)).toNat < 2147483648 → s.line.sending ≠ none →
      exec .reacquireDue s = .next (s.setLine { s.line with lastDue := some (d + 100), waiting := some f })) ∧
    (s.line.running = false ∨ 2147483648 ≤ (s.clock.ms - (d + 100)).toNat → exec .reacquireDue s = .next s)

/-- R99, R100, R101: a frame sent whole on the external line is counted and the pending frame, if any, begins; before its 16
character times have passed, or with nothing being sent, the command comes to nothing. In the loop test the looped receiver takes
what is left of the frame sent, a loop frame, unless a LOOP_FRAME has brought it the whole frame before; and an idle step lets it
catch up with the characters sent whole by then (log entry 23). -/
def Obligations.SentFrameIsFollowedByThePending : Prop :=
  ∀ s : State,
    (∀ f, s.params.trkLoop = false → s.line.sending = some f → charsTime 16 s.params ≤ (s.clock.us - f.begun).toNat →
      exec .reacquireSent s = .next (s.setLine { s.line with
        sending := s.line.waiting.map (fun b => { bytes := b, begun := s.clock.us, fed := 0 })
        waiting := none
        count := { s.line.count with reacquireSent := min 65535 (s.line.count.reacquireSent + 1) } })) ∧
    (s.line.sending = none ∨
        (∃ f, s.line.sending = some f ∧ (s.clock.us - f.begun).toNat < charsTime 16 s.params) →
      exec .reacquireSent s = .next s) ∧
    (s.params.trkLoop = false ∨ s.line.sending = none → loopCatchUp s = s) ∧
    (∀ (f : TxFrame) (body : List Byte) (taken : Nat → Assembler) (next : Line),
      s.params.trkLoop = true → s.line.sending = some f → body.length = 12 →
      f.bytes = 0xB7 :: 12 :: (body ++ bytes16 (crc16 (12 :: body))) →
      (∀ n, taken n =
        { state := if n = 0 then .hunt else if n = 1 then .length else if n < 14 then .body else .check
          parityBad := false, body := body.take (n - 2), crcHigh := if n = 15 then f.bytes[14]? else none }) →
      next = { s.line with
        sending := s.line.waiting.map (fun b => { bytes := b, begun := s.clock.us, fed := 0 }), waiting := none } →
      (f.fed = 16 → charsTime 16 s.params ≤ (s.clock.us - f.begun).toNat →
        exec .reacquireSent s = .next (s.setLine { next with
          count := { s.line.count with reacquireSent := min 65535 (s.line.count.reacquireSent + 1) } })) ∧
      (f.fed < 16 → s.line.asm = taken f.fed → charsTime 16 s.params ≤ (s.clock.us - f.begun).toNat →
        exec .reacquireSent s = .next (s.setLine { next with
          asm := { state := .hunt, parityBad := false, body := [], crcHigh := none }
          count := { s.line.count with
            reacquireSent := min 65535 (s.line.count.reacquireSent + 1)
            loopFrames := min 65535 (s.line.count.loopFrames + 1) } })) ∧
      (∀ n, n = (s.clock.us - f.begun).toNat * baudOf s.params.rate / (charBits s.params.parity * 1000000) →
        f.fed ≤ n → n < 16 → s.line.asm = taken f.fed →
        loopCatchUp s = s.setLine { s.line with sending := some { f with fed := n }, asm := taken n }))

/-! ### Reading tables -/

/-- R169, R121, R132, R3, R16, R165: a READ of a clean part replies OK with its 16 bytes and the owner's flags: for a term its
value, for a zone both poisoned flags and the suspended flag, for a course part its reference count in the read-only field
(its unreadable flag being that of the addressed part, whatever the other part's, by log entry 17), for a queue position the
record's reissue count and state. Nothing else changes. -/
def Obligations.ReadReturnsTheAddressedPart : Prop :=
  ∀ (s : State) (who : Sender) (level : Nat) (part : BitVec 3) (index : Half), Heard s who level → level ≤ 2 →
    (index.toNat < 8 → part = 0 →
      exec (.read who 1 part index) s = .next (replied who 1 .ok 0 (peekPart s index.toNat) (arrived .up s))) ∧
    (index = 0 → part.toNat < 5 → PartClean s (8 + part.toNat) →
      exec (.read who 2 part index) s = .next (replied who 1 .ok 0 (peekPart s (8 + part.toNat)) (arrived .up s))) ∧
    (index.toNat < 24 → part = 0 → PartClean s (13 + index.toNat) →
      exec (.read who 3 part index) s = .next (replied who 1 .ok 0 (peekPart s (13 + index.toNat)) (arrived .up s))) ∧
    (index.toNat < 32 → part = 0 → PartClean s (37 + index.toNat) →
      exec (.read who 4 part index) s = .next (replied who 1 .ok
        (match (termHeld s index.toNat).value with | .isFalse => 0x00 | .isTrue => 0x10 | .unknown => 0x20)
        (peekPart s (37 + index.toNat)) (arrived .up s))) ∧
    (index.toNat < 64 → part.toNat < 2 → PartClean s (69 + 2 * index.toNat + part.toNat) →
      exec (.read who 5 part index) s = .next (replied who 1 .ok
        ((if s.guard.poisoned.contains (69 + 2 * index.toNat) then 1 else 0) |||
          (if s.guard.poisoned.contains (69 + 2 * index.toNat + 1) then 2 else 0) |||
          (if s.guard.suspended.contains index.toNat then 4 else 0))
        (peekPart s (69 + 2 * index.toNat + part.toNat)) (arrived .up s))) ∧
    (index.toNat < 256 → part.toNat < 2 → PartClean s (197 + 2 * index.toNat + part.toNat) →
      exec (.read who 6 part index) s = .next (replied who 1 .ok 0
        (peekPart s (197 + 2 * index.toNat + part.toNat) |||
          packPart (if part = 0 then [(2, 0), (2, refCount s index.toNat)] else [(8, 0), (2, refCount s index.toNat)]))
        (arrived .up s))) ∧
    (∀ e, s.plan.queue[index.toNat]? = some e → part = 0 → PartClean s (709 + e.slot) →
      exec (.read who 7 part index) s = .next (replied who 1 .ok
        (BitVec.ofNat 8 (e.reissue + if e.failed then 16 else 0)) (peekPart s (709 + e.slot)) (arrived .up s))) ∧
    (s.plan.queue.length ≤ index.toNat →
      exec (.read who 7 part index) s = .next (replied who 1 .badIndex 0 0 (arrived .up s)))

/-- R153, R173, R103, R147, R160, R188: a READ of AXIS part 1 returns the entry's feedback with its age in trains, one of PARAM
parts 5 to 7 the counters of its page. -/
def Obligations.ReadReturnsFeedbackAndCounters : Prop :=
  ∀ (s : State) (who : Sender) (level : Nat) (index : Half), Heard s who level → level ≤ 2 →
    (∀ f, index.toNat < 24 → feedbackOf s index.toNat = f →
      exec (.read who 3 1 index) s = .next (replied who 1 .ok
        (if s.mgmt.unreadable.contains (13 + index.toNat) then 1 else 0)
        (packPart [(4, f.actual.toNat), (2, f.status.toNat), (2, f.aux0.toNat), (2, f.aux1.toNat), (2, f.aux2.toNat),
          (2, f.aux3.toNat),
          (2, match f.seen, s.ring.lastCycle, f.stamp with
            | true, some n, some m => min 65535 (n - m).toNat
            | _, _, _ => 65535)]) (arrived .up s))) ∧
    (∀ l, l = s.line.count →
      exec (.read who 2 5 0) s = .next (replied who 1 .ok 0
        (packPart [(2, l.discards), (2, l.framing), (2, l.parityBad), (2, l.lengthErr), (2, l.crcErr), (2, l.seqGaps),
          (2, l.ignored), (2, l.rejects)]) (arrived .up s)) ∧
      exec (.read who 2 5 1) s = .next (replied who 1 .ok 0
        (packPart [(2, l.reanchors), (2, l.superseded), (2, l.breaks), (2, l.readyChanges), (2, l.reacquireSent),
          (2, l.loopFrames)]) (arrived .up s))) ∧
    (∀ r, r = (arrived .up s).ring →
      exec (.read who 2 6 0) s = .next (replied who 1 .ok 0
        (packPart [(1, 1), (1, if r.down.sync = .synced then 1 else 0), (2, r.up.good), (2, r.up.bad), (2, r.up.losses),
          (2, r.down.good), (2, r.down.bad), (2, r.down.losses), (2, r.overflows)]) (arrived .up s)) ∧
      exec (.read who 2 6 1) s = .next (replied who 1 .ok 0
        (packPart [(2, r.void), (2, r.gaps), (2, r.missed), (2, r.expiries), (2, s.axis.missing),
          (1, if r.lastCycle.isSome then 1 else 0), (1, 0), (4, (r.lastCycle.getD 0).toNat)]) (arrived .up s))) ∧
    exec (.read who 2 7 0) s = .next (replied who 1 .ok 0
      (packPart [(2, s.mgmt.corrected), (2, s.mgmt.uncorrectable), (2, s.mgmt.dropped), (2, s.mgmt.scrub),
        (2, s.mgmt.passes), (4, match s.ctl.first with | some f => f.ms.toNat | none => 0)]) (arrived .up s)) ∧
    (2 ≤ index.toNat → exec (.read who 2 5 index) s = .next (replied who 1 .badIndex 0 0 (arrived .up s)))

/-- R177, R169, R119, R128, R129, R172, R176, R178, R167, R183, R185: a READ that finds one bit in error in a word of an axis
entry returns the corrected part, writes it back with fresh check bits and counts it; two bits in error in a word make the entry
unreadable, latch TABLE_ECC with its index and reply MEMORY_ERROR without data, and a READ of an entry unreadable already
latches the fault again. A WRITE refused before any merge shows zeros for a part with such a word (log entry 12). What two bits
in error in a part mean to each owner, in every read: the entry unreadable, a term's value UNKNOWN (log entry 20), a zone part
poisoned, a PARAM part rebuilt, a used PLAN slot counted alone, a free one rewritten; the scrub is such a read, and a term's
evaluation with it, and a pass of it is counted at the read that follows the last PLAN slot (log entry 36). -/
def Obligations.ReadCorrectsOneBitAndReportsTwo : Prop :=
  (∀ (s : State) (who : Sender) (level : Nat) (index : Half) (n b c : Nat), Heard s who level → level ≤ 2 →
    MemoryCanonical s → index.toNat < 24 → n = 13 + index.toNat →
    (partMarked s n = false → wordFlips s.mem.flips (2 * n + 1) = [] → wordFlips s.mem.flips (2 * n) = [b] →
      ∃ t, exec (.read who 3 0 index) s = .next (replied who 1 .ok 0 (peekPart s n) t) ∧
        wordFlips t.mem.flips (2 * n) = [] ∧ (∀ w, w ≠ 2 * n → wordFlips t.mem.flips w = wordFlips s.mem.flips w) ∧
        (∀ m, peekPart t m = peekPart s m) ∧
        t.mgmt = { s.mgmt with corrected := min 65535 (s.mgmt.corrected + 1) } ∧
        t = ((arrived .up s).setMem t.mem).setMgmt t.mgmt) ∧
    (partMarked s n = false → wordFlips s.mem.flips (2 * n + 1) = [] → wordFlips s.mem.flips (2 * n) = [b, c] →
      exec (.read who 3 0 index) s = .next (replied who 1 .memoryError 1 0
        (((arrived .up s).setMgmt { s.mgmt with
          uncorrectable := min 65535 (s.mgmt.uncorrectable + 1), unreadable := setInsert n s.mgmt.unreadable }).setCtl
          (s.ctl.latch .tableEcc (BitVec.ofNat 32 index.toNat) s.clock.ms)))) ∧
    (s.mgmt.unreadable.contains n = true → wordFlips s.mem.flips (2 * n) = [] → wordFlips s.mem.flips (2 * n + 1) = [] →
      exec (.read who 3 0 index) s = .next (replied who 1 .memoryError 1 0
        (((arrived .up s).setMgmt { s.mgmt with unreadable := setInsert n s.mgmt.unreadable }).setCtl
          (s.ctl.latch .tableEcc (BitVec.ofNat 32 index.toNat) s.clock.ms)))) ∧
    (∀ mask data, level = 2 → TwoBits s n →
      exec (.writeAxis who 0 index mask data) s = .next (replied who 2 .refusedLevel 1 0
        (((arrived .up s).setMgmt { s.mgmt with
          uncorrectable := min 65535 (s.mgmt.uncorrectable + 1), unreadable := setInsert n s.mgmt.unreadable }).setCtl
          (s.ctl.latch .tableEcc (BitVec.ofNat 32 index.toNat) s.clock.ms))))) ∧
  (∀ (s : State) (n : Nat) (ecc : FaultKind → Nat → Ctl), TwoBits s n → MemoryCanonical s →
    (∀ f i, ecc f i = s.ctl.latch f (BitVec.ofNat 32 i) s.clock.ms) →
    (∀ i, n = i ∧ i < 8 ∨ n = 13 + i ∧ i < 24 ∨ (n = 197 + 2 * i ∨ n = 197 + 2 * i + 1) ∧ i < 256 →
      readPart n s = (none, ((countedBad s).setMgmt { (countedBad s).mgmt with
        unreadable := setInsert n s.mgmt.unreadable }).setCtl (ecc .tableEcc i))) ∧
    (∀ i, n = 37 + i → i < 32 →
      ∃ t, readPart n s = (none, t) ∧ Undisturbed s t ∧ t.mem = s.mem ∧
        t.mgmt = { (countedBad s).mgmt with unreadable := setInsert n s.mgmt.unreadable } ∧
        termHeld t i = { value := .unknown, unknownAs := false } ∧ (∀ j, j ≠ i → termHeld t j = termHeld s j) ∧
        t.ctl.faults = (ecc .tableEcc i).faults ∧ t.ctl.first = (ecc .tableEcc i).first ∧
        (s.params.holdTerm = i → t.ctl.conditions.term = true ∧ (s.ctl.mode.held = false → t.ctl.mode = .hold))) ∧
    (∀ z, (n = 69 + 2 * z ∨ n = 69 + 2 * z + 1) → z < 64 →
      ∃ t, readPart n s = (none, t) ∧ Undisturbed s t ∧ t.mem = s.mem ∧ t.mgmt = (countedBad s).mgmt ∧
        t.guard.poisoned = setInsert n s.guard.poisoned ∧ t.ctl.conditions.zoneEcc = true ∧
        t.ctl.faults = (ecc .zoneEcc z).faults ∧ t.ctl.first = (ecc .zoneEcc z).first ∧
        (s.ctl.mode.held = false → t.ctl.mode = .hold ∧ t.ctl.holdN = true ∧
          t.ctl.ret = some (if s.ctl.recovery then .guard else s.ctl.mode)) ∧
        (s.ctl.mode.held = true → t.ctl.mode = s.ctl.mode ∧ t.ctl.ret = s.ctl.ret)) ∧
    (∀ p, n = 8 + p → p < 5 →
      ∃ t, readPart n s = (some (paramImage p s.params), t) ∧ Stores n (paramImage p s.params) (countedBad s) t ∧
        t = ((countedBad s).setMem t.mem).setCtl (ecc .tableEcc p)) ∧
    (∀ k, n = 709 + k → k < 4105 →
      ((∃ q ∈ s.plan.queue, q.slot = k) ∨ (∃ b ∈ s.plan.bound, b.slot = k) → readPart n s = (none, countedBad s)) ∧
      ((∀ q ∈ s.plan.queue, q.slot ≠ k) → (∀ b ∈ s.plan.bound, b.slot ≠ k) →
        ∃ t, readPart n s = (some 0, t) ∧ Stores n 0 (countedBad s) t ∧ t = (countedBad s).setMem t.mem)) ∧
    (∀ i, n = 37 + i → i < 32 → s.mgmt.scrub = n → s.params.holdTerm = i → s.ctl.mode ≠ .standby →
      (scrubStep s).ctl.has .termHold = true)) ∧
  (∀ (s : State) (n : Nat) (t : State), s.mgmt.scrub = n → n < 37 ∨ 69 ≤ n → t = (readPart n s).2 →
    scrubStep s = t.setMgmt { t.mgmt with
      scrub := if n + 1 < 4814 then n + 1 else 0, passDue := decide (4814 ≤ n + 1)
      passes := if s.mgmt.passDue then min 65535 (s.mgmt.passes + 1) else s.mgmt.passes })

/-- R139, R163, R164, R165, R166: an operation of a code that the part does not know replies UNKNOWN_OP, a WRITE to a table
without a WRITE rule BAD_TABLE, at every effective level, showing zeros (for the PLAN table too, log entry 12), and neither
changes anything else. Before that, whatever the command: without room for its replies it is dropped and counted and does
nothing else, not even a read; a sender without an origin gets REFUSED_LEVEL, one that asks for a level above 2 BAD_VALUE, in
each of the replies that the operation makes, and nothing else changes. -/
def Obligations.UnknownOperationsAreAnswered : Prop :=
  (∀ (s : State) (who : Sender) (level : Nat) (op selector : Byte) (table : BitVec 4) (part : BitVec 3) (index mask : Half)
    (data : Part), Heard s who level →
    (op = 0 ∨ 15 ≤ op.toNat →
      exec (.unknownOp who op selector index mask data) s =
        .next (replied who op .unknownOp 0 0 (arrived .up s))) ∧
    (table = 0 ∨ 7 ≤ table.toNat →
      exec (.write who table part index mask data) s = .next (replied who 2 .badTable 0 0 (arrived .up s)))) ∧
  (∀ (s : State) (c : Instr) (who : Sender) (op : Byte) (k : Nat), Synced .up s → s.ring.ownAddr ≠ 0 →
    asks c = some (who, op, k) →
    (16 < s.mgmt.replies.length + k →
      exec c s = .next ((arrived .up s).setMgmt { s.mgmt with dropped := min 65535 (s.mgmt.dropped + 1) })) ∧
    (∀ code, s.mgmt.replies.length + k ≤ 16 → TableClean s →
      (originOf s who.src = none ∧ code = .refusedLevel ∨
        (originOf s who.src).isSome = true ∧ 2 < who.level.toNat ∧ code = .badValue) →
      ∃ l : List Reply, l.length = k ∧
        (∀ p ∈ l, p.dst = who.src ∧ p.tag = who.tag ∧ p.op = op ∧ p.code = code) ∧
        exec c s = .next ((arrived .up s).setMgmt { s.mgmt with replies := s.mgmt.replies ++ l })))

/-- R170, R2, R121, R106: a PROBE of a course or a zone with clean parts makes two replies of one code and one status: the
accessible flag with the minimum corner, then with the maximum corner, saturated; an index outside the table replies BAD_INDEX
twice. -/
def Obligations.ProbeReturnsBothCorners : Prop :=
  ∀ (s : State) (who : Sender) (level : Nat) (index : Half) (two : ReplyCode → Byte → Part → Part → State),
    Heard s who level → level ≤ 2 →
    (two = fun code status lo hi => (arrived .up s).setMgmt { s.mgmt with
      replies := s.mgmt.replies ++
        [{ dst := who.src, tag := who.tag, op := 3, code := code, status := status, second := false, data := lo },
         { dst := who.src, tag := who.tag, op := 3, code := code, status := status, second := true, data := hi }] }) →
    (∀ c : CourseRec, index.toNat < 256 → PartClean s (197 + 2 * index.toNat) → PartClean s (197 + 2 * index.toNat + 1) →
      c = courseRec (peekPart s (197 + 2 * index.toNat)) (peekPart s (197 + 2 * index.toNat + 1)) →
      exec (.probe who 6 index) s = .next (two .ok (if c.present then 1 else 0)
        (packPart [(4, (BitVec.ofInt 32 c.x).toNat), (4, (BitVec.ofInt 32 c.y).toNat), (4, (BitVec.ofInt 32 c.z).toNat)])
        (packPart [(4, (BitVec.ofInt 32
            (min 2147483647 (c.x + if c.g then c.extX * 4096 + 4095 else c.extX * 16 + 15))).toNat),
          (4, (BitVec.ofInt 32 (min 2147483647 (c.y + if c.g then c.extY * 4096 + 4095 else c.extY * 16 + 15))).toNat),
          (4, (BitVec.ofInt 32 c.z).toNat)]))) ∧
    (∀ z : ZoneRec, index.toNat < 64 → PartClean s (69 + 2 * index.toNat) → PartClean s (69 + 2 * index.toNat + 1) →
      z = zoneRec (peekPart s (69 + 2 * index.toNat)) (peekPart s (69 + 2 * index.toNat + 1)) →
      exec (.probe who 5 index) s = .next (two .ok (if z.present = true ∧ level ≤ z.dpl then 1 else 0)
        (packPart [(4, (BitVec.ofInt 32 z.base.x).toNat), (4, (BitVec.ofInt 32 z.base.y).toNat),
          (4, (BitVec.ofInt 32 z.base.z).toNat)])
        (packPart [
          (4, (BitVec.ofInt 32 (min 2147483647 (z.base.x + if z.g then z.ext.x * 4096 + 4095 else z.ext.x * 16 + 15))).toNat),
          (4, (BitVec.ofInt 32 (min 2147483647 (z.base.y + if z.g then z.ext.y * 4096 + 4095 else z.ext.y * 16 + 15))).toNat),
          (4, (BitVec.ofInt 32 (min 2147483647 (z.base.z + if z.g then z.ext.z * 4096 + 4095 else z.ext.z * 16 + 15))).toNat)])))
      ∧
    (64 ≤ index.toNat → exec (.probe who 5 index) s = .next (two .badIndex 0 0 0)) ∧
    (256 ≤ index.toNat → exec (.probe who 6 index) s = .next (two .badIndex 0 0 0))

/-- R171, R105, R109, R119: a SCAN with stop condition NONE goes to the end of its count or of its table and reads nothing; one
with SUSPENDED stops at a suspended start zone; one with PRESENT stops at a start entry that is present; past its start a SCAN
stops at the first entry that meets its condition, upward or downward, or examines them all; a start outside the table is
BAD_INDEX, a count, direction or condition out of range BAD_VALUE. Which parts a SCAN reads is the model's choice (log entry 11):
part 0 alone for PRESENT and ABSENT, none for the other conditions. -/
def Obligations.ScanLooksAlongATable : Prop :=
  ∀ (s : State) (who : Sender) (level : Nat) (table : BitVec 4) (index count : Half) (dir stop : Byte) (size last : Nat),
    Heard s who level → level ≤ 2 →
    (table = 1 ∧ size = 8 ∨ table = 3 ∧ size = 24 ∨ table = 4 ∧ size = 32 ∨ table = 5 ∧ size = 64 ∨
      table = 6 ∧ size = 256) →
    (size ≤ index.toNat → exec (.scan who table index count dir stop) s = .next (replied who 4 .badIndex 0 0 (arrived .up s))) ∧
    (index.toNat < size →
      count = 0 ∨ 256 < count.toNat ∨ (dir ≠ 1 ∧ dir ≠ 0xFF) ∨ 4 < stop.toNat ∨ (2 < stop.toNat ∧ table ≠ 5) →
      exec (.scan who table index count dir stop) s = .next (replied who 4 .badValue 0 0 (arrived .up s))) ∧
    (index.toNat < size → count ≠ 0 → count.toNat ≤ 256 →
      (dir = 1 ∧ last = min (size - 1) (index.toNat + (count.toNat - 1)) ∨
        dir = 0xFF ∧ last = index.toNat - (count.toNat - 1)) →
      exec (.scan who table index count dir 0) s = .next (replied who 4 .ok 0
        (packPart [(1, 0), (1, 0), (2, last),
          (2, count.toNat - ((last - index.toNat) + (index.toNat - last) + 1))]) (arrived .up s))) ∧
    (table = 5 → index.toNat < size → count ≠ 0 → count.toNat ≤ 256 → dir = 1 ∨ dir = 0xFF →
      s.guard.suspended.contains index.toNat = true →
      exec (.scan who table index count dir 3) s = .next (replied who 4 .ok 0
        (packPart [(1, 1), (1, 0), (2, index.toNat), (2, count.toNat - 1)]) (arrived .up s))) ∧
    (table = 3 → index.toNat < size → count ≠ 0 → count.toNat ≤ 256 → dir = 1 ∨ dir = 0xFF →
      PartClean s (13 + index.toNat) → (axisRec (peekPart s (13 + index.toNat))).present = 1 →
      exec (.scan who table index count dir 1) s = .next (replied who 4 .ok 0
        (packPart [(1, 1), (1, 0), (2, index.toNat), (2, count.toNat - 1)]) (arrived .up s))) ∧
    (∀ (part : Nat → Nat) (present meets : Nat → Prop),
      index.toNat < size → count ≠ 0 → count.toNat ≤ 256 →
      (∀ j, part j = if table = 1 then j else if table = 3 then 13 + j else if table = 4 then 37 + j
        else if table = 5 then 69 + 2 * j else 197 + 2 * j) →
      (∀ j, present j ↔ if table = 5 ∨ table = 6 then (peekPart s (part j)).getLsbD 0 = true
        else field (peekPart s (part j)) 0 1 = 1) →
      (stop = 1 ∧ (∀ j < size, PartClean s (part j)) ∧
          (table = 6 → ∀ j < 256, s.mgmt.unreadable.contains (197 + 2 * j + 1) = false) ∧ (∀ j, meets j ↔ present j) ∨
        stop = 2 ∧ (∀ j < size, PartClean s (part j)) ∧
          (table = 6 → ∀ j < 256, s.mgmt.unreadable.contains (197 + 2 * j + 1) = false) ∧ (∀ j, meets j ↔ ¬ present j) ∨
        stop = 3 ∧ table = 5 ∧ (∀ j, meets j ↔ j ∈ s.guard.suspended) ∨
        stop = 4 ∧ table = 5 ∧ (∀ j, meets j ↔ 69 + 2 * j ∈ s.guard.poisoned ∨ 69 + 2 * j + 1 ∈ s.guard.poisoned)) →
      (∀ j, dir = 1 → index.toNat ≤ j → j < size → j - index.toNat < count.toNat → meets j →
        (∀ m, index.toNat ≤ m → m < j → ¬ meets m) →
        exec (.scan who table index count dir stop) s = .next (replied who 4 .ok 0
          (packPart [(1, 1), (1, 0), (2, j), (2, count.toNat - 1 - (j - index.toNat))]) (arrived .up s))) ∧
      (∀ j, dir = 0xFF → j ≤ index.toNat → index.toNat - j < count.toNat → meets j →
        (∀ m, j < m → m ≤ index.toNat → ¬ meets m) →
        exec (.scan who table index count dir stop) s = .next (replied who 4 .ok 0
          (packPart [(1, 1), (1, 0), (2, j), (2, count.toNat - 1 - (index.toNat - j))]) (arrived .up s))) ∧
      ((dir = 1 ∧ last = min (size - 1) (index.toNat + (count.toNat - 1)) ∧
          (∀ m, index.toNat ≤ m → m ≤ last → ¬ meets m) ∨
        dir = 0xFF ∧ last = index.toNat - (count.toNat - 1) ∧ (∀ m, last ≤ m → m ≤ index.toNat → ¬ meets m)) →
        exec (.scan who table index count dir stop) s = .next (replied who 4 .ok 0
          (packPart [(1, 0), (1, 0), (2, last),
            (2, count.toNat - ((last - index.toNat) + (index.toNat - last) + 1))]) (arrived .up s))))

/-! ### Writing tables -/

/-- R162, R167, R164: a WRITE to the ORIGIN table of level 0 stores a valid merged entry and replies OK with it; a merged entry
is valid under R162's tests, which keep a present level-0 origin; the refusals change nothing. -/
def Obligations.WriteOriginKeepsALevelZeroOrigin : Prop :=
  ∀ (s : State) (who : Sender) (level : Nat) (part : BitVec 3) (index mask : Half) (data : Part) (m : Part) (o : OriginRec)
    (other : Nat → Prop) (valid : Prop),
    Heard s who level → level ≤ 2 → MemoryCanonical s → m = mergedWith s index.toNat data mask → o = originRec m →
    (∀ j, other j ↔ j < 8 ∧ j ≠ index.toNat ∧ (originRec (peekPart s j)).present = 1) →
    (valid ↔ (o.present = 0 ∧ ∃ j, other j ∧ (originRec (peekPart s j)).level = 0) ∨
      (o.present = 1 ∧ 1 ≤ o.addr ∧ o.addr ≤ 126 ∧ o.addr ≠ s.ring.ownAddr.toNat ∧
        (∀ j, other j → (originRec (peekPart s j)).addr ≠ o.addr) ∧ o.level ≤ 2 ∧
        (o.level = 0 ∨ ∃ j, other j ∧ (originRec (peekPart s j)).level = 0))) →
    (index.toNat < 8 → part = 0 → level = 0 → valid → mask ≠ 0 →
      ∃ t, exec (.writeOrigin who part index mask data) s =
          .next (replied who 2 .ok 0 (m &&& usedBits (.origin index.toNat)) t) ∧
        Stores index.toNat (m &&& usedBits (.origin index.toNat)) (arrived .up s) t) ∧
    (index.toNat < 8 → part = 0 → level = 0 → valid → mask = 0 →
      exec (.writeOrigin who part index mask data) s =
        .next (replied who 2 .ok 0 (peekPart s index.toNat) (arrived .up s))) ∧
    (index.toNat < 8 → part = 0 → level = 0 → ¬ valid →
      exec (.writeOrigin who part index mask data) s =
        .next (replied who 2 .badValue 0 (peekPart s index.toNat) (arrived .up s))) ∧
    (index.toNat < 8 → part = 0 → 0 < level →
      exec (.writeOrigin who part index mask data) s =
        .next (replied who 2 .refusedLevel 0 (peekPart s index.toNat) (arrived .up s))) ∧
    (8 ≤ index.toNat ∨ part ≠ 0 →
      exec (.writeOrigin who part index mask data) s = .next (replied who 2 .badIndex 0 0 (arrived .up s)))

/-- R172, R15, R41, R49, R83, R102, R122, R131: a WRITE to the PARAM record clamps each field of the merged part to its range,
brings the values into force and stores their image; the reply is OK_CLAMPED where a stored field differs from the merged value.
Parts 0 to 3 need level 1 or lower, part 4 level 0. -/
def Obligations.WriteParamClampsItsFields : Prop :=
  ∀ (s : State) (who : Sender) (level : Nat) (part : BitVec 3) (mask : Half) (data m : Part),
    Heard s who level → MemoryCanonical s → part.toNat < 5 → PartClean s (8 + part.toNat) →
    m = mergedWith s (8 + part.toNat) data mask →
    ((if part = 4 then 0 else 1) < level →
      exec (.writeParam who part 0 mask data) s =
        .next (replied who 2 .refusedLevel 0 (peekPart s (8 + part.toNat)) (arrived .up s))) ∧
    (level ≤ (if part = 4 then 0 else 1) → mask ≠ 0 →
      ∃ t v, exec (.writeParam who part 0 mask data) s =
          .next (replied who 2 (if paramImage part.toNat v = m &&& usedBits (.param part.toNat) then .ok else .okClamped) 0
            (paramImage part.toNat v) t) ∧
        t.params = v ∧ peekPart t (8 + part.toNat) = paramImage part.toNat v ∧ t.mgmt.replies = s.mgmt.replies ∧
        t.plan = s.plan ∧ t.axis = s.axis ∧ t.stab = s.stab ∧ t.ring = (arrived .up s).ring ∧
        (part = 0 → v = { s.params with
          reissueLimit := max 1 (min 15 (field m 0 1))
          openTime := max 10000 (min 3600000 (field m 4 4))
          reserve := min 600000 (field m 8 4)
          lengthTol := min 10000 (field m 12 2) }) ∧
        (part = 1 → v = { s.params with
          hover := max 5000 (min 100000 (field m 0 4))
          descendStep := max 50 (min 5000 (field m 4 2))
          liftStep := max 50 (min 10000 (field m 6 2))
          reachMargin := min 100000 (field m 8 4)
          settleTime := max 100 (min 60000 (field m 12 2))
          releaseK := max 1 (min 255 (field m 14 1)) } ∧ t = ((arrived .up s).setMem t.mem).setParams v) ∧
        (part = 2 → v = { s.params with
          tolX := max 10 (min 10000 (field m 0 2))
          tolY := max 10 (min 10000 (field m 2 2))
          tolZ := max 10 (min 10000 (field m 4 2))
          tolW := max 1 (min 500 (field m 6 2))
          lAct := min 10000 (field m 8 2) } ∧ t = ((arrived .up s).setMem t.mem).setParams v) ∧
        (part = 3 → m.getLsbD 16 = false → v.rate = s.params.rate ∧ v.parity = s.params.parity) ∧
        (part = 3 → v.minQuality = field m 3 1 ∧ v.jumpLimit = max 1000 (min 200000 (field m 4 4)) ∧
          v.staleAge = max 1000 (min 20000 (field m 8 2)) ∧ v.lostAge = max v.staleAge (min 200000 (field m 10 4)) ∧
          v.trkLoop = m.getLsbD 17) ∧
        (part = 4 → v = { s.params with
          hx := min 1000000 (field m 0 4)
          hy := min 1000000 (field m 4 4)
          hz := min 1000000 (field m 8 4)
          holdTerm := if field m 12 1 < 32 then field m 12 1 else 255 }))

/-- R86, R100, R101, with log entries 21 (setting TRK_LOOP ends a break, since TRK_RXD is not observed from then on) and 39 (the
loop test before the expiries of changed ages): byte 2 of PARAM part 3 written with the apply flag brings the merged rate and
parity into force; a change abandons the frame begun, counting a discard, and lets the pending REACQUIRE frame begin. Setting
TRK_LOOP loses the tracker with detail 4 and starts a frame, clearing it abandons the transmitter's frames. -/
def Obligations.LineSettingsTakeEffectAtTheWrite : Prop :=
  ∀ (s : State) (who : Sender) (level : Nat) (mask : Half) (data : Part), Heard s who level → level ≤ 1 →
    PartClean s 11 → MemoryCanonical s →
    (∀ m, m = mergedWith s 11 (data ||| 0x10000) (mask ||| 4) →
      ∃ t code d, exec (.applySettings who 0 mask data) s = .next (replied who 2 code 0 d t) ∧
        t.params.rate = min 5 (field m 0 1) ∧ t.params.parity = min 2 (field m 1 1) ∧ t.params.trkLoop = m.getLsbD 17 ∧
        t.plan = s.plan ∧ t.axis = s.axis ∧ t.stab = s.stab ∧ t.mgmt.replies = s.mgmt.replies ∧
        (s.params.trkLoop = false → m.getLsbD 17 = false →
          t.params.rate ≠ s.params.rate ∨ t.params.parity ≠ s.params.parity →
          t.line.asm.state = .hunt ∧
          t.line.count.discards = (if s.line.asm.state = .hunt then s.line.count.discards
            else min 65535 (s.line.count.discards + 1)) ∧
          (t.params.staleAge = s.params.staleAge → t.params.lostAge = s.params.lostAge →
            t.line.waiting = none ∧ t.line.state = s.line.state ∧
            t.line.sending = s.line.waiting.map (fun b => { bytes := b, begun := s.clock.us, fed := 0 }))) ∧
        (s.params.trkLoop = false → m.getLsbD 17 = false → t.params.rate = s.params.rate →
          t.params.parity = s.params.parity → t.params.staleAge = s.params.staleAge →
          t.params.lostAge = s.params.lostAge → t.line = s.line)) ∧
    (s.params.trkLoop = false →
      ∃ t code d, exec (.trkLoopSet who 0 mask data) s = .next (replied who 2 code 0 d t) ∧ t.params.trkLoop = true ∧
        t.line.asm.state = .hunt ∧ t.line.state = .lost ∧ t.line.running = true ∧ t.line.lastDue = some s.clock.ms ∧
        t.line.sending = some { bytes := reacquireFrame s.stab.pNow, begun := s.clock.us, fed := 0 } ∧
        t.line.waiting = none ∧ t.line.inBreak = false ∧ (s.line.state ≠ .lost → BecomesLost 4 s t)) ∧
    (s.params.trkLoop = true → s.line.state = .lost →
      ∃ t code d, exec (.trkLoopClear who 0 mask data) s = .next (replied who 2 code 0 d t) ∧ t.params.trkLoop = false ∧
        t.line.asm.state = .hunt ∧ t.line.state = .lost ∧
        (s.ctl.mode ≠ .standby → s.line.running = true → t.line.running = true ∧ t.line.sending = none) ∧
        (s.ctl.mode = .standby → t.line.running = false ∧ t.line.lastDue = none ∧ t.line.sending = none) ∧
        t.line.waiting = none)

/-- R151, R150, R152, R154, R157, with log entry 40 (the change is judged against the address index, and a feedback made
never-seen has zero values and no stamp): a WRITE to the AXIS table of level 1 or lower in STANDBY stores a valid merged entry:
the address index takes it, and a changed presence, address or role makes the entry never-seen and its last forwarded position
absent. An invalid merged entry (a present field above 1, an address or role taken or out of range, a ninth COARSE, a parameter
out of range, a stroke below the command of its axis) is refused BAD_VALUE, also under a zero mask. In another mode it is
refused, with nothing changed. -/
def Obligations.WriteAxisTakesTheEntryInStandby : Prop :=
  ∀ (s : State) (who : Sender) (level : Nat) (part : BitVec 3) (index mask : Half) (data m : Part) (e : AxisRec)
    (role : Role) (x : Option AxisIdx) (valid : Role → Option AxisIdx → Prop),
    Heard s who level → MemoryCanonical s → PartClean s (13 + index.toNat) →
    (∀ j < 24, axisUnreadable s j = false) →
    m = mergedWith s (13 + index.toNat) data mask → e = axisRec m →
    (∀ role x, valid role x ↔
      e.present = 0 ∧ x = none ∨
        e.present = 1 ∧ 1 ≤ e.addr ∧ e.addr ≤ 126 ∧ e.addr ≠ s.ring.ownAddr.toNat ∧ roleOfCode e.role = some role ∧
        x = some { addr := BitVec.ofNat 8 e.addr, role := role } ∧
        (∀ j k, j < 24 → j ≠ index.toNat → s.axis.index[j]?.join = some k →
          k.addr.toNat ≠ e.addr ∧ (role = .coarse ∨ role = .sensor ∨ k.role ≠ role)) ∧
        (role = .coarse → ((List.range 24).filter fun j => decide (j ≠ index.toNat ∧
          (s.axis.index[j]?.join).map (·.role) = some .coarse)).length ≤ 7) ∧
        (role = .coarse ∧ 1 ≤ e.b ∧ e.b ≤ e.a ∧ e.a ≤ 2147483647 ∨
          role = .fineX ∧ s.stab.c.x.natAbs ≤ e.a ∧ e.a ≤ 200000 ∧ 10 ≤ e.b ∧ e.b ≤ 20000 ∨
          role = .fineY ∧ s.stab.c.y.natAbs ≤ e.a ∧ e.a ≤ 200000 ∧ 10 ≤ e.b ∧ e.b ≤ 20000 ∨
          role = .fineZ ∧ s.stab.c.z.natAbs ≤ e.a ∧ e.a ≤ 200000 ∧ 10 ≤ e.b ∧ e.b ≤ 20000 ∨
          role = .fineW ∧ s.stab.c.w.natAbs ≤ e.a ∧ e.a ≤ 1500 ∧ 1 ≤ e.b ∧ e.b ≤ 200 ∨
          role.station ≠ none ∧ 100 ≤ e.a ∧ e.a ≤ 60000 ∨ role = .sensor)) →
    (index.toNat < 24 → part = 0 → level ≤ 1 → s.ctl.mode = .standby → mask ≠ 0 → valid role x →
      ∃ t, exec (.writeAxis who part index mask data) s =
          .next (replied who 2 .ok 0 (m &&& usedBits (.axis index.toNat)) t) ∧
        peekPart t (13 + index.toNat) = m &&& usedBits (.axis index.toNat) ∧
        t.axis.index = s.axis.index.setIfInBounds index.toNat x ∧
        (s.axis.index[index.toNat]?.join = x → t.axis.feedback = s.axis.feedback ∧ t.axis.lastFwd = s.axis.lastFwd) ∧
        (s.axis.index[index.toNat]?.join ≠ x →
          t.axis.feedback = s.axis.feedback.setIfInBounds index.toNat
            { actual := 0, status := 0, aux0 := 0, aux1 := 0, aux2 := 0, aux3 := 0, stamp := none, seen := false } ∧
          t.axis.lastFwd = s.axis.lastFwd.setIfInBounds index.toNat none) ∧
        t.axis.slot = s.axis.slot ∧ t.axis.missing = s.axis.missing ∧ t.stab = s.stab ∧ t.plan = s.plan ∧
        t.track = s.track ∧ t.params = s.params ∧ t.ctl.mode = .standby ∧ t.mgmt.replies = s.mgmt.replies) ∧
    (level ≤ 1 → s.ctl.mode ≠ .standby → index.toNat < 24 → part = 0 →
      exec (.writeAxis who part index mask data) s =
        .next (replied who 2 .refusedMode 0 (peekPart s (13 + index.toNat)) (arrived .up s))) ∧
    (1 < level → index.toNat < 24 → part = 0 →
      exec (.writeAxis who part index mask data) s =
        .next (replied who 2 .refusedLevel 0 (peekPart s (13 + index.toNat)) (arrived .up s))) ∧
    (level ≤ 1 → s.ctl.mode = .standby → index.toNat < 24 → part = 0 → (∀ role x, ¬ valid role x) →
      exec (.writeAxis who part index mask data) s =
        .next (replied who 2 .badValue 0 (peekPart s (13 + index.toNat)) (arrived .up s))) ∧
    (level ≤ 1 → s.ctl.mode = .standby → 24 ≤ index.toNat → part = 0 →
      exec (.writeAxis who part index mask data) s = .next (replied who 2 .badIndex 0 0 (arrived .up s)))

/-- R124, R107, R125, R126, R127, R128, R129: a WRITE to the TERM table of level 1 or lower, no greater than the DPL of any
present zone that names the term, stores a valid merged record and evaluates the term; otherwise it changes nothing. The value
is UNKNOWN for a record not present, or without a fresh word of a readable source, and otherwise what the condition gives for
the word and the operand. The reply shows the term's value. The flags of a comparison are those of the 16-bit subtraction. -/
def Obligations.WriteTermEvaluatesTheTerm : Prop :=
  (∀ (s : State) (who : Sender) (level : Nat) (part : BitVec 3) (index mask : Half) (data m : Part) (r : TermRec)
    (allowed valid : Prop) (source : Option Half) (holds : Nat → Half → Prop) (v : TermValue)
    (fresh : Option Word → Prop),
    Heard s who level → MemoryCanonical s → PartClean s (37 + index.toNat) → (∀ z < 64, PartClean s (69 + 2 * z)) →
    m = mergedWith s (37 + index.toNat) data mask → r = termRec m →
    (allowed ↔ level ≤ 1 ∧ ∀ z < 64, (peekPart s (69 + 2 * z)).getLsbD 0 = true →
      field (peekPart s (69 + 2 * z)) 1 1 = index.toNat →
      level ≤ ((peekPart s (69 + 2 * z)).extractLsb' 4 2).toNat) →
    (valid ↔ r.present ≤ 1 ∧ r.unknownAs ≤ 1 ∧ r.kind ≤ 2 ∧ r.cond ≤ 13 ∧ (r.kind ≠ 2 → r.axis ≤ 23) ∧
      (r.kind = 1 → r.aux ≤ 3)) →
    (∀ x, fresh x ↔ ∃ n k, s.ring.lastCycle = some n ∧ x = some k ∧ (n - k).toNat ≤ 2) →
    (∀ w, source = some w ↔
      (r.kind = 2 ∧ ∃ k, s.terms.tracker = some k ∧ fresh k.stamp ∧ w = k.word) ∨
      (r.kind ≠ 2 ∧ (s.axis.index[r.axis]?.join).isSome = true ∧ axisUnreadable s r.axis = false ∧
        (feedbackOf s r.axis).seen = true ∧ fresh (feedbackOf s r.axis).stamp ∧
        (r.kind = 0 ∧ w = (feedbackOf s r.axis).status ∨ r.kind = 1 ∧
          (r.aux = 0 ∧ w = (feedbackOf s r.axis).aux0 ∨ r.aux = 1 ∧ w = (feedbackOf s r.axis).aux1 ∨
            r.aux = 2 ∧ w = (feedbackOf s r.axis).aux2 ∨ r.aux = 3 ∧ w = (feedbackOf s r.axis).aux3)))) →
    (∀ w, (holds 0 w ↔ w &&& r.operand = r.operand) ∧ (holds 1 w ↔ w &&& r.operand ≠ r.operand) ∧
      (holds 2 w ↔ w &&& r.operand = 0) ∧ (holds 3 w ↔ w &&& r.operand ≠ 0) ∧
      (holds 4 w ↔ w = r.operand) ∧ (holds 5 w ↔ w ≠ r.operand) ∧
      (holds 6 w ↔ r.operand.toInt ≤ w.toInt) ∧ (holds 7 w ↔ w.toInt < r.operand.toInt) ∧
      (holds 8 w ↔ r.operand.toInt < w.toInt) ∧ (holds 9 w ↔ w.toInt ≤ r.operand.toInt) ∧
      (holds 10 w ↔ r.operand.toNat < w.toNat) ∧ (holds 11 w ↔ w.toNat ≤ r.operand.toNat)) →
    (r.present = 0 → v = .unknown) → (r.present = 1 → r.cond = 12 → v = .isTrue) →
    (r.present = 1 → r.cond = 13 → v = .isFalse) →
    (r.present = 1 → r.cond < 12 → source = none → v = .unknown) →
    (∀ w, r.present = 1 → r.cond < 12 → source = some w →
      (holds r.cond w → v = .isTrue) ∧ (¬ holds r.cond w → v = .isFalse)) →
    index.toNat < 32 → part = 0 →
    (allowed → valid → mask ≠ 0 →
      ∃ t, exec (.writeTerm who part index mask data) s =
          .next (replied who 2 .ok (BitVec.ofNat 8 (16 * v.code)) (m &&& usedBits (.term index.toNat)) t) ∧
        peekPart t (37 + index.toNat) = m &&& usedBits (.term index.toNat) ∧ termValue r s = v ∧
        termHeld t index.toNat = { value := v, unknownAs := r.unknownAs == 1 } ∧
        (∀ j, j ≠ index.toNat → termHeld t j = termHeld s j) ∧ Undisturbed (arrived .up s) t ∧
        t.mgmt.replies = s.mgmt.replies ∧
        (s.params.holdTerm ≠ index.toNat → t.ctl.faults = s.ctl.faults ∧ t.ctl.first = s.ctl.first)) ∧
    (¬ allowed →
      exec (.writeTerm who part index mask data) s =
        .next (replied who 2 .refusedLevel (BitVec.ofNat 8 (16 * (termHeld s index.toNat).value.code))
          (peekPart s (37 + index.toNat)) (arrived .up s))) ∧
    (allowed → ¬ valid →
      exec (.writeTerm who part index mask data) s =
        .next (replied who 2 .badValue (BitVec.ofNat 8 (16 * (termHeld s index.toNat).value.code))
          (peekPart s (37 + index.toNat)) (arrived .up s)))) ∧
  (∀ w o : Half, (cmpFlags w o).n = (w - o).msb ∧ ((cmpFlags w o).z = true ↔ w = o) ∧
    ((cmpFlags w o).v = true ↔ w.toInt - o.toInt < -32768 ∨ 32767 < w.toInt - o.toInt) ∧
    ((cmpFlags w o).c = true ↔ w.toNat < o.toNat))

/-- R107, R108, R120: a WRITE to a zone part whose other part is readable: refused when the zone is present with a DPL below the
effective level, when the merged descriptor is invalid, and when its DPL is below the effective level, in this order; otherwise
stored. No zone descriptor is written by a request of a level above the descriptor's. A poisoned part is rewritten by a full mask
alone, which ends its poison, and with the last one the ZONE_ECC cause, while the fault stays latched; with part 0 poisoned by
level 0 alone; any other mask replies MEMORY_ERROR, after the level test (log entry 41); the replies show no data of a part that
stays poisoned (log entry 12). -/
def Obligations.WriteZoneObeysItsLevel : Prop :=
  (∀ (s : State) (who : Sender) (level : Nat) (part : BitVec 3) (index mask : Half) (data m d0 : Part) (n : Nat)
    (existing valid new : Prop) (status : Byte),
    Heard s who level → level ≤ 2 → MemoryCanonical s → index.toNat < 64 → part.toNat < 2 → n = 69 + 2 * index.toNat →
    PartClean s n → PartClean s (n + 1) → m = mergedWith s (n + part.toNat) data mask →
    d0 = (if part = 0 then m else peekPart s n) →
    (existing ↔ (peekPart s n).getLsbD 0 = true → level ≤ ((peekPart s n).extractLsb' 4 2).toNat) →
    (valid ↔ (d0.extractLsb' 4 2).toNat ≤ 2 ∧ (field d0 1 1 ≤ 31 ∨ field d0 1 1 = 255) ∧
      (d0.extractLsb' 1 3).toNat ≤ 4 ∧ (d0.getLsbD 0 = true → (d0.extractLsb' 1 3).toNat ≠ 0)) →
    status = (if s.guard.suspended.contains index.toNat then 4 else 0) →
    (new ↔ level ≤ (d0.extractLsb' 4 2).toNat) →
    (existing → valid → new → mask ≠ 0 →
      ∃ t, exec (.writeZone who part index mask data) s =
          .next (replied who 2 .ok status (m &&& usedBits (.zone index.toNat part.toNat)) t) ∧
        peekPart t (n + part.toNat) = m &&& usedBits (.zone index.toNat part.toNat) ∧
        (∀ j, j ≠ n + part.toNat → peekPart t j = peekPart s j) ∧ t.guard.suspended = s.guard.suspended ∧
        t.guard.outcome = s.guard.outcome ∧ t.mgmt.replies = s.mgmt.replies ∧ t.ctl.faults = s.ctl.faults ∧
        Undisturbed (arrived .up s) t) ∧
    (¬ existing →
      exec (.writeZone who part index mask data) s =
        .next (replied who 2 .refusedLevel status (peekPart s (n + part.toNat)) (arrived .up s))) ∧
    (existing → ¬ valid →
      exec (.writeZone who part index mask data) s =
        .next (replied who 2 .badValue status (peekPart s (n + part.toNat)) (arrived .up s))) ∧
    (existing → valid → ¬ new →
      exec (.writeZone who part index mask data) s =
        .next (replied who 2 .refusedLevel status (peekPart s (n + part.toNat)) (arrived .up s)))) ∧
  (∀ (s : State) (who : Sender) (level : Nat) (part : BitVec 3) (index mask : Half) (data d0 : Part) (n : Nat)
    (blind existing valid new : Prop) (status : List Nat → Byte) (refused : ReplyCode → Prop),
    Heard s who level → level ≤ 2 → MemoryCanonical s → index.toNat < 64 → part.toNat < 2 → n = 69 + 2 * index.toNat →
    n + part.toNat ∈ s.guard.poisoned → (n ∈ s.guard.poisoned ∨ PartClean s n) →
    (n + 1 ∈ s.guard.poisoned ∨ PartClean s (n + 1)) →
    (blind ↔ part = 1 ∧ n ∈ s.guard.poisoned) → d0 = (if part = 0 then data else peekPart s n) →
    (existing ↔ n ∈ s.guard.poisoned ∧ level = 0 ∨ n ∉ s.guard.poisoned ∧
      ((peekPart s n).getLsbD 0 = true → level ≤ ((peekPart s n).extractLsb' 4 2).toNat)) →
    (valid ↔ blind ∨ (d0.extractLsb' 4 2).toNat ≤ 2 ∧ (field d0 1 1 ≤ 31 ∨ field d0 1 1 = 255) ∧
      (d0.extractLsb' 1 3).toNat ≤ 4 ∧ (d0.getLsbD 0 = true → (d0.extractLsb' 1 3).toNat ≠ 0)) →
    (new ↔ blind ∨ level ≤ (d0.extractLsb' 4 2).toNat) →
    (∀ l, status l = (if l.contains n then 1 else 0) ||| (if l.contains (n + 1) then 2 else 0) |||
      (if s.guard.suspended.contains index.toNat then 4 else 0)) →
    (∀ code, refused code ↔ ∃ t, exec (.writeZone who part index mask data) s =
        .next (replied who 2 code (status s.guard.poisoned) 0 t) ∧ t.mem = s.mem ∧
      (∀ j, j ∈ t.guard.poisoned ↔ j ∈ s.guard.poisoned) ∧ t.guard.suspended = s.guard.suspended ∧
      t.mgmt.replies = s.mgmt.replies ∧ Undisturbed (arrived .up s) t ∧
      (code = .memoryError → t.ctl.has .zoneEcc = true ∧ t.ctl.conditions.zoneEcc = true)) →
    (¬ existing → refused .refusedLevel) ∧
    (existing → mask ≠ 0xFFFF → refused .memoryError) ∧
    (existing → mask = 0xFFFF → ¬ valid → refused .badValue) ∧
    (existing → mask = 0xFFFF → valid → ¬ new → refused .refusedLevel) ∧
    (existing → mask = 0xFFFF → valid → new →
      ∃ t, exec (.writeZone who part index mask data) s =
          .next (replied who 2 .ok (status t.guard.poisoned) (data &&& usedBits (.zone index.toNat part.toNat)) t) ∧
        Stores (n + part.toNat) (data &&& usedBits (.zone index.toNat part.toNat)) s t ∧
        (∀ j, j ∈ t.guard.poisoned ↔ j ∈ s.guard.poisoned ∧ j ≠ n + part.toNat) ∧
        (t.ctl.conditions.zoneEcc = true ↔ ∃ j ∈ s.guard.poisoned, j ≠ n + part.toNat) ∧
        (s.ctl.has .zoneEcc = true → t.ctl.has .zoneEcc = true) ∧ t.guard.suspended = s.guard.suspended ∧
        t.mgmt.replies = s.mgmt.replies ∧ Undisturbed (arrived .up s) t))

/-- R1, R3, R4, R5, R168: a WRITE to a course part of level 1 or lower stores a valid merged part and replies with it and the
course's reference count; while a record names a present course, no byte of its flags, origin or extents is written. Of an
unreadable course, whichever part is in error, a part can be written with a full mask alone, and not while a record names it
(the reply's data: log entry 12; a course is unreadable when either part is, and one with a reference is then busy whatever its
stored part 0 says: log entry 17). -/
def Obligations.WriteCourseKeepsABusyCourse : Prop :=
  (∀ (s : State) (who : Sender) (level : Nat) (part : BitVec 3) (index mask : Half) (data m d0 count : Part) (n : Nat)
    (busy valid : Prop),
    Heard s who level → MemoryCanonical s → index.toNat < 256 → part.toNat < 2 → n = 197 + 2 * index.toNat →
    PartClean s n → PartClean s (n + 1) → m = mergedWith s (n + part.toNat) data mask →
    d0 = (if part = 0 then m else peekPart s n) →
    count = packPart (if part = 0 then [(2, 0), (2, refCount s index.toNat)] else [(8, 0), (2, refCount s index.toNat)]) →
    (busy ↔ 0 < refCount s index.toNat ∧ (peekPart s n).getLsbD 0 = true ∧
      mask &&& (if part = 0 then 0xFFF1 else 0x00FF) ≠ 0) →
    (valid ↔ field d0 1 1 ≤ 31 ∨ field d0 1 1 = 255) →
    (level ≤ 1 → valid → ¬ busy → mask ≠ 0 →
      ∃ t, exec (.writeCourse who part index mask data) s = .next (replied who 2 .ok 0
          (m &&& usedBits (.course index.toNat part.toNat) ||| count) t) ∧
        Stores (n + part.toNat) (m &&& usedBits (.course index.toNat part.toNat)) (arrived .up s) t) ∧
    (level ≤ 1 → valid → busy →
      exec (.writeCourse who part index mask data) s =
        .next (replied who 2 .refusedBusy 0 (peekPart s (n + part.toNat) ||| count) (arrived .up s))) ∧
    (level ≤ 1 → ¬ valid →
      exec (.writeCourse who part index mask data) s =
        .next (replied who 2 .badValue 0 (peekPart s (n + part.toNat) ||| count) (arrived .up s))) ∧
    (1 < level →
      exec (.writeCourse who part index mask data) s =
        .next (replied who 2 .refusedLevel 0 (peekPart s (n + part.toNat) ||| count) (arrived .up s)))) ∧
  (∀ (s : State) (who : Sender) (level : Nat) (part : BitVec 3) (index mask : Half) (data count : Part) (n : Nat)
    (marked valid : Prop),
    Heard s who level → level ≤ 1 → MemoryCanonical s → index.toNat < 256 → part.toNat < 2 → n = 197 + 2 * index.toNat →
    (PartClean s n ∨ s.mgmt.unreadable.contains n = true) → (PartClean s (n + 1) ∨ s.mgmt.unreadable.contains (n + 1) = true) →
    (s.mgmt.unreadable.contains n = true ∨ s.mgmt.unreadable.contains (n + 1) = true) →
    (marked ↔ s.mgmt.unreadable.contains (n + part.toNat) = true) →
    (valid ↔ part = 1 ∧ s.mgmt.unreadable.contains n = true ∨
      ∃ d, d = (if part = 0 then data else peekPart s n) ∧ (field d 1 1 ≤ 31 ∨ field d 1 1 = 255)) →
    count = packPart (if part = 0 then [(2, 0), (2, refCount s index.toNat)] else [(8, 0), (2, refCount s index.toNat)]) →
    (mask ≠ 0xFFFF → ∃ t,
      (marked → exec (.writeCourse who part index mask data) s = .next (replied who 2 .memoryError 1 0 t)) ∧
      (¬ marked → exec (.writeCourse who part index mask data) s =
        .next (replied who 2 .memoryError 0 (peekPart s (n + part.toNat) ||| count) t)) ∧
      t.mem = s.mem ∧ t.plan = s.plan ∧ t.mgmt.replies = s.mgmt.replies) ∧
    (mask = 0xFFFF → valid → 0 < refCount s index.toNat → ∃ t,
      (marked → exec (.writeCourse who part index mask data) s = .next (replied who 2 .refusedBusy 1 0 t)) ∧
      (¬ marked → exec (.writeCourse who part index mask data) s =
        .next (replied who 2 .refusedBusy 0 (peekPart s (n + part.toNat) ||| count) t)) ∧
      t.mem = s.mem ∧ t.plan = s.plan ∧ t.mgmt.replies = s.mgmt.replies) ∧
    (mask = 0xFFFF → valid → refCount s index.toNat = 0 →
      ∃ t, exec (.writeCourse who part index mask data) s = .next (replied who 2 .ok 0
          (data &&& usedBits (.course index.toNat part.toNat)) t) ∧
        Stores (n + part.toNat) (data &&& usedBits (.course index.toNat part.toNat)) s t))

/-! ### The plan -/

/-- R7, R10, R3, R11, R176: a PLAN_APPEND of level 1 or lower is judged on its fields, its lay number and the depth, in this
order; an accepted record joins the tail, its body is stored in the lowest free slot with fresh check bits, its course counts
one reference more. -/
def Obligations.PlanAppendJoinsTheTail : Prop :=
  ∀ (s : State) (who : Sender) (level : Nat) (record : Part) (r : PlanRec) (bad late : Prop),
    Heard s who level → r = planRec record →
    (bad ↔ r.lay = 0 ∨ 1 < r.order ∨ 1 < r.cut ∨ 15 < r.glue ∨ 35999 < r.yaw ∨ r.length < 5000 ∨ 40000 < r.length) →
    (late ↔ r.lay ≤ s.plan.highest ∨ (∃ q ∈ s.plan.queue, r.lay ≤ q.lay) ∨ ∃ b ∈ s.plan.bound, b.lay = r.lay) →
    (1 < level → exec (.planAppend who record) s = .next (replied who 5 .refusedLevel 0 0 (arrived .up s))) ∧
    (level ≤ 1 → bad → exec (.planAppend who record) s = .next (replied who 5 .badValue 0 0 (arrived .up s))) ∧
    (level ≤ 1 → ¬ bad → late → exec (.planAppend who record) s = .next (replied who 5 .order 0 0 (arrived .up s))) ∧
    (level ≤ 1 → ¬ bad → ¬ late → 4096 ≤ s.plan.queue.length →
      exec (.planAppend who record) s = .next (replied who 5 .queueFull 0 0 (arrived .up s))) ∧
    (level ≤ 1 → ¬ bad → ¬ late → s.plan.queue.length < 4096 →
      ∃ t slot, exec (.planAppend who record) s =
          .next (replied who 5 .ok 0 (packPart [(2, s.plan.queue.length + 1)]) t) ∧
        (∀ q ∈ s.plan.queue, q.slot ≠ slot) ∧ (∀ b ∈ s.plan.bound, b.slot ≠ slot) ∧
        (∀ k < slot, (∃ q ∈ s.plan.queue, q.slot = k) ∨ ∃ b ∈ s.plan.bound, b.slot = k) ∧
        t.plan.queue = s.plan.queue ++ [{ lay := r.lay, course := r.course, failed := false, reissue := 0, slot := slot }] ∧
        t.plan.bound = s.plan.bound ∧ t.plan.highest = r.lay ∧ refCount t r.course = refCount s r.course + 1 ∧
        (∀ c, c ≠ r.course → refCount t c = refCount s c) ∧
        t = ((arrived .up s).setMem (s.mem.store (709 + slot) record)).setPlan t.plan)

/-- R12, R13: a PLAN_FLUSH of level 1 or lower takes every queued record from a lay number on, a SKIP one record, the head for
0; each removed record's course counts one reference fewer; a bound record is passed by or refuses the SKIP; nothing but the
plan store changes. -/
def Obligations.FlushAndSkipRemoveQueuedRecords : Prop :=
  ∀ (s : State) (who : Sender) (level : Nat) (lay : Word), Heard s who level → layRising s.plan.queue →
    (1 < level →
      exec (.planFlush who lay) s = .next (replied who 6 .refusedLevel 0 0 (arrived .up s)) ∧
      exec (.skip who lay) s = .next (replied who 7 .refusedLevel 0 0 (arrived .up s))) ∧
    (level ≤ 1 → lay = 0 → exec (.planFlush who lay) s = .next (replied who 6 .badValue 0 0 (arrived .up s))) ∧
    (∀ gone, gone = s.plan.queue.filter (fun q => lay.toNat ≤ q.lay) → level ≤ 1 → lay ≠ 0 →
      ∃ p, exec (.planFlush who lay) s =
          .next (replied who 6 .ok 0 (packPart [(4, gone.length)]) ((arrived .up s).setPlan p)) ∧
        p.queue = s.plan.queue.filter (fun q => q.lay < lay.toNat) ∧ p.bound = s.plan.bound ∧
        p.highest = (if lay.toNat ≤ s.plan.highest then lay.toNat - 1 else s.plan.highest) ∧
        ∀ c < 256, p.refs[c]?.getD 0 = refCount s c - (gone.filter (fun q => q.course = c)).length) ∧
    (level ≤ 1 → lay = 0 → s.plan.queue = [] →
      exec (.skip who lay) s = .next (replied who 7 .notFound 0 0 (arrived .up s))) ∧
    (level ≤ 1 → lay ≠ 0 → (∃ b ∈ s.plan.bound, b.lay = lay.toNat) →
      exec (.skip who lay) s = .next (replied who 7 .refusedBusy 0 0 (arrived .up s))) ∧
    (level ≤ 1 → lay ≠ 0 → (∀ b ∈ s.plan.bound, b.lay ≠ lay.toNat) → (∀ q ∈ s.plan.queue, q.lay ≠ lay.toNat) →
      exec (.skip who lay) s = .next (replied who 7 .notFound 0 0 (arrived .up s))) ∧
    (∀ e ∈ s.plan.queue, level ≤ 1 →
      lay = 0 ∧ s.plan.queue.head? = some e ∨ lay ≠ 0 ∧ e.lay = lay.toNat ∧ (∀ b ∈ s.plan.bound, b.lay ≠ lay.toNat) →
      ∃ p, exec (.skip who lay) s = .next (replied who 7 .ok 0 (packPart [(4, e.lay)]) ((arrived .up s).setPlan p)) ∧
        p.queue = s.plan.queue.filter (fun q => q.lay ≠ e.lay) ∧ p.bound = s.plan.bound ∧
        p.highest = s.plan.highest ∧ p.refs[e.course]?.getD 0 = refCount s e.course - 1 ∧
        ∀ c, c ≠ e.course → p.refs[c]?.getD 0 = refCount s c)

/-! ### Modes -/

/-- R181, R182, R185, R187, R62, R63: MODE GUARD, LAY and STANDBY of level 1 or lower. GUARD from STANDBY asks for a VALID
tracker and for seen COARSE entries, and an active condition cause brings HOLD in the same event; LAY from GUARD asks for the
ten entries; STANDBY is taken in every mode. The reply carries the mode and the hold causes after the request. -/
def Obligations.ModeRequestsAreJudgedOnTheMode : Prop :=
  ∀ (s : State) (who : Sender) (level : Nat) (cause ready full : Prop), Heard s who level → level ≤ 1 →
    (cause ↔ s.ctl.recovery = false ∧ s.guard.outcome.violation = true ∨ s.line.state = .lost ∨ s.line.state = .none ∨
      s.guard.poisoned ≠ [] ∨ termCause s = true) →
    (ready ↔ s.line.state = .valid ∧
      (∃ i k, i < 24 ∧ s.axis.index[i]?.join = some k ∧ k.role = .coarse ∧ axisUnreadable s i = false) ∧
      ∀ i k, i < 24 → s.axis.index[i]?.join = some k → k.role = .coarse → axisUnreadable s i = false →
        (feedbackOf s i).seen = true) →
    (full ↔ s.ctl.recovery = false ∧
      ∀ r, r ≠ .coarse → r ≠ .sensor →
        ∃ i k, i < 24 ∧ s.axis.index[i]?.join = some k ∧ k.role = r ∧ axisUnreadable s i = false) →
    (s.ctl.mode = .standby → ready →
      ∃ t, exec (.modeGuard who) s = .next (moded who .ok t) ∧ Undisturbed (arrived .up s) t ∧ LeavesTables s t ∧
        (¬ cause → t.ctl.mode = .guard ∧ t.ctl.holdN = false ∧ t.ctl.ret = s.ctl.ret ∧
          t.ctl.recovery = s.ctl.recovery) ∧
        (cause → t.ctl.mode = .hold ∧ t.ctl.holdN = true ∧ t.ctl.ret = some .guard ∧ t.ctl.recovery = false)) ∧
    (s.ctl.mode = .standby → ¬ ready → exec (.modeGuard who) s = .next (moded who .refusedMode (arrived .up s))) ∧
    (s.ctl.mode = .guard → exec (.modeGuard who) s = .next (moded who .ok (arrived .up s))) ∧
    (s.ctl.mode = .lay →
      ∃ t, exec (.modeGuard who) s = .next (moded who .ok t) ∧ Undisturbed (arrived .up s) t ∧ LeavesTables s t ∧
        t.lay.phase = (if s.lay.phase = .descend ∨ s.lay.phase = .settle then .approach else s.lay.phase) ∧
        (¬ cause → t.ctl.mode = .guard ∧ t.ctl.holdN = false)) ∧
    (s.ctl.mode = .hold → exec (.modeGuard who) s = .next (moded who .refusedMode (arrived .up s))) ∧
    (s.ctl.mode = .guard → full →
      ∃ t, exec (.modeLay who) s = .next (moded who .ok t) ∧ Undisturbed (arrived .up s) t ∧ LeavesTables s t ∧
        t.lay = s.lay ∧ t.ctl = { s.ctl with mode := .lay, holdN := false }) ∧
    (s.ctl.mode = .guard → ¬ full → exec (.modeLay who) s = .next (moded who .refusedMode (arrived .up s))) ∧
    (s.ctl.mode = .lay → exec (.modeLay who) s = .next (moded who .ok (arrived .up s))) ∧
    (s.ctl.mode.held = true → exec (.modeLay who) s = .next (moded who .refusedMode (arrived .up s))) ∧
    (∃ t, exec (.modeStandby who) s = .next (moded who .ok t) ∧ Undisturbed (arrived .up s) t ∧ LeavesTables s t ∧
      t.ctl.mode = .standby ∧ t.ctl.holdN = true ∧ t.ctl.ret = none ∧ t.ctl.recovery = false ∧ t.ctl.starved = false ∧
      t.ctl.request = false ∧ t.line.running = s.params.trkLoop)

/-- R182, R184, R185, R186, R117, R174: MODE HOLD and RESUME of level 1 or lower and RECOVER of level 0. -/
def Obligations.HoldResumeAndRecover : Prop :=
  ∀ (s : State) (who : Sender) (level : Nat), Heard s who level →
    (level ≤ 1 → s.ctl.mode = .guard ∨ s.ctl.mode = .lay →
      ∃ t, exec (.modeHold who) s = .next (moded who .ok t) ∧ Undisturbed (arrived .up s) t ∧ LeavesTables s t ∧
        t.ctl.mode = .hold ∧ t.ctl.holdN = true ∧ t.ctl.request = true ∧ t.ctl.starved = s.ctl.starved ∧
        t.ctl.recovery = false ∧ t.ctl.ret = some (if s.ctl.recovery then .guard else s.ctl.mode) ∧
        t.lay.phase = s.lay.phase) ∧
    (level ≤ 1 → s.ctl.mode = .hold →
      exec (.modeHold who) s = .next (moded who .ok ((arrived .up s).setCtl { s.ctl with request := true }))) ∧
    (level ≤ 1 → s.ctl.mode = .standby →
      exec (.modeHold who) s = .next (moded who .refusedMode (arrived .up s))) ∧
    (∀ m, level ≤ 1 → s.ctl.mode = .hold → s.ctl.conditions = ⟨false, false, false, false⟩ → s.ctl.ret = some m →
      m = .guard ∨ m = .lay →
      ∃ t, exec (.resume who) s = .next (moded who .ok t) ∧ Undisturbed (arrived .up s) t ∧ LeavesTables s t ∧
        t.ctl = { s.ctl with mode := m, holdN := false, ret := none, starved := false, request := false } ∧
        t.lay.phase = (if s.lay.phase = .descend ∨ s.lay.phase = .settle then .approach else s.lay.phase)) ∧
    (level ≤ 1 → s.ctl.mode ≠ .hold ∨ s.ctl.conditions ≠ ⟨false, false, false, false⟩ →
      exec (.resume who) s = .next (moded who .refusedMode (arrived .up s))) ∧
    (level = 0 → s.ctl.mode = .hold → s.ctl.conditions = ⟨true, false, false, false⟩ →
      ∃ t, exec (.recover who) s = .next (moded who .ok t) ∧ Undisturbed (arrived .up s) t ∧ LeavesTables s t ∧
        t.ctl.mode = .guard ∧ t.ctl.holdN = false ∧ t.ctl.ret = none ∧ t.ctl.starved = false ∧ t.ctl.request = false ∧
        t.ctl.recovery = true ∧ t.ctl.conditions.guard = false ∧ t.guard.run = 0) ∧
    (level = 0 → s.ctl.mode ≠ .hold ∨ s.ctl.conditions ≠ ⟨true, false, false, false⟩ →
      exec (.recover who) s = .next (moded who .refusedMode (arrived .up s))) ∧
    (1 < level →
      exec (.modeGuard who) s = .next (moded who .refusedLevel (arrived .up s)) ∧
      exec (.modeLay who) s = .next (moded who .refusedLevel (arrived .up s)) ∧
      exec (.modeStandby who) s = .next (moded who .refusedLevel (arrived .up s)) ∧
      exec (.modeHold who) s = .next (moded who .refusedLevel (arrived .up s)) ∧
      exec (.resume who) s = .next (moded who .refusedLevel (arrived .up s))) ∧
    (0 < level → exec (.recover who) s = .next (moded who .refusedLevel (arrived .up s)))

/-! ### The zone guard -/

/-- R112, R110, R111, R106, R114, R117, R185: an evaluation of the envelope about a predicted head base, all zone parts clean:
the findings and the violating zone, and what they do to the recovery run, the fault set and the mode. -/
def Obligations.EvaluationFindsTheViolatingZone : Prop :=
  ∀ (s t : State) (p : Quad Int) (box : Nat → Box) (active : Nat → Nat → Prop) (overlap contains : Nat → Prop) (lo hi : Quad Int),
    (∀ n, 69 ≤ n → n < 197 → PartClean s n) → s.guard.poisoned = [] →
    s.line.state = .valid ∨ s.line.state = .stale → termCause s = false → t = zoneEvaluate p s →
    lo = ⟨max (-2147483648) (min 2147483647 (p.x - s.params.hx)), max (-2147483648) (min 2147483647 (p.y - s.params.hy)),
      max (-2147483648) (min 2147483647 (p.z - s.params.hz)), 0⟩ →
    hi = ⟨max (-2147483648) (min 2147483647 (p.x + s.params.hx)), max (-2147483648) (min 2147483647 (p.y + s.params.hy)),
      max (-2147483648) (min 2147483647 (p.z + s.params.hz)), 0⟩ →
    (∀ z, box z = (zoneRec (peekPart s (69 + 2 * z)) (peekPart s (69 + 2 * z + 1))).box) →
    (∀ z type, active z type ↔ z < 64 ∧ (peekPart s (69 + 2 * z)).getLsbD 0 = true ∧
      ((peekPart s (69 + 2 * z)).extractLsb' 1 3).toNat = type ∧ z ∉ s.guard.suspended ∧
      (field (peekPart s (69 + 2 * z)) 1 1 = 255 ∨ resolve true s (field (peekPart s (69 + 2 * z)) 1 1) = true)) →
    (∀ z, overlap z ↔ lo.x ≤ (box z).hi.x ∧ (box z).lo.x ≤ hi.x ∧ lo.y ≤ (box z).hi.y ∧ (box z).lo.y ≤ hi.y ∧
      lo.z ≤ (box z).hi.z ∧ (box z).lo.z ≤ hi.z) →
    (∀ z, contains z ↔ (box z).lo.x ≤ lo.x ∧ hi.x ≤ (box z).hi.x ∧ (box z).lo.y ≤ lo.y ∧ hi.y ≤ (box z).hi.y ∧
      (box z).lo.z ≤ lo.z ∧ hi.z ≤ (box z).hi.z) →
    (t.guard.outcome.violation = true ↔
      (∃ z, active z 1 ∧ overlap z) ∨ (∃ z, active z 2) ∧ ∀ z, active z 2 → ¬ contains z) ∧
    (t.guard.outcome.slow = true ↔ ∃ z, active z 3 ∧ overlap z) ∧
    (t.guard.outcome.noRelease = true ↔ ∃ z, active z 4 ∧ overlap z) ∧
    (∀ z, active z 1 → overlap z → (∀ y < z, ¬ (active y 1 ∧ overlap y)) → t.guard.outcome.zone = some z) ∧
    ((∀ z, ¬ (active z 1 ∧ overlap z)) →
      t.guard.outcome.zone = if t.guard.outcome.violation then some 64 else none) ∧
    Undisturbed s t ∧ t.mem = s.mem ∧ t.mgmt = s.mgmt ∧ t.terms = s.terms ∧ t.guard.suspended = s.guard.suspended ∧
    (s.ctl.recovery = false → t.guard.outcome.violation = true →
      t.ctl.conditions.guard = true ∧
      (s.ctl.mode ≠ .standby → ∀ z, t.guard.outcome.zone = some z →
        t.ctl.faults = (s.ctl.latch .guardViolation (BitVec.ofNat 32 z) s.clock.ms).faults ∧
        t.ctl.first = (s.ctl.latch .guardViolation (BitVec.ofNat 32 z) s.clock.ms).first) ∧
      (s.ctl.mode = .standby → t.ctl.faults = s.ctl.faults ∧ t.ctl.first = s.ctl.first) ∧
      (s.ctl.mode.held = false → t.ctl.mode = .hold ∧ t.ctl.holdN = true ∧ t.ctl.ret = some s.ctl.mode) ∧
      (s.ctl.mode.held = true → t.ctl.mode = s.ctl.mode ∧ t.ctl.ret = s.ctl.ret)) ∧
    (s.ctl.recovery = false → t.guard.outcome.violation = false →
      t.ctl = { s.ctl with conditions := ⟨false, false, false, false⟩ } ∧ t.guard.run = s.guard.run) ∧
    (s.ctl.recovery = true → t.ctl.faults = s.ctl.faults ∧ t.ctl.mode = s.ctl.mode ∧
      (t.guard.outcome.violation = true → t.guard.run = 0 ∧ t.ctl.recovery = true) ∧
      (t.guard.outcome.violation = false → s.guard.run < 9 → t.guard.run = s.guard.run + 1 ∧ t.ctl.recovery = true) ∧
      (t.guard.outcome.violation = false → 9 ≤ s.guard.run → t.guard.run = 0 ∧ t.ctl.recovery = false))

/-! ### Zones, stations, resets -/

/-- R109, R105, R174: CLEAR_FAULTS of level 1 or lower empties the fault set and the first-fault record. A SUSPEND or RESTORE of
a present zone whose part 0 is clean, of a level up to its DPL, sets or clears the suspended flag and nothing else; a poisoned
part 0 is judged with DPL 0; the reply shows the flag in bit 2. -/
def Obligations.SuspendAndRestoreSetTheFlag : Prop :=
  ∀ (s : State) (who : Sender) (level : Nat) (index : Half) (n : Nat) (flag : Byte), Heard s who level → level ≤ 2 →
    n = 69 + 2 * index.toNat → flag = (if s.guard.suspended.contains index.toNat then 4 else 0) →
    (level ≤ 1 → exec (.clearFaults who) s = .next (replied who 11 .ok 0 0
      ((arrived .up s).setCtl { s.ctl with faults := 0, first := none }))) ∧
    (level = 2 → exec (.clearFaults who) s = .next (replied who 11 .refusedLevel 0 0 (arrived .up s))) ∧
    (64 ≤ index.toNat →
      exec (.suspend who index) s = .next (replied who 9 .badIndex flag 0 (arrived .up s)) ∧
      exec (.restore who index) s = .next (replied who 10 .badIndex flag 0 (arrived .up s))) ∧
    (index.toNat < 64 → s.guard.poisoned.contains n = true → ∀ code, code = (if level = 0 then .memoryError else .refusedLevel) →
      exec (.suspend who index) s = .next (replied who 9 code flag 0 (arrived .up s)) ∧
      exec (.restore who index) s = .next (replied who 10 code flag 0 (arrived .up s))) ∧
    (index.toNat < 64 → PartClean s n → (peekPart s n).getLsbD 0 = false →
      exec (.suspend who index) s = .next (replied who 9 .badIndex flag 0 (arrived .up s)) ∧
      exec (.restore who index) s = .next (replied who 10 .badIndex flag 0 (arrived .up s))) ∧
    (index.toNat < 64 → PartClean s n → (peekPart s n).getLsbD 0 = true → ((peekPart s n).extractLsb' 4 2).toNat < level →
      exec (.suspend who index) s = .next (replied who 9 .refusedLevel flag 0 (arrived .up s)) ∧
      exec (.restore who index) s = .next (replied who 10 .refusedLevel flag 0 (arrived .up s))) ∧
    (index.toNat < 64 → PartClean s n → (peekPart s n).getLsbD 0 = true → level ≤ ((peekPart s n).extractLsb' 4 2).toNat →
      ∃ on off, exec (.suspend who index) s =
          .next (replied who 9 .ok 4 0 ((arrived .up s).setGuard { s.guard with suspended := on })) ∧
        exec (.restore who index) s =
          .next (replied who 10 .ok 0 0 ((arrived .up s).setGuard { s.guard with suspended := off })) ∧
        (∀ i, i ∈ on ↔ i = index.toNat ∨ i ∈ s.guard.suspended) ∧
        (∀ i, i ∈ off ↔ i ≠ index.toNat ∧ i ∈ s.guard.suspended))

/-- R45, R27, with log entry 15 (which feedback is the latest report: that of the present, readable entry of the station, else of
the unreadable one of its role that was captured last): STATION RETRY of level 1 or lower: the command in flight at a station
stalled by TIMEOUT or FAULT is reissued with the next number, its timer restarted; MISMATCH ends when the latest report of the
station agrees with the track. -/
def Obligations.RetryReissuesOrClears : Prop :=
  ∀ (s : State) (who : Sender) (level : Nat) (station : Half), Heard s who level →
    (1 < level → exec (.stationRetry who station) s = .next (replied who 12 .refusedLevel 0 0 (arrived .up s))) ∧
    (level ≤ 1 → 6 ≤ station.toNat →
      exec (.stationRetry who station) s = .next (replied who 12 .badIndex 0 0 (arrived .up s))) ∧
    (∀ st r, level ≤ 1 → stationOfCode station.toNat = some st → s.track.station st = r →
      (r.stall = .none → exec (.stationRetry who station) s = .next (replied who 12 .notFound 0 0 (arrived .up s))) ∧
      (∀ fl n, r.stall = .timeout ∨ r.stall = .fault → r.inflight = some fl →
        n = (if r.lastNum < 255 then r.lastNum + 1 else 1) →
        exec (.stationRetry who station) s = .next (replied who 12 .ok 0 0
          ((arrived .up s).setTrack (s.track.setStation st
            { lastNum := n, inflight := some { fl with num := n, issued := s.clock.ms, timer := true }, stall := .none })))) ∧
      (r.stall = .timeout ∨ r.stall = .fault → r.inflight = none →
        exec (.stationRetry who station) s = .next (replied who 12 .ok 0 0
          ((arrived .up s).setTrack (s.track.setStation st { r with stall := .none })))) ∧
      (∀ i agrees (entry : Nat → Prop), (∀ j, entry j ↔ ∃ x, s.axis.index[j]?.join = some x ∧ x.role = stationRole st) →
        r.stall = .mismatch → i < 24 → entry i →
        (axisUnreadable s i = false ∧ (∀ j < i, entry j → axisUnreadable s j = true)) ∨
          ((∀ j < 24, entry j → axisUnreadable s j = true) ∧ (feedbackOf s i).seen = true ∧
            ∃ l m, s.axis.recent = l ++ i :: m ∧ ∀ j ∈ l, entry j → (feedbackOf s j).seen = false) →
        (agrees ↔ (feedbackOf s i).seen = true ∧
          ((feedbackOf s i).status.getLsbD 2 = true ↔ ∃ t ∈ s.track.tickets, t.pos = st)) →
        (agrees → exec (.stationRetry who station) s = .next (replied who 12 .ok 0 0
          ((arrived .up s).setTrack (s.track.setStation st { r with stall := .none })))) ∧
        (¬ agrees → exec (.stationRetry who station) s = .next (replied who 12 .refusedBusy 0 0 (arrived .up s)))) ∧
      (r.stall = .mismatch →
        (∀ j x, j < 24 → s.axis.index[j]?.join = some x → x.role = stationRole st →
          axisUnreadable s j = true ∧ (j ∈ s.axis.recent → (feedbackOf s j).seen = false)) →
        exec (.stationRetry who station) s = .next (replied who 12 .refusedBusy 0 0 (arrived .up s))))

/-- R46, R14, R59, R61: STATION DISCARD of level 1 or lower: the discard ticket is that of the command in flight, else the first
at the station; it leaves the track and its record returns to the queue without counting; a RELEASING ticket leaves an
UNCONFIRMED record, a HELD one ends its placement. -/
def Obligations.DiscardRemovesTheTicket : Prop :=
  ∀ (s : State) (who : Sender) (level : Nat) (station : Half), Heard s who level →
    (1 < level → exec (.stationDiscard who station) s = .next (replied who 12 .refusedLevel 0 0 (arrived .up s))) ∧
    (level ≤ 1 → 6 ≤ station.toNat →
      exec (.stationDiscard who station) s = .next (replied who 12 .badIndex 0 0 (arrived .up s))) ∧
    (∀ st r, level ≤ 1 → stationOfCode station.toNat = some st → s.track.station st = r →
      (r.inflight = none → r.stall = .none → (∀ k ∈ s.track.tickets, k.pos ≠ st) →
        exec (.stationDiscard who station) s = .next (replied who 12 .notFound 0 0 (arrived .up s))) ∧
      (r.inflight = none → r.stall ≠ .none → (∀ k ∈ s.track.tickets, k.pos ≠ st) →
        exec (.stationDiscard who station) s = .next (replied who 12 .ok 0 0
          ((arrived .up s).setTrack (s.track.setStation st { r with stall := .none })))) ∧
      (∀ k x fl, r.inflight = none → s.track.tickets.find? (fun t => t.pos = st) = some k →
        (s.track.station x).inflight = some fl → fl.ticket = k.lay →
        exec (.stationDiscard who station) s = .next (replied who 12 .refusedBusy 0 0 (arrived .up s))) ∧
      (∀ k, (∃ fl, r.inflight = some fl ∧ s.track.find fl.ticket = some k) ∨
          r.inflight = none ∧ s.track.tickets.find? (fun t => t.pos = st) = some k ∧
            (∀ x fl, (s.track.station x).inflight = some fl → fl.ticket ≠ k.lay) →
        ∃ t, exec (.stationDiscard who station) s = .next (replied who 12 .ok 0 (packPart [(4, k.lay)]) t) ∧
          t.track = (s.track.setStation st { r with inflight := none, stall := .none }).remove k.lay ∧
          (∀ b e, boundOf k.lay s = some b →
            e = { lay := b.lay, course := b.course, failed := false, reissue := b.reissue, slot := b.slot } →
            t.plan = { s.plan with
              bound := s.plan.bound.filter (fun x => x.lay ≠ k.lay), queue := insertByLay e s.plan.queue }) ∧
          (k.state = .releasing → t.lay.phase = .lift ∧ t.lay.oz = 0 ∧ t.lay.heldRelease = false ∧
            t.lay.asLaid = s.lay.asLaid ++ [asLaidRecord k true s.lay]) ∧
          (k.state = .held → (s.lay.phase = .idle ∨ s.lay.phase = .approach →
            t.lay = { s.lay with phase := .idle, target := none, gate := 0 })) ∧
          (k.state = .held → (s.lay.phase = .descend ∨ s.lay.phase = .settle →
            t.lay = { s.lay with phase := .lift, timer := none, openPending := false, capture := none })) ∧
          (k.state ≠ .held → k.state ≠ .releasing → t.lay = s.lay) ∧
          t = (((arrived .up s).setTrack t.track).setPlan t.plan).setLay t.lay))

/-- R174, R175, R47, R67, R21, R22, R117, R190: CLEAR_FAULTS of level 1 or lower empties the fault set alone. RESTART of level 1
or lower sets STANDBY with the causes as they stand, empties the track, returns the records of all live tickets to the queue
without counting, and keeps the tables, parameters, feedback, samples, counters and queues; the train of the fine cells is over
with it (log entry 35). RESET of level 0 takes the power-on values but for the origin parts, the ring address, the pins and, by
log entry 4, the time bases; it makes no reply. -/
def Obligations.ClearRestartAndRingReset : Prop :=
  ∀ (s : State) (who : Sender) (level : Nat), Heard s who level →
    (1 < level →
      exec (.clearFaults who) s = .next (replied who 11 .refusedLevel 0 0 (arrived .up s)) ∧
      exec (.restart who) s = .next (replied who 13 .refusedLevel 0 0 (arrived .up s))) ∧
    (level ≤ 1 → exec (.clearFaults who) s = .next (replied who 11 .ok 0 0
      ((arrived .up s).setCtl { s.ctl with faults := 0, first := none }))) ∧
    (level ≤ 1 → ∃ t, exec (.restart who) s = .next (replied who 13 .ok 0 0 t) ∧
      t.ctl = { mode := .standby, ret := none, recovery := false, starved := false, request := false
                conditions := { guard := s.guard.outcome.violation
                                tracker := s.line.state == .lost || s.line.state == .none
                                zoneEcc := !s.guard.poisoned.isEmpty, term := termCause s }
                faults := s.ctl.faults, first := s.ctl.first, holdN := true } ∧
      t.track.tickets = [] ∧ t.track.counter = s.track.counter ∧
      (∀ st, t.track.station st = { lastNum := (s.track.station st).lastNum, inflight := none, stall := .none }) ∧
      t.lay = { phase := .idle, target := none, oz := 0, gate := 0, settle := 0, timer := none, capture := none
                heldRelease := false, openPending := false, asLaid := s.lay.asLaid, gateDue := false } ∧
      (PlanOrdered s.plan → layRising t.plan.queue ∧ ∀ q, q ∈ t.plan.queue ↔ q ∈ s.plan.queue ∨
        ∃ b ∈ s.plan.bound, (∃ k ∈ s.track.tickets, k.lay = b.lay) ∧
          q = { lay := b.lay, course := b.course, failed := false, reissue := b.reissue, slot := b.slot }) ∧
      t.plan.bound = s.plan.bound.filter (fun b => s.track.tickets.all fun k => k.lay != b.lay) ∧
      t.plan.highest = s.plan.highest ∧ t.plan.refs = s.plan.refs ∧
      t.mem = s.mem ∧ t.mgmt = s.mgmt ∧ t.params = s.params ∧ t.axis = { s.axis with trainOpen := false } ∧
      t.ring = (arrived .up s).ring ∧
      t.stab = s.stab ∧ t.terms = s.terms ∧ t.guard = { s.guard with run := 0 } ∧ t.line.cur = s.line.cur ∧
      t.line.state = s.line.state ∧ t.line.count = s.line.count ∧
      (s.params.trkLoop = false → t.line = { s.line with running := false, lastDue := none, waiting := none }) ∧
      (s.params.trkLoop = true → s.line.running = true → t.line = s.line) ∧
      t.clock = s.clock ∧ t.pins = s.pins ∧ t.pending = s.pending) ∧
    (0 < level → exec (.ringReset who) s = .next (arrived .up s)) ∧
    (level = 0 → ∃ t, exec (.ringReset who) s = .next t ∧
      t = { State.reset with
        clock := s.clock, pins := s.pins, ring := t.ring, mgmt := t.mgmt, mem := t.mem, pending := s.pending } ∧
      (∀ p, t.ring.rx p = { sync := .hunting, badRun := 0, goodRun := 0, good := 0, bad := 0, losses := 0
                            activity := some s.clock.us } ∧ t.ring.tx p = { queue := [], line := none }) ∧
      t.ring = { up := t.ring.up, down := t.ring.down, txUp := t.ring.txUp, txDown := t.ring.txDown, void := 0, gaps := 0
                 missed := 0, expiries := 0, overflows := 0, lastCycle := none, watchdog := none, append := false
                 ownAddr := s.ring.ownAddr } ∧
      t.mgmt = { replies := [], dropped := 0, corrected := 0, uncorrectable := 0, scrub := 0, passDue := false, passes := 0
                 unreadable := s.mgmt.unreadable.filter (fun n => n < 8) } ∧
      (∀ k, k ∈ t.mem.flips ↔ k < 1152 ∧ k ∈ s.mem.flips) ∧ (∀ i < 8, peekPart t i = peekPart s i) ∧
      (∀ p < 5, peekPart t (8 + p) = paramImage p State.reset.params) ∧ (∀ n, 13 ≤ n → peekPart t n = 0))

/-- R6, R190, R175: what a power-on reset, a RESET of level 0 and a RESTART of level 1 or lower leave of the courses. -/
def Obligations.CoursesAtTheResets : Prop :=
  ∀ s : State, MemoryCanonical s →
    (∀ ra oa ready space, ∃ t, exec (.powerOnReset ra oa ready space) s = .next t ∧ CoursesEmpty t) ∧
    (∀ who, Heard s who 0 → ∃ t, exec (.ringReset who) s = .next t ∧ CoursesEmpty t) ∧
    (∀ who level, Heard s who level → level ≤ 1 → ∃ t, exec (.restart who) s = .next t ∧
      (∀ k < 512, peekPart t (197 + k) = peekPart s (197 + k) ∧
        t.mgmt.unreadable.contains (197 + k) = s.mgmt.unreadable.contains (197 + k)) ∧
      ∀ c, refCount t c = refCount s c)

/-- R177, with log entries 8 and 9 (the model's form of a memory error): a TABLE_MEMORY_ERROR flips bits of one word of table
memory and nothing else; a bit that does not exist is a fault of the command. -/
def Obligations.TableMemoryErrorFlipsBits : Prop :=
  ∀ (s : State) (part word bit : Nat), MemoryCanonical s → part < 4814 → word < 2 → bit < 72 →
    (∃ t, exec (.tableMemoryError part word bit none) s = .next t ∧ t = s.setMem { s.mem with flips := t.mem.flips } ∧
      setWf t.mem.flips = true ∧
      ∀ k, k ∈ t.mem.flips ↔ (k ∈ s.mem.flips ↔ k ≠ (2 * part + word) * 72 + bit)) ∧
    (∀ b, b < 72 → b ≠ bit →
      ∃ t, exec (.tableMemoryError part word bit (some b)) s = .next t ∧ t = s.setMem { s.mem with flips := t.mem.flips } ∧
      setWf t.mem.flips = true ∧
      ∀ k, k ∈ t.mem.flips ↔
        (k ∈ s.mem.flips ↔ k ≠ (2 * part + word) * 72 + bit ∧ k ≠ (2 * part + word) * 72 + b)) ∧
    (∀ other, 4814 ≤ other → ∀ second, exec (.tableMemoryError other word bit second) s = .fault .noSuchBit)
end

