-- ==== Sys2Proof/Laws/State.lean ====
section
/-! SUPPORT. What each update of the state leaves and changes: one lemma for each field of each update. -/

namespace Sys2Proof.Machine

@[simp] theorem State.setClock_clock (s : State) (v : Clock) : (s.setClock v).clock = v := rfl
@[simp] theorem State.setClock_pins (s : State) (v : Clock) : (s.setClock v).pins = s.pins := rfl
@[simp] theorem State.setClock_ring (s : State) (v : Clock) : (s.setClock v).ring = s.ring := rfl
@[simp] theorem State.setClock_axis (s : State) (v : Clock) : (s.setClock v).axis = s.axis := rfl
@[simp] theorem State.setClock_line (s : State) (v : Clock) : (s.setClock v).line = s.line := rfl
@[simp] theorem State.setClock_stab (s : State) (v : Clock) : (s.setClock v).stab = s.stab := rfl
@[simp] theorem State.setClock_guard (s : State) (v : Clock) : (s.setClock v).guard = s.guard := rfl
@[simp] theorem State.setClock_terms (s : State) (v : Clock) : (s.setClock v).terms = s.terms := rfl
@[simp] theorem State.setClock_plan (s : State) (v : Clock) : (s.setClock v).plan = s.plan := rfl
@[simp] theorem State.setClock_track (s : State) (v : Clock) : (s.setClock v).track = s.track := rfl
@[simp] theorem State.setClock_lay (s : State) (v : Clock) : (s.setClock v).lay = s.lay := rfl
@[simp] theorem State.setClock_mgmt (s : State) (v : Clock) : (s.setClock v).mgmt = s.mgmt := rfl
@[simp] theorem State.setClock_mem (s : State) (v : Clock) : (s.setClock v).mem = s.mem := rfl
@[simp] theorem State.setClock_params (s : State) (v : Clock) : (s.setClock v).params = s.params := rfl
@[simp] theorem State.setClock_ctl (s : State) (v : Clock) : (s.setClock v).ctl = s.ctl := rfl
@[simp] theorem State.setClock_pending (s : State) (v : Clock) : (s.setClock v).pending = s.pending := rfl
@[simp] theorem State.setClock_self (s : State) : s.setClock s.clock = s := rfl
@[simp] theorem State.setClock_twice (s : State) (v w : Clock) : (s.setClock v).setClock w = s.setClock w := rfl

@[simp] theorem State.setPins_clock (s : State) (v : Pins) : (s.setPins v).clock = s.clock := rfl
@[simp] theorem State.setPins_pins (s : State) (v : Pins) : (s.setPins v).pins = v := rfl
@[simp] theorem State.setPins_ring (s : State) (v : Pins) : (s.setPins v).ring = s.ring := rfl
@[simp] theorem State.setPins_axis (s : State) (v : Pins) : (s.setPins v).axis = s.axis := rfl
@[simp] theorem State.setPins_line (s : State) (v : Pins) : (s.setPins v).line = s.line := rfl
@[simp] theorem State.setPins_stab (s : State) (v : Pins) : (s.setPins v).stab = s.stab := rfl
@[simp] theorem State.setPins_guard (s : State) (v : Pins) : (s.setPins v).guard = s.guard := rfl
@[simp] theorem State.setPins_terms (s : State) (v : Pins) : (s.setPins v).terms = s.terms := rfl
@[simp] theorem State.setPins_plan (s : State) (v : Pins) : (s.setPins v).plan = s.plan := rfl
@[simp] theorem State.setPins_track (s : State) (v : Pins) : (s.setPins v).track = s.track := rfl
@[simp] theorem State.setPins_lay (s : State) (v : Pins) : (s.setPins v).lay = s.lay := rfl
@[simp] theorem State.setPins_mgmt (s : State) (v : Pins) : (s.setPins v).mgmt = s.mgmt := rfl
@[simp] theorem State.setPins_mem (s : State) (v : Pins) : (s.setPins v).mem = s.mem := rfl
@[simp] theorem State.setPins_params (s : State) (v : Pins) : (s.setPins v).params = s.params := rfl
@[simp] theorem State.setPins_ctl (s : State) (v : Pins) : (s.setPins v).ctl = s.ctl := rfl
@[simp] theorem State.setPins_pending (s : State) (v : Pins) : (s.setPins v).pending = s.pending := rfl
@[simp] theorem State.setPins_self (s : State) : s.setPins s.pins = s := rfl
@[simp] theorem State.setPins_twice (s : State) (v w : Pins) : (s.setPins v).setPins w = s.setPins w := rfl

@[simp] theorem State.setRing_clock (s : State) (v : Ring) : (s.setRing v).clock = s.clock := rfl
@[simp] theorem State.setRing_pins (s : State) (v : Ring) : (s.setRing v).pins = s.pins := rfl
@[simp] theorem State.setRing_ring (s : State) (v : Ring) : (s.setRing v).ring = v := rfl
@[simp] theorem State.setRing_axis (s : State) (v : Ring) : (s.setRing v).axis = s.axis := rfl
@[simp] theorem State.setRing_line (s : State) (v : Ring) : (s.setRing v).line = s.line := rfl
@[simp] theorem State.setRing_stab (s : State) (v : Ring) : (s.setRing v).stab = s.stab := rfl
@[simp] theorem State.setRing_guard (s : State) (v : Ring) : (s.setRing v).guard = s.guard := rfl
@[simp] theorem State.setRing_terms (s : State) (v : Ring) : (s.setRing v).terms = s.terms := rfl
@[simp] theorem State.setRing_plan (s : State) (v : Ring) : (s.setRing v).plan = s.plan := rfl
@[simp] theorem State.setRing_track (s : State) (v : Ring) : (s.setRing v).track = s.track := rfl
@[simp] theorem State.setRing_lay (s : State) (v : Ring) : (s.setRing v).lay = s.lay := rfl
@[simp] theorem State.setRing_mgmt (s : State) (v : Ring) : (s.setRing v).mgmt = s.mgmt := rfl
@[simp] theorem State.setRing_mem (s : State) (v : Ring) : (s.setRing v).mem = s.mem := rfl
@[simp] theorem State.setRing_params (s : State) (v : Ring) : (s.setRing v).params = s.params := rfl
@[simp] theorem State.setRing_ctl (s : State) (v : Ring) : (s.setRing v).ctl = s.ctl := rfl
@[simp] theorem State.setRing_pending (s : State) (v : Ring) : (s.setRing v).pending = s.pending := rfl
@[simp] theorem State.setRing_self (s : State) : s.setRing s.ring = s := rfl
@[simp] theorem State.setRing_twice (s : State) (v w : Ring) : (s.setRing v).setRing w = s.setRing w := rfl

@[simp] theorem State.setAxis_clock (s : State) (v : Axis) : (s.setAxis v).clock = s.clock := rfl
@[simp] theorem State.setAxis_pins (s : State) (v : Axis) : (s.setAxis v).pins = s.pins := rfl
@[simp] theorem State.setAxis_ring (s : State) (v : Axis) : (s.setAxis v).ring = s.ring := rfl
@[simp] theorem State.setAxis_axis (s : State) (v : Axis) : (s.setAxis v).axis = v := rfl
@[simp] theorem State.setAxis_line (s : State) (v : Axis) : (s.setAxis v).line = s.line := rfl
@[simp] theorem State.setAxis_stab (s : State) (v : Axis) : (s.setAxis v).stab = s.stab := rfl
@[simp] theorem State.setAxis_guard (s : State) (v : Axis) : (s.setAxis v).guard = s.guard := rfl
@[simp] theorem State.setAxis_terms (s : State) (v : Axis) : (s.setAxis v).terms = s.terms := rfl
@[simp] theorem State.setAxis_plan (s : State) (v : Axis) : (s.setAxis v).plan = s.plan := rfl
@[simp] theorem State.setAxis_track (s : State) (v : Axis) : (s.setAxis v).track = s.track := rfl
@[simp] theorem State.setAxis_lay (s : State) (v : Axis) : (s.setAxis v).lay = s.lay := rfl
@[simp] theorem State.setAxis_mgmt (s : State) (v : Axis) : (s.setAxis v).mgmt = s.mgmt := rfl
@[simp] theorem State.setAxis_mem (s : State) (v : Axis) : (s.setAxis v).mem = s.mem := rfl
@[simp] theorem State.setAxis_params (s : State) (v : Axis) : (s.setAxis v).params = s.params := rfl
@[simp] theorem State.setAxis_ctl (s : State) (v : Axis) : (s.setAxis v).ctl = s.ctl := rfl
@[simp] theorem State.setAxis_pending (s : State) (v : Axis) : (s.setAxis v).pending = s.pending := rfl
@[simp] theorem State.setAxis_self (s : State) : s.setAxis s.axis = s := rfl
@[simp] theorem State.setAxis_twice (s : State) (v w : Axis) : (s.setAxis v).setAxis w = s.setAxis w := rfl

@[simp] theorem State.setLine_clock (s : State) (v : Line) : (s.setLine v).clock = s.clock := rfl
@[simp] theorem State.setLine_pins (s : State) (v : Line) : (s.setLine v).pins = s.pins := rfl
@[simp] theorem State.setLine_ring (s : State) (v : Line) : (s.setLine v).ring = s.ring := rfl
@[simp] theorem State.setLine_axis (s : State) (v : Line) : (s.setLine v).axis = s.axis := rfl
@[simp] theorem State.setLine_line (s : State) (v : Line) : (s.setLine v).line = v := rfl
@[simp] theorem State.setLine_stab (s : State) (v : Line) : (s.setLine v).stab = s.stab := rfl
@[simp] theorem State.setLine_guard (s : State) (v : Line) : (s.setLine v).guard = s.guard := rfl
@[simp] theorem State.setLine_terms (s : State) (v : Line) : (s.setLine v).terms = s.terms := rfl
@[simp] theorem State.setLine_plan (s : State) (v : Line) : (s.setLine v).plan = s.plan := rfl
@[simp] theorem State.setLine_track (s : State) (v : Line) : (s.setLine v).track = s.track := rfl
@[simp] theorem State.setLine_lay (s : State) (v : Line) : (s.setLine v).lay = s.lay := rfl
@[simp] theorem State.setLine_mgmt (s : State) (v : Line) : (s.setLine v).mgmt = s.mgmt := rfl
@[simp] theorem State.setLine_mem (s : State) (v : Line) : (s.setLine v).mem = s.mem := rfl
@[simp] theorem State.setLine_params (s : State) (v : Line) : (s.setLine v).params = s.params := rfl
@[simp] theorem State.setLine_ctl (s : State) (v : Line) : (s.setLine v).ctl = s.ctl := rfl
@[simp] theorem State.setLine_pending (s : State) (v : Line) : (s.setLine v).pending = s.pending := rfl
@[simp] theorem State.setLine_self (s : State) : s.setLine s.line = s := rfl
@[simp] theorem State.setLine_twice (s : State) (v w : Line) : (s.setLine v).setLine w = s.setLine w := rfl

@[simp] theorem State.setStab_clock (s : State) (v : Stab) : (s.setStab v).clock = s.clock := rfl
@[simp] theorem State.setStab_pins (s : State) (v : Stab) : (s.setStab v).pins = s.pins := rfl
@[simp] theorem State.setStab_ring (s : State) (v : Stab) : (s.setStab v).ring = s.ring := rfl
@[simp] theorem State.setStab_axis (s : State) (v : Stab) : (s.setStab v).axis = s.axis := rfl
@[simp] theorem State.setStab_line (s : State) (v : Stab) : (s.setStab v).line = s.line := rfl
@[simp] theorem State.setStab_stab (s : State) (v : Stab) : (s.setStab v).stab = v := rfl
@[simp] theorem State.setStab_guard (s : State) (v : Stab) : (s.setStab v).guard = s.guard := rfl
@[simp] theorem State.setStab_terms (s : State) (v : Stab) : (s.setStab v).terms = s.terms := rfl
@[simp] theorem State.setStab_plan (s : State) (v : Stab) : (s.setStab v).plan = s.plan := rfl
@[simp] theorem State.setStab_track (s : State) (v : Stab) : (s.setStab v).track = s.track := rfl
@[simp] theorem State.setStab_lay (s : State) (v : Stab) : (s.setStab v).lay = s.lay := rfl
@[simp] theorem State.setStab_mgmt (s : State) (v : Stab) : (s.setStab v).mgmt = s.mgmt := rfl
@[simp] theorem State.setStab_mem (s : State) (v : Stab) : (s.setStab v).mem = s.mem := rfl
@[simp] theorem State.setStab_params (s : State) (v : Stab) : (s.setStab v).params = s.params := rfl
@[simp] theorem State.setStab_ctl (s : State) (v : Stab) : (s.setStab v).ctl = s.ctl := rfl
@[simp] theorem State.setStab_pending (s : State) (v : Stab) : (s.setStab v).pending = s.pending := rfl
@[simp] theorem State.setStab_self (s : State) : s.setStab s.stab = s := rfl
@[simp] theorem State.setStab_twice (s : State) (v w : Stab) : (s.setStab v).setStab w = s.setStab w := rfl

@[simp] theorem State.setGuard_clock (s : State) (v : Guard) : (s.setGuard v).clock = s.clock := rfl
@[simp] theorem State.setGuard_pins (s : State) (v : Guard) : (s.setGuard v).pins = s.pins := rfl
@[simp] theorem State.setGuard_ring (s : State) (v : Guard) : (s.setGuard v).ring = s.ring := rfl
@[simp] theorem State.setGuard_axis (s : State) (v : Guard) : (s.setGuard v).axis = s.axis := rfl
@[simp] theorem State.setGuard_line (s : State) (v : Guard) : (s.setGuard v).line = s.line := rfl
@[simp] theorem State.setGuard_stab (s : State) (v : Guard) : (s.setGuard v).stab = s.stab := rfl
@[simp] theorem State.setGuard_guard (s : State) (v : Guard) : (s.setGuard v).guard = v := rfl
@[simp] theorem State.setGuard_terms (s : State) (v : Guard) : (s.setGuard v).terms = s.terms := rfl
@[simp] theorem State.setGuard_plan (s : State) (v : Guard) : (s.setGuard v).plan = s.plan := rfl
@[simp] theorem State.setGuard_track (s : State) (v : Guard) : (s.setGuard v).track = s.track := rfl
@[simp] theorem State.setGuard_lay (s : State) (v : Guard) : (s.setGuard v).lay = s.lay := rfl
@[simp] theorem State.setGuard_mgmt (s : State) (v : Guard) : (s.setGuard v).mgmt = s.mgmt := rfl
@[simp] theorem State.setGuard_mem (s : State) (v : Guard) : (s.setGuard v).mem = s.mem := rfl
@[simp] theorem State.setGuard_params (s : State) (v : Guard) : (s.setGuard v).params = s.params := rfl
@[simp] theorem State.setGuard_ctl (s : State) (v : Guard) : (s.setGuard v).ctl = s.ctl := rfl
@[simp] theorem State.setGuard_pending (s : State) (v : Guard) : (s.setGuard v).pending = s.pending := rfl
@[simp] theorem State.setGuard_self (s : State) : s.setGuard s.guard = s := rfl
@[simp] theorem State.setGuard_twice (s : State) (v w : Guard) : (s.setGuard v).setGuard w = s.setGuard w := rfl

@[simp] theorem State.setTerms_clock (s : State) (v : Terms) : (s.setTerms v).clock = s.clock := rfl
@[simp] theorem State.setTerms_pins (s : State) (v : Terms) : (s.setTerms v).pins = s.pins := rfl
@[simp] theorem State.setTerms_ring (s : State) (v : Terms) : (s.setTerms v).ring = s.ring := rfl
@[simp] theorem State.setTerms_axis (s : State) (v : Terms) : (s.setTerms v).axis = s.axis := rfl
@[simp] theorem State.setTerms_line (s : State) (v : Terms) : (s.setTerms v).line = s.line := rfl
@[simp] theorem State.setTerms_stab (s : State) (v : Terms) : (s.setTerms v).stab = s.stab := rfl
@[simp] theorem State.setTerms_guard (s : State) (v : Terms) : (s.setTerms v).guard = s.guard := rfl
@[simp] theorem State.setTerms_terms (s : State) (v : Terms) : (s.setTerms v).terms = v := rfl
@[simp] theorem State.setTerms_plan (s : State) (v : Terms) : (s.setTerms v).plan = s.plan := rfl
@[simp] theorem State.setTerms_track (s : State) (v : Terms) : (s.setTerms v).track = s.track := rfl
@[simp] theorem State.setTerms_lay (s : State) (v : Terms) : (s.setTerms v).lay = s.lay := rfl
@[simp] theorem State.setTerms_mgmt (s : State) (v : Terms) : (s.setTerms v).mgmt = s.mgmt := rfl
@[simp] theorem State.setTerms_mem (s : State) (v : Terms) : (s.setTerms v).mem = s.mem := rfl
@[simp] theorem State.setTerms_params (s : State) (v : Terms) : (s.setTerms v).params = s.params := rfl
@[simp] theorem State.setTerms_ctl (s : State) (v : Terms) : (s.setTerms v).ctl = s.ctl := rfl
@[simp] theorem State.setTerms_pending (s : State) (v : Terms) : (s.setTerms v).pending = s.pending := rfl
@[simp] theorem State.setTerms_self (s : State) : s.setTerms s.terms = s := rfl
@[simp] theorem State.setTerms_twice (s : State) (v w : Terms) : (s.setTerms v).setTerms w = s.setTerms w := rfl

@[simp] theorem State.setPlan_clock (s : State) (v : Plan) : (s.setPlan v).clock = s.clock := rfl
@[simp] theorem State.setPlan_pins (s : State) (v : Plan) : (s.setPlan v).pins = s.pins := rfl
@[simp] theorem State.setPlan_ring (s : State) (v : Plan) : (s.setPlan v).ring = s.ring := rfl
@[simp] theorem State.setPlan_axis (s : State) (v : Plan) : (s.setPlan v).axis = s.axis := rfl
@[simp] theorem State.setPlan_line (s : State) (v : Plan) : (s.setPlan v).line = s.line := rfl
@[simp] theorem State.setPlan_stab (s : State) (v : Plan) : (s.setPlan v).stab = s.stab := rfl
@[simp] theorem State.setPlan_guard (s : State) (v : Plan) : (s.setPlan v).guard = s.guard := rfl
@[simp] theorem State.setPlan_terms (s : State) (v : Plan) : (s.setPlan v).terms = s.terms := rfl
@[simp] theorem State.setPlan_plan (s : State) (v : Plan) : (s.setPlan v).plan = v := rfl
@[simp] theorem State.setPlan_track (s : State) (v : Plan) : (s.setPlan v).track = s.track := rfl
@[simp] theorem State.setPlan_lay (s : State) (v : Plan) : (s.setPlan v).lay = s.lay := rfl
@[simp] theorem State.setPlan_mgmt (s : State) (v : Plan) : (s.setPlan v).mgmt = s.mgmt := rfl
@[simp] theorem State.setPlan_mem (s : State) (v : Plan) : (s.setPlan v).mem = s.mem := rfl
@[simp] theorem State.setPlan_params (s : State) (v : Plan) : (s.setPlan v).params = s.params := rfl
@[simp] theorem State.setPlan_ctl (s : State) (v : Plan) : (s.setPlan v).ctl = s.ctl := rfl
@[simp] theorem State.setPlan_pending (s : State) (v : Plan) : (s.setPlan v).pending = s.pending := rfl
@[simp] theorem State.setPlan_self (s : State) : s.setPlan s.plan = s := rfl
@[simp] theorem State.setPlan_twice (s : State) (v w : Plan) : (s.setPlan v).setPlan w = s.setPlan w := rfl

@[simp] theorem State.setTrack_clock (s : State) (v : Track) : (s.setTrack v).clock = s.clock := rfl
@[simp] theorem State.setTrack_pins (s : State) (v : Track) : (s.setTrack v).pins = s.pins := rfl
@[simp] theorem State.setTrack_ring (s : State) (v : Track) : (s.setTrack v).ring = s.ring := rfl
@[simp] theorem State.setTrack_axis (s : State) (v : Track) : (s.setTrack v).axis = s.axis := rfl
@[simp] theorem State.setTrack_line (s : State) (v : Track) : (s.setTrack v).line = s.line := rfl
@[simp] theorem State.setTrack_stab (s : State) (v : Track) : (s.setTrack v).stab = s.stab := rfl
@[simp] theorem State.setTrack_guard (s : State) (v : Track) : (s.setTrack v).guard = s.guard := rfl
@[simp] theorem State.setTrack_terms (s : State) (v : Track) : (s.setTrack v).terms = s.terms := rfl
@[simp] theorem State.setTrack_plan (s : State) (v : Track) : (s.setTrack v).plan = s.plan := rfl
@[simp] theorem State.setTrack_track (s : State) (v : Track) : (s.setTrack v).track = v := rfl
@[simp] theorem State.setTrack_lay (s : State) (v : Track) : (s.setTrack v).lay = s.lay := rfl
@[simp] theorem State.setTrack_mgmt (s : State) (v : Track) : (s.setTrack v).mgmt = s.mgmt := rfl
@[simp] theorem State.setTrack_mem (s : State) (v : Track) : (s.setTrack v).mem = s.mem := rfl
@[simp] theorem State.setTrack_params (s : State) (v : Track) : (s.setTrack v).params = s.params := rfl
@[simp] theorem State.setTrack_ctl (s : State) (v : Track) : (s.setTrack v).ctl = s.ctl := rfl
@[simp] theorem State.setTrack_pending (s : State) (v : Track) : (s.setTrack v).pending = s.pending := rfl
@[simp] theorem State.setTrack_self (s : State) : s.setTrack s.track = s := rfl
@[simp] theorem State.setTrack_twice (s : State) (v w : Track) : (s.setTrack v).setTrack w = s.setTrack w := rfl

@[simp] theorem State.setLay_clock (s : State) (v : Lay) : (s.setLay v).clock = s.clock := rfl
@[simp] theorem State.setLay_pins (s : State) (v : Lay) : (s.setLay v).pins = s.pins := rfl
@[simp] theorem State.setLay_ring (s : State) (v : Lay) : (s.setLay v).ring = s.ring := rfl
@[simp] theorem State.setLay_axis (s : State) (v : Lay) : (s.setLay v).axis = s.axis := rfl
@[simp] theorem State.setLay_line (s : State) (v : Lay) : (s.setLay v).line = s.line := rfl
@[simp] theorem State.setLay_stab (s : State) (v : Lay) : (s.setLay v).stab = s.stab := rfl
@[simp] theorem State.setLay_guard (s : State) (v : Lay) : (s.setLay v).guard = s.guard := rfl
@[simp] theorem State.setLay_terms (s : State) (v : Lay) : (s.setLay v).terms = s.terms := rfl
@[simp] theorem State.setLay_plan (s : State) (v : Lay) : (s.setLay v).plan = s.plan := rfl
@[simp] theorem State.setLay_track (s : State) (v : Lay) : (s.setLay v).track = s.track := rfl
@[simp] theorem State.setLay_lay (s : State) (v : Lay) : (s.setLay v).lay = v := rfl
@[simp] theorem State.setLay_mgmt (s : State) (v : Lay) : (s.setLay v).mgmt = s.mgmt := rfl
@[simp] theorem State.setLay_mem (s : State) (v : Lay) : (s.setLay v).mem = s.mem := rfl
@[simp] theorem State.setLay_params (s : State) (v : Lay) : (s.setLay v).params = s.params := rfl
@[simp] theorem State.setLay_ctl (s : State) (v : Lay) : (s.setLay v).ctl = s.ctl := rfl
@[simp] theorem State.setLay_pending (s : State) (v : Lay) : (s.setLay v).pending = s.pending := rfl
@[simp] theorem State.setLay_self (s : State) : s.setLay s.lay = s := rfl
@[simp] theorem State.setLay_twice (s : State) (v w : Lay) : (s.setLay v).setLay w = s.setLay w := rfl

@[simp] theorem State.setMgmt_clock (s : State) (v : Mgmt) : (s.setMgmt v).clock = s.clock := rfl
@[simp] theorem State.setMgmt_pins (s : State) (v : Mgmt) : (s.setMgmt v).pins = s.pins := rfl
@[simp] theorem State.setMgmt_ring (s : State) (v : Mgmt) : (s.setMgmt v).ring = s.ring := rfl
@[simp] theorem State.setMgmt_axis (s : State) (v : Mgmt) : (s.setMgmt v).axis = s.axis := rfl
@[simp] theorem State.setMgmt_line (s : State) (v : Mgmt) : (s.setMgmt v).line = s.line := rfl
@[simp] theorem State.setMgmt_stab (s : State) (v : Mgmt) : (s.setMgmt v).stab = s.stab := rfl
@[simp] theorem State.setMgmt_guard (s : State) (v : Mgmt) : (s.setMgmt v).guard = s.guard := rfl
@[simp] theorem State.setMgmt_terms (s : State) (v : Mgmt) : (s.setMgmt v).terms = s.terms := rfl
@[simp] theorem State.setMgmt_plan (s : State) (v : Mgmt) : (s.setMgmt v).plan = s.plan := rfl
@[simp] theorem State.setMgmt_track (s : State) (v : Mgmt) : (s.setMgmt v).track = s.track := rfl
@[simp] theorem State.setMgmt_lay (s : State) (v : Mgmt) : (s.setMgmt v).lay = s.lay := rfl
@[simp] theorem State.setMgmt_mgmt (s : State) (v : Mgmt) : (s.setMgmt v).mgmt = v := rfl
@[simp] theorem State.setMgmt_mem (s : State) (v : Mgmt) : (s.setMgmt v).mem = s.mem := rfl
@[simp] theorem State.setMgmt_params (s : State) (v : Mgmt) : (s.setMgmt v).params = s.params := rfl
@[simp] theorem State.setMgmt_ctl (s : State) (v : Mgmt) : (s.setMgmt v).ctl = s.ctl := rfl
@[simp] theorem State.setMgmt_pending (s : State) (v : Mgmt) : (s.setMgmt v).pending = s.pending := rfl
@[simp] theorem State.setMgmt_self (s : State) : s.setMgmt s.mgmt = s := rfl
@[simp] theorem State.setMgmt_twice (s : State) (v w : Mgmt) : (s.setMgmt v).setMgmt w = s.setMgmt w := rfl

@[simp] theorem State.setMem_clock (s : State) (v : TableMem) : (s.setMem v).clock = s.clock := rfl
@[simp] theorem State.setMem_pins (s : State) (v : TableMem) : (s.setMem v).pins = s.pins := rfl
@[simp] theorem State.setMem_ring (s : State) (v : TableMem) : (s.setMem v).ring = s.ring := rfl
@[simp] theorem State.setMem_axis (s : State) (v : TableMem) : (s.setMem v).axis = s.axis := rfl
@[simp] theorem State.setMem_line (s : State) (v : TableMem) : (s.setMem v).line = s.line := rfl
@[simp] theorem State.setMem_stab (s : State) (v : TableMem) : (s.setMem v).stab = s.stab := rfl
@[simp] theorem State.setMem_guard (s : State) (v : TableMem) : (s.setMem v).guard = s.guard := rfl
@[simp] theorem State.setMem_terms (s : State) (v : TableMem) : (s.setMem v).terms = s.terms := rfl
@[simp] theorem State.setMem_plan (s : State) (v : TableMem) : (s.setMem v).plan = s.plan := rfl
@[simp] theorem State.setMem_track (s : State) (v : TableMem) : (s.setMem v).track = s.track := rfl
@[simp] theorem State.setMem_lay (s : State) (v : TableMem) : (s.setMem v).lay = s.lay := rfl
@[simp] theorem State.setMem_mgmt (s : State) (v : TableMem) : (s.setMem v).mgmt = s.mgmt := rfl
@[simp] theorem State.setMem_mem (s : State) (v : TableMem) : (s.setMem v).mem = v := rfl
@[simp] theorem State.setMem_params (s : State) (v : TableMem) : (s.setMem v).params = s.params := rfl
@[simp] theorem State.setMem_ctl (s : State) (v : TableMem) : (s.setMem v).ctl = s.ctl := rfl
@[simp] theorem State.setMem_pending (s : State) (v : TableMem) : (s.setMem v).pending = s.pending := rfl
@[simp] theorem State.setMem_self (s : State) : s.setMem s.mem = s := rfl
@[simp] theorem State.setMem_twice (s : State) (v w : TableMem) : (s.setMem v).setMem w = s.setMem w := rfl

@[simp] theorem State.setParams_clock (s : State) (v : Params) : (s.setParams v).clock = s.clock := rfl
@[simp] theorem State.setParams_pins (s : State) (v : Params) : (s.setParams v).pins = s.pins := rfl
@[simp] theorem State.setParams_ring (s : State) (v : Params) : (s.setParams v).ring = s.ring := rfl
@[simp] theorem State.setParams_axis (s : State) (v : Params) : (s.setParams v).axis = s.axis := rfl
@[simp] theorem State.setParams_line (s : State) (v : Params) : (s.setParams v).line = s.line := rfl
@[simp] theorem State.setParams_stab (s : State) (v : Params) : (s.setParams v).stab = s.stab := rfl
@[simp] theorem State.setParams_guard (s : State) (v : Params) : (s.setParams v).guard = s.guard := rfl
@[simp] theorem State.setParams_terms (s : State) (v : Params) : (s.setParams v).terms = s.terms := rfl
@[simp] theorem State.setParams_plan (s : State) (v : Params) : (s.setParams v).plan = s.plan := rfl
@[simp] theorem State.setParams_track (s : State) (v : Params) : (s.setParams v).track = s.track := rfl
@[simp] theorem State.setParams_lay (s : State) (v : Params) : (s.setParams v).lay = s.lay := rfl
@[simp] theorem State.setParams_mgmt (s : State) (v : Params) : (s.setParams v).mgmt = s.mgmt := rfl
@[simp] theorem State.setParams_mem (s : State) (v : Params) : (s.setParams v).mem = s.mem := rfl
@[simp] theorem State.setParams_params (s : State) (v : Params) : (s.setParams v).params = v := rfl
@[simp] theorem State.setParams_ctl (s : State) (v : Params) : (s.setParams v).ctl = s.ctl := rfl
@[simp] theorem State.setParams_pending (s : State) (v : Params) : (s.setParams v).pending = s.pending := rfl
@[simp] theorem State.setParams_self (s : State) : s.setParams s.params = s := rfl
@[simp] theorem State.setParams_twice (s : State) (v w : Params) : (s.setParams v).setParams w = s.setParams w := rfl

@[simp] theorem State.setCtl_clock (s : State) (v : Ctl) : (s.setCtl v).clock = s.clock := rfl
@[simp] theorem State.setCtl_pins (s : State) (v : Ctl) : (s.setCtl v).pins = s.pins := rfl
@[simp] theorem State.setCtl_ring (s : State) (v : Ctl) : (s.setCtl v).ring = s.ring := rfl
@[simp] theorem State.setCtl_axis (s : State) (v : Ctl) : (s.setCtl v).axis = s.axis := rfl
@[simp] theorem State.setCtl_line (s : State) (v : Ctl) : (s.setCtl v).line = s.line := rfl
@[simp] theorem State.setCtl_stab (s : State) (v : Ctl) : (s.setCtl v).stab = s.stab := rfl
@[simp] theorem State.setCtl_guard (s : State) (v : Ctl) : (s.setCtl v).guard = s.guard := rfl
@[simp] theorem State.setCtl_terms (s : State) (v : Ctl) : (s.setCtl v).terms = s.terms := rfl
@[simp] theorem State.setCtl_plan (s : State) (v : Ctl) : (s.setCtl v).plan = s.plan := rfl
@[simp] theorem State.setCtl_track (s : State) (v : Ctl) : (s.setCtl v).track = s.track := rfl
@[simp] theorem State.setCtl_lay (s : State) (v : Ctl) : (s.setCtl v).lay = s.lay := rfl
@[simp] theorem State.setCtl_mgmt (s : State) (v : Ctl) : (s.setCtl v).mgmt = s.mgmt := rfl
@[simp] theorem State.setCtl_mem (s : State) (v : Ctl) : (s.setCtl v).mem = s.mem := rfl
@[simp] theorem State.setCtl_params (s : State) (v : Ctl) : (s.setCtl v).params = s.params := rfl
@[simp] theorem State.setCtl_ctl (s : State) (v : Ctl) : (s.setCtl v).ctl = v := rfl
@[simp] theorem State.setCtl_pending (s : State) (v : Ctl) : (s.setCtl v).pending = s.pending := rfl
@[simp] theorem State.setCtl_self (s : State) : s.setCtl s.ctl = s := rfl
@[simp] theorem State.setCtl_twice (s : State) (v w : Ctl) : (s.setCtl v).setCtl w = s.setCtl w := rfl

@[simp] theorem State.setPending_clock (s : State) (v : List Instr) : (s.setPending v).clock = s.clock := rfl
@[simp] theorem State.setPending_pins (s : State) (v : List Instr) : (s.setPending v).pins = s.pins := rfl
@[simp] theorem State.setPending_ring (s : State) (v : List Instr) : (s.setPending v).ring = s.ring := rfl
@[simp] theorem State.setPending_axis (s : State) (v : List Instr) : (s.setPending v).axis = s.axis := rfl
@[simp] theorem State.setPending_line (s : State) (v : List Instr) : (s.setPending v).line = s.line := rfl
@[simp] theorem State.setPending_stab (s : State) (v : List Instr) : (s.setPending v).stab = s.stab := rfl
@[simp] theorem State.setPending_guard (s : State) (v : List Instr) : (s.setPending v).guard = s.guard := rfl
@[simp] theorem State.setPending_terms (s : State) (v : List Instr) : (s.setPending v).terms = s.terms := rfl
@[simp] theorem State.setPending_plan (s : State) (v : List Instr) : (s.setPending v).plan = s.plan := rfl
@[simp] theorem State.setPending_track (s : State) (v : List Instr) : (s.setPending v).track = s.track := rfl
@[simp] theorem State.setPending_lay (s : State) (v : List Instr) : (s.setPending v).lay = s.lay := rfl
@[simp] theorem State.setPending_mgmt (s : State) (v : List Instr) : (s.setPending v).mgmt = s.mgmt := rfl
@[simp] theorem State.setPending_mem (s : State) (v : List Instr) : (s.setPending v).mem = s.mem := rfl
@[simp] theorem State.setPending_params (s : State) (v : List Instr) : (s.setPending v).params = s.params := rfl
@[simp] theorem State.setPending_ctl (s : State) (v : List Instr) : (s.setPending v).ctl = s.ctl := rfl
@[simp] theorem State.setPending_pending (s : State) (v : List Instr) : (s.setPending v).pending = v := rfl
@[simp] theorem State.setPending_self (s : State) : s.setPending s.pending = s := rfl
@[simp] theorem State.setPending_twice (s : State) (v w : List Instr) : (s.setPending v).setPending w = s.setPending w := rfl

end Sys2Proof.Machine
end

