-- ==== Sys2Proof/Laws/Quiet.lean ====
section
/-! SUPPORT. What the shared operations leave alone. A read of table memory, the latch of a fault, a change of mode and an
evaluation of terms change the mode controller, the lay controller, the tracker line, the management unit, table memory, the
zone guard's flags and the term values at most: never the nine blocks that `quiet` collects. -/

namespace Sys2Proof.Machine

/-- The blocks that the shared operations of this file never change. -/
def quiet (s : State) : Clock × Pins × Ring × Axis × Stab × Plan × Track × Params × List Instr :=
  (s.clock, s.pins, s.ring, s.axis, s.stab, s.plan, s.track, s.params, s.pending)

theorem quiet_eq (s t : State) : quiet s = quiet t ↔
    s.clock = t.clock ∧ s.pins = t.pins ∧ s.ring = t.ring ∧ s.axis = t.axis ∧ s.stab = t.stab ∧ s.plan = t.plan ∧
      s.track = t.track ∧ s.params = t.params ∧ s.pending = t.pending := by
  simp [quiet, Prod.ext_iff]

/-! ### Modes -/

theorem quiet_setCtl (s : State) (v : Ctl) : quiet (s.setCtl v) = quiet s := rfl
theorem quiet_setLay (s : State) (v : Lay) : quiet (s.setLay v) = quiet s := rfl
theorem quiet_setLine (s : State) (v : Line) : quiet (s.setLine v) = quiet s := rfl
theorem quiet_setMgmt (s : State) (v : Mgmt) : quiet (s.setMgmt v) = quiet s := rfl
theorem quiet_setMem (s : State) (v : TableMem) : quiet (s.setMem v) = quiet s := rfl
theorem quiet_setGuard (s : State) (v : Guard) : quiet (s.setGuard v) = quiet s := rfl
theorem quiet_setTerms (s : State) (v : Terms) : quiet (s.setTerms v) = quiet s := rfl

theorem quiet_latch (k : FaultKind) (d : Nat) (s : State) : quiet (latch k d s) = quiet s := rfl
theorem quiet_takeCauses (s : State) : quiet (takeCauses s) = quiet s := rfl
theorem quiet_endRecovery (s : State) : quiet (endRecovery s) = quiet s := rfl

theorem quiet_frameDue (d : Word) (s : State) : quiet (frameDue d s) = quiet s := by
  unfold frameDue; split <;> rfl

theorem quiet_refreshTx (s : State) : quiet (refreshTx s) = quiet s := by
  unfold refreshTx
  split
  · split
    · rfl
    · rw [quiet_frameDue]; rfl
  · rfl

theorem quiet_setMode (m : Mode) (s : State) : quiet (setMode m s) = quiet s := by
  unfold setMode; rw [quiet_refreshTx]; rfl

theorem quiet_enterHold (s : State) : quiet (enterHold s) = quiet s := by
  unfold enterHold; rw [quiet_takeCauses, quiet_setMode]; rfl

theorem quiet_report (s : State) : quiet (report s) = quiet s := by
  unfold report
  dsimp only
  split
  · rw [quiet_enterHold]; rfl
  · rfl

theorem quiet_toStandby (s : State) : quiet (toStandby s) = quiet s := by
  unfold toStandby; rw [quiet_report, quiet_setMode]; rfl

theorem quiet_raiseStarved (s : State) : quiet (raiseStarved s) = quiet s := by
  unfold raiseStarved; split <;> first | rfl | (rw [quiet_enterHold]; rfl)

theorem quiet_raiseRequest (s : State) : quiet (raiseRequest s) = quiet s := by
  unfold raiseRequest; split <;> first | rfl | (rw [quiet_enterHold]; rfl)

theorem quiet_enterLost (c : Nat) (s : State) : quiet (enterLost c s) = quiet s := by
  unfold enterLost; split <;> first | rfl | (rw [quiet_report, quiet_refreshTx]; rfl)

theorem quiet_enterStale (s : State) : quiet (enterStale s) = quiet s := by
  unfold enterStale; split <;> first | rfl | (rw [quiet_report, quiet_refreshTx]; rfl)

theorem quiet_enterValid (s : State) : quiet (enterValid s) = quiet s := by
  unfold enterValid; rw [quiet_report, quiet_refreshTx]; rfl

/-! ### Reads of table memory -/

theorem quiet_storePart (n : Nat) (d : Part) (s : State) : quiet (storePart n d s) = quiet s := rfl
theorem quiet_markUnreadable (n : Nat) (s : State) : quiet (markUnreadable n s) = quiet s := rfl
theorem quiet_setHeld (i : Nat) (h : TermHeld) (s : State) : quiet (setHeld i h s) = quiet s := rfl

theorem quiet_uncorrectablePart (n : Nat) (s : State) : quiet (uncorrectablePart n s).2 = quiet s := by
  unfold uncorrectablePart
  split
  · simp only [quiet_report, quiet_latch, quiet_setGuard]
  · simp only [quiet_latch, quiet_storePart]
  · split
    · simp only
    · simp only [quiet_storePart]
  · simp only [quiet_latch, quiet_markUnreadable]
  · simp only [quiet_latch, quiet_markUnreadable]
  · simp only [quiet_report, quiet_setHeld, quiet_latch, quiet_markUnreadable]
  · simp only [quiet_latch, quiet_markUnreadable]

theorem quiet_writeBack (w : Nat) (f : WordFinding) (s : State) : quiet (writeBack w f s) = quiet s := by
  unfold writeBack
  split
  · exact quiet_setMem _ _
  · rfl

theorem quiet_countWords (a b : Nat) (s : State) : quiet (countWords a b s) = quiet s := rfl

theorem quiet_readPart (n : Nat) (s : State) : quiet (readPart n s).2 = quiet s := by
  unfold readPart
  dsimp only
  split
  · simp only [quiet_uncorrectablePart, quiet_countWords]
  · split
    · simp only [quiet_writeBack, quiet_countWords]
    · simp only [quiet_uncorrectablePart, quiet_writeBack, quiet_countWords]

theorem quiet_readPart_of {n : Nat} {s t : State} {p : Option Part} (h : readPart n s = (p, t)) : quiet t = quiet s := by
  have := quiet_readPart n s
  rwa [h] at this

theorem quiet_readAxis (i : Nat) (s : State) : quiet (readAxis i s).2 = quiet s := by
  unfold readAxis
  split <;> exact quiet_readPart_of (by assumption)

theorem quiet_readAxis_of {i : Nat} {s t : State} {p : Option AxisRec} (h : readAxis i s = (p, t)) :
    quiet t = quiet s := by
  have := quiet_readAxis i s
  rwa [h] at this

theorem quiet_readFine (r : Role) (s : State) : quiet (readFine r s).2 = quiet s := by
  unfold readFine
  split
  · rfl
  · split <;> exact quiet_readAxis_of (by assumption)

theorem quiet_readFines (s : State) : quiet (readFines s).2 = quiet s := by
  simp only [readFines, quiet_readFine]

theorem quiet_writtenPart (n : Nat) (s : State) : quiet (writtenPart n s).2 = quiet s := by
  unfold writtenPart
  split
  · rfl
  · split <;> exact quiet_readPart_of (by assumption)

theorem quiet_writeShown (r : Request) (s : State) : quiet (writeShown r s).2 = quiet s := by
  unfold writeShown
  split
  · exact quiet_writtenPart _ s
  · split
    · rfl
    · split <;> rfl

theorem quiet_readStored (n : Nat) (mask : Half) (s : State) : quiet (readStored n mask s).2 = quiet s := by
  unfold readStored
  split
  · rfl
  · exact quiet_readPart _ _

/-! ### Terms and scrub -/

theorem quiet_noteTerm (i : Nat) (s : State) : quiet (noteTerm i s) = quiet s := by
  unfold noteTerm; dsimp only; rw [quiet_report]; split <;> rfl

theorem quiet_evalTerm (i : Nat) (s : State) : quiet (evalTerm i s) = quiet s := by
  unfold evalTerm
  split
  · rw [quiet_noteTerm]; exact quiet_readPart_of (by assumption)
  · dsimp only
    rw [quiet_noteTerm, quiet_setHeld]; exact quiet_readPart_of (by assumption)

theorem quiet_evalTerms (l : List Nat) (s : State) : quiet (evalTerms l s) = quiet s := by
  unfold evalTerms
  induction l generalizing s with
  | nil => rfl
  | cons i l ih => rw [List.foldl_cons, ih, quiet_evalTerm]

theorem quiet_scrubStep (s : State) : quiet (scrubStep s) = quiet s := by
  unfold scrubStep
  dsimp only
  rw [quiet_setMgmt]
  split
  · rw [quiet_noteTerm, quiet_readPart]
  · rw [quiet_readPart]

/-! ### Zones and courses -/

theorem quiet_readZone (i : Nat) (s : State) : quiet (readZone i s).2 = quiet s := by
  simp only [readZone]
  have h := quiet_readPart (zonePart i 1) (readPart (zonePart i 0) s).2
  have h' := quiet_readPart (zonePart i 0) s
  split <;> exact h.trans h'

theorem quiet_readZonesOf (l : List Nat) (s : State) : quiet (readZonesOf l s).2 = quiet s := by
  induction l generalizing s with
  | nil => rfl
  | cons i l ih => simp only [readZonesOf]; rw [ih, quiet_readZone]

theorem quiet_readZones (s : State) : quiet (readZones s).2 = quiet s := quiet_readZonesOf _ s

theorem quiet_noteOutcome (o : Outcome) (s : State) : quiet (noteOutcome o s) = quiet s := by
  unfold noteOutcome
  split
  · split
    · rfl
    · split <;> rfl
  · split <;> rfl

theorem quiet_zoneEvaluate (p : Quad Int) (s : State) : quiet (zoneEvaluate p s) = quiet s := by
  simp only [zoneEvaluate]
  rw [quiet_report, quiet_noteOutcome, quiet_setGuard, quiet_readZones]

theorem quiet_evaluateZones (s : State) : quiet (evaluateZones s) = quiet s := by
  unfold evaluateZones; split
  · exact quiet_zoneEvaluate _ _
  · rfl

theorem quiet_pointTest (t : Target) (s : State) : quiet (pointTest t s).2 = quiet s := by
  simp only [pointTest]; exact quiet_readZones s

theorem quiet_readCourse (c : Nat) (s : State) : quiet (readCourse c s).2 = quiet s := by
  simp only [readCourse]
  have h := quiet_readPart (coursePart c 1) (readPart (coursePart c 0) s).2
  have h' := quiet_readPart (coursePart c 0) s
  split <;> exact h.trans h'

/-! ### Placement -/

theorem quiet_approachIfHeld (s : State) : quiet (approachIfHeld s) = quiet s := by
  unfold approachIfHeld; split <;> rfl

theorem quiet_placementBegins (l : Nat) (s : State) : quiet (placementBegins l s) = quiet s := by
  unfold placementBegins; rw [quiet_approachIfHeld]; rfl

theorem quiet_offsetStep (s : State) : quiet (offsetStep s) = quiet s := by
  unfold offsetStep; dsimp only; split
  · split <;> rfl
  · rfl

theorem quiet_layVerdict (s : State) : quiet (layVerdict s) = quiet s := by
  unfold layVerdict
  split
  · split
    all_goals first | rfl | (split <;> rfl)
  · rfl

theorem quiet_judgeGate (s : State) : quiet (judgeGate s) = quiet s := by
  unfold judgeGate
  split
  · rfl
  · exact quiet_readPart _ _

theorem quiet_gateAtTrain (s : State) : quiet (gateAtTrain s) = quiet s := by
  unfold gateAtTrain; dsimp only; rw [quiet_setLay]; split <;> rfl

theorem quiet_gateAtEnd (s : State) : quiet (gateAtEnd s) = quiet s := by
  unfold gateAtEnd; dsimp only; rw [quiet_setLay]
  split
  · split
    · exact quiet_judgeGate s
    · rfl
  · rfl

/-! ### The tracker line -/

theorem quiet_countLine (f : LineCounters → LineCounters) (s : State) : quiet (countLine f s) = quiet s := rfl
theorem quiet_setAsm (a : Assembler) (s : State) : quiet (setAsm a s) = quiet s := rfl

theorem quiet_abandonFrame (s : State) : quiet (abandonFrame s) = quiet s := by
  unfold abandonFrame; split <;> rfl

theorem quiet_stateOnAcceptance (s : State) : quiet (stateOnAcceptance s) = quiet s := by
  unfold stateOnAcceptance
  split
  · exact quiet_enterLost _ _
  · split
    · exact quiet_enterStale _
    · exact quiet_enterValid _

theorem quiet_acceptSample (c : Sample) (r : Bool) (s : State) : quiet (acceptSample c r s) = quiet s := by
  unfold acceptSample handTrackerWord
  dsimp only
  rw [quiet_evalTerms, quiet_setTerms, quiet_stateOnAcceptance]; rfl

theorem quiet_judge (c : Sample) (s : State) : quiet (judge c s) = quiet s := by
  unfold judge
  split
  · rfl
  · split
    · split
      · rfl
      · exact quiet_acceptSample _ _ _
    · exact quiet_acceptSample _ _ _

theorem quiet_completeFrame (b : List Byte) (p : Bool) (c : Half) (s : State) :
    quiet (completeFrame b p c s) = quiet s := by
  unfold completeFrame
  split
  · rfl
  · split
    · rfl
    · split
      · rfl
      · rw [quiet_judge]; rfl

theorem quiet_takeByte (b : Byte) (f : Bool) (s : State) : quiet (takeByte b f s) = quiet s := by
  unfold takeByte
  dsimp only
  split
  · split <;> rfl
  · split <;> rfl
  · rfl
  · split
    · rfl
    · rw [quiet_completeFrame]; rfl

theorem quiet_takeBytes (l : List (Byte × Bool)) (s : State) : quiet (takeBytes l s) = quiet s := by
  unfold takeBytes
  induction l generalizing s with
  | nil => rfl
  | cons c l ih => rw [List.foldl_cons, ih, quiet_takeByte]

theorem quiet_takeCharacter (d : Byte) (p b : Bool) (s : State) : quiet (takeCharacter d p b s) = quiet s := by
  unfold takeCharacter
  split
  · rfl
  · split
    · exact quiet_takeByte _ _ _
    · rw [quiet_abandonFrame]; rfl

theorem quiet_receiveCharacter (d : Byte) (p b : Bool) (s : State) : quiet (receiveCharacter d p b s) = quiet s := by
  unfold receiveCharacter
  split
  · rfl
  · rw [quiet_takeCharacter]; rfl

theorem quiet_receiveFrame (l : List Byte) (b : Bool) (s : State) : quiet (receiveFrame l b s) = quiet s := by
  induction l generalizing s with
  | nil => rfl
  | cons c l ih =>
    cases l with
    | nil => exact quiet_receiveCharacter _ _ _ _
    | cons d l => rw [receiveFrame, ih, quiet_receiveCharacter]; simp

end Sys2Proof.Machine
end

