-- ==== Sys2Proof/Laws/Receiving.lean ====
section
/-! SUPPORT. How a good cell is received, how a management cell comes to its operation, and what a read of a clean part
gives. -/

namespace Sys2Proof.Machine

/-! ### Good cells -/

theorem isGood_seal (c : Cell) : isGood (sealCell c) = true := by
  simp [isGood, sealCell, cellCrc, cellBody]

/-- A cell the part or the model builds is good. -/
@[simp] theorem isGood_goodCell (dst src kind flags : Byte) (p : BitVec 192) :
    isGood (goodCell dst src kind flags p) = true := isGood_seal _

@[simp] theorem goodCell_dst (dst src kind flags : Byte) (p : BitVec 192) : (goodCell dst src kind flags p).dst = dst := rfl
@[simp] theorem goodCell_src (dst src kind flags : Byte) (p : BitVec 192) : (goodCell dst src kind flags p).src = src := rfl
@[simp] theorem goodCell_kind (dst src kind flags : Byte) (p : BitVec 192) : (goodCell dst src kind flags p).kind = kind := rfl
@[simp] theorem goodCell_flags (dst src kind flags : Byte) (p : BitVec 192) :
    (goodCell dst src kind flags p).flags = flags := rfl
@[simp] theorem goodCell_payload (dst src kind flags : Byte) (p : BitVec 192) :
    (goodCell dst src kind flags p).payload = p := rfl

/-- A good cell at a SYNCED port is counted and passes (R134, R135). -/
theorem receive_good (p : Port) (c : Cell) (s : State) (hs : Synced p s) (hc : isGood c = true) :
    receive p c s = passGood p c (arrived p s) := by
  have hs' : (s.ring.rx p).sync = .synced := hs
  simp [receive, hc, arrived, PortRx.passes, hs']

@[simp] theorem arrived_clock (p : Port) (s : State) : (arrived p s).clock = s.clock := rfl
@[simp] theorem arrived_pins (p : Port) (s : State) : (arrived p s).pins = s.pins := rfl
@[simp] theorem arrived_axis (p : Port) (s : State) : (arrived p s).axis = s.axis := rfl
@[simp] theorem arrived_line (p : Port) (s : State) : (arrived p s).line = s.line := rfl
@[simp] theorem arrived_stab (p : Port) (s : State) : (arrived p s).stab = s.stab := rfl
@[simp] theorem arrived_guard (p : Port) (s : State) : (arrived p s).guard = s.guard := rfl
@[simp] theorem arrived_terms (p : Port) (s : State) : (arrived p s).terms = s.terms := rfl
@[simp] theorem arrived_plan (p : Port) (s : State) : (arrived p s).plan = s.plan := rfl
@[simp] theorem arrived_track (p : Port) (s : State) : (arrived p s).track = s.track := rfl
@[simp] theorem arrived_lay (p : Port) (s : State) : (arrived p s).lay = s.lay := rfl
@[simp] theorem arrived_mgmt (p : Port) (s : State) : (arrived p s).mgmt = s.mgmt := rfl
@[simp] theorem arrived_mem (p : Port) (s : State) : (arrived p s).mem = s.mem := rfl
@[simp] theorem arrived_params (p : Port) (s : State) : (arrived p s).params = s.params := rfl
@[simp] theorem arrived_ctl (p : Port) (s : State) : (arrived p s).ctl = s.ctl := rfl
@[simp] theorem arrived_pending (p : Port) (s : State) : (arrived p s).pending = s.pending := rfl
@[simp] theorem arrived_ownAddr (p : Port) (s : State) : (arrived p s).ring.ownAddr = s.ring.ownAddr := by
  cases p <;> rfl

/-! ### Reads of a clean part -/

theorem joinWords_extract (d : Part) : joinWords (d.extractLsb' 0 64) (d.extractLsb' 64 64) = d := by
  apply BitVec.eq_of_getLsbD_eq
  intro i hi
  simp only [joinWords, BitVec.getLsbD_append, BitVec.getLsbD_extractLsb']
  by_cases h : i < 64
  · simp [h]
  · simp only [h, decide_false, if_false]
    have h1 : i - 64 < 64 := by omega
    have h2 : 64 + (i - 64) = i := by omega
    simp [h1, h2]

theorem wordFinding_clean (t : TableMem) (w : Nat) (h : wordFlips t.flips w = []) :
    wordFinding t w = .clean (wordData t.cells w) := by
  simp [wordFinding, h]

/-- A read of a clean part gives its content and changes nothing (R177). -/
theorem readPart_clean (s : State) (n : Nat) (h : PartClean s n) :
    readPart n s = (some (partData s.mem.cells n), s) := by
  obtain ⟨h0, h1, hm⟩ := h
  have e0 : (2 * n) / 2 = n := by omega
  have e1 : (2 * n + 1) / 2 = n := by omega
  have m0 : (2 * n) % 2 = 0 := by omega
  have m1 : (2 * n + 1) % 2 = 1 := by omega
  simp only [readPart, wordFinding_clean _ _ h0, wordFinding_clean _ _ h1, findingBad, findingFixed, findingData, hm,
    Bool.toNat_false, Nat.add_zero, if_true, Bool.false_eq_true, if_false, writeBack, countWords, bumpBy, wordData,
    e0, e1, m0, m1, Nat.mul_zero, Nat.mul_one, joinWords_extract]
  rfl

theorem partClean_arrived (p : Port) (s : State) (n : Nat) : PartClean (arrived p s) n ↔ PartClean s n := Iff.rfl

/-- The lookup of an origin among clean origin parts (R163). -/
theorem readOrigins_clean (src : Byte) (l : List Nat) (s : State) (h : ∀ i ∈ l, PartClean s (originPart i)) :
    readOrigins src l s =
      (l.findSome? fun i =>
        let o := originRec (peekPart s (originPart i))
        if o.present = 1 && o.addr = src.toNat then some o.level else none, s) := by
  induction l with
  | nil => rfl
  | cons i l ih =>
    have hr : readPart (originPart i) s = (some (peekPart s (originPart i)), s) :=
      readPart_clean _ _ (h i List.mem_cons_self)
    simp only [readOrigins, hr, ih fun j hj => h j (List.mem_cons_of_mem _ hj), List.findSome?_cons]
    generalize originRec (peekPart s (originPart i)) = o
    by_cases hc : (decide (o.present = 1) && decide (o.addr = src.toNat)) = true <;> simp only [hc, if_true, if_false, Bool.false_eq_true]

theorem originLevel_clean (src : Byte) (s : State) (h : ∀ i < 8, PartClean s (originPart i)) :
    originLevel src s = (originOf s src, s) :=
  readOrigins_clean src _ s fun i hi => h i (by simpa using hi)

/-! ### Management cells -/

/-- The request that the cell of an operation carries. -/
def requestFor (who : Sender) (op selector : Byte) (index mask : Half) (data : Part) : Request :=
  { src := who.src, op := op, tag := who.tag, level := who.level, table := selector.extractLsb' 0 4,
    part := selector.extractLsb' 4 3, index := index, mask := mask, data := data }

theorem requestOf_mgtCell (own : Byte) (who : Sender) (op selector : Byte) (index mask : Half) (data : Part) :
    requestOf (mgtCell own who op selector index mask data) = requestFor who op selector index mask data := by
  simp only [requestOf, mgtCell, requestFor, goodCell_src, goodCell_payload, pbyte, phalf, mgtPayload]
  congr 1
  all_goals
    apply BitVec.eq_of_getLsbD_eq
    intro i hi
    simp only [BitVec.getLsbD_extractLsb', BitVec.getLsbD_append, hi, decide_true, Bool.true_and]
    repeat' split
    all_goals first | omega | (congr 1; omega) | (simp_all; omega)

theorem selector_table (table : BitVec 4) (part : BitVec 3) : (selectorOf table part).extractLsb' 0 4 = table := by
  revert table part; decide

theorem selector_part (table : BitVec 4) (part : BitVec 3) : (selectorOf table part).extractLsb' 4 3 = part := by
  revert table part; decide

/-- An operation that is heard is judged from step 3 of R164 on, with nothing else changed before it. -/
theorem operate_heard (s : State) (who : Sender) (level : Nat) (op selector : Byte) (index mask : Half) (data : Part)
    (h : Heard s who level) : ∃ l, level = max l who.level.toNat ∧
      operate who op selector index mask data s =
        .next (judgeRequest (requestFor who op selector index mask data) l (arrived .up s)) := by
  obtain ⟨l, hl, hlev⟩ := h.origin
  refine ⟨l, hlev, ?_⟩
  have hroom : hasRoom (requestFor who op selector index mask data) (arrived .up s) = true := by
    have h14 := h.room
    have hc : ∀ o, replyCount o ≤ 2 := by intro o; unfold replyCount; split; · omega
                                          · split <;> omega
    have := hc (requestFor who op selector index mask data).op
    exact decide_eq_true (show s.mgmt.replies.length + _ ≤ 16 by omega)
  have hcons : consumed (mgtCell s.ring.ownAddr who op selector index mask data) (arrived .up s) = true := by
    have := h.own
    simpa [consumed, mgtCell] using this
  have hk1 : ¬ kindMgt = kindTrain := by decide
  have hk2 : ¬ kindMgt = kindSet := by decide
  have hgood : isGood (mgtCell s.ring.ownAddr who op selector index mask data) = true := isGood_goodCell _ _ _ _ _
  have hkind : (mgtCell s.ring.ownAddr who op selector index mask data).kind = kindMgt := rfl
  rw [operate, receive_good _ _ _ h.synced hgood]
  simp only [passGood, passUp, hkind, hk1, hk2, if_false, if_true, hcons, requestOf_mgtCell, manage, hroom]
  have ho := originLevel_clean who.src (arrived .up s) fun i hi => (partClean_arrived _ _ _).2 (h.clean i hi)
  have hl' : originOf (arrived .up s) who.src = some l := hl
  simp only [requestFor, ho, hl']

/-- An operation that is heard and passes steps 3 to 6 of R164 is performed. -/
theorem operate_performed (s : State) (who : Sender) (level : Nat) (op selector : Byte) (index mask : Half) (data : Part)
    (h : Heard s who level) (hop : knownOp op = true) (htab : tableOk op (selector.extractLsb' 0 4).toNat = true)
    (hmin : level ≤ minimumLevel op) :
    operate who op selector index mask data s =
      .next (perform (requestFor who op selector index mask data) level (arrived .up s)) := by
  obtain ⟨l, hl, he⟩ := operate_heard s who level op selector index mask data h
  rw [he]
  subst hl
  have h2 := h.requested
  generalize hr : requestFor who op selector index mask data = r
  have r1 : r.level = who.level := by rw [← hr]; rfl
  have r2 : r.op = op := by rw [← hr]; rfl
  have r3 : r.table.toNat = (selector.extractLsb' 0 4).toNat := by rw [← hr]; rfl
  simp only [judgeRequest, r1, r2, r3, hop, htab, Bool.not_true, Bool.false_eq_true, if_false]
  rw [if_neg (by omega), if_neg (by omega)]

end Sys2Proof.Machine
end

