-- ==== Sys2Proof/Laws/Cells.lean ====
section
/-! SUPPORT. The fields of the cells that the commands build: a payload put together from its fields gives each of them back. -/

namespace Sys2Proof.Machine

theorem trainPayload_cycle (dst src kind flags : Byte) (cycle : Word) (period : Half) (rest : BitVec 144) :
    pword (goodCell dst src kind flags (trainPayload cycle period rest)) 0 = cycle := by
  simp only [pword, goodCell_payload, trainPayload]
  apply BitVec.eq_of_getLsbD_eq
  intro i hi
  simp only [BitVec.getLsbD_extractLsb', BitVec.getLsbD_append, hi, decide_true, Bool.true_and]
  repeat' split
  all_goals first | omega | (congr 1; omega)

theorem trainPayload_period (dst src kind flags : Byte) (cycle : Word) (period : Half) (rest : BitVec 144) :
    phalf (goodCell dst src kind flags (trainPayload cycle period rest)) 4 = period := by
  simp only [phalf, goodCell_payload, trainPayload]
  apply BitVec.eq_of_getLsbD_eq
  intro i hi
  simp only [BitVec.getLsbD_extractLsb', BitVec.getLsbD_append, hi, decide_true, Bool.true_and]
  repeat' split
  all_goals first | omega | (congr 1; omega)

/-- The fields of a drive SET cell. -/
theorem setPayload_fields (c : Cell) (position velocity : Word) (flags : Byte) (rest : BitVec 120)
    (h : c.payload = setPayload position velocity flags rest) :
    pword c 0 = position ∧ pword c 4 = velocity ∧ pbyte c 8 = flags ∧ setRest c = rest := by
  simp only [pword, pbyte, setRest, h, setPayload]
  refine ⟨?_, ?_, ?_, ?_⟩ <;>
    (apply BitVec.eq_of_getLsbD_eq
     intro i hi
     simp only [BitVec.getLsbD_extractLsb', BitVec.getLsbD_append, hi, decide_true, Bool.true_and]
     repeat' split
     all_goals first | omega | (congr 1; omega))

/-- The feedback that an FBK cell of given fields carries (R154, R192). -/
theorem feedbackOfCell_fields (dst src kind flags : Byte) (actual : Word) (status aux0 aux1 aux2 aux3 : Half) (rest : BitVec 80)
    (stamp : Option Word) :
    feedbackOfCell (goodCell dst src kind flags (fbkPayload actual status aux0 aux1 aux2 aux3 rest)) stamp =
      { actual := actual, status := status, aux0 := aux0, aux1 := aux1, aux2 := aux2, aux3 := aux3, stamp := stamp,
        seen := true } := by
  simp only [feedbackOfCell, pword, phalf, goodCell_payload, fbkPayload]
  congr 1
  all_goals
    apply BitVec.eq_of_getLsbD_eq
    intro i hi
    simp only [BitVec.getLsbD_extractLsb', BitVec.getLsbD_append, hi, decide_true, Bool.true_and]
    repeat' split
    all_goals first | omega | (congr 1; omega)

end Sys2Proof.Machine
end

