-- ==== Sys2Proof/Laws/Mail.lean ====
section
/-! SUPPORT. What the shared operations leave of the reply queue, the dropped count, the scrub position and the as-laid queue:
a read of table memory, the latch of a fault, a change of mode and an evaluation of terms never change what `mail` collects. -/

namespace Sys2Proof.Machine

/-- The queues of what the part has to report, the dropped count and the scrub position. -/
def mail (s : State) : List Reply × Nat × Nat × List AsLaid :=
  (s.mgmt.replies, s.mgmt.dropped, s.mgmt.scrub, s.lay.asLaid)

theorem mail_eq (s t : State) : mail s = mail t ↔
    s.mgmt.replies = t.mgmt.replies ∧ s.mgmt.dropped = t.mgmt.dropped ∧ s.mgmt.scrub = t.mgmt.scrub ∧
      s.lay.asLaid = t.lay.asLaid := by
  simp [mail, Prod.ext_iff]

/-! ### Changes of the lay controller that leave its as-laid queue -/

theorem mail_setLay (s : State) (v : Lay) (h : v.asLaid = s.lay.asLaid) : mail (s.setLay v) = mail s := by
  unfold mail
  rw [State.setLay_lay, State.setLay_mgmt, h]

theorem asLaid_leaveBed (l : Lay) (h : Nat) : (l.leaveBed h).asLaid = l.asLaid := by unfold Lay.leaveBed; split <;> rfl

theorem asLaid_onMode (l : Lay) (a b : Mode) (h : Nat) : (l.onMode a b h).asLaid = l.asLaid := by
  unfold Lay.onMode
  split
  · rfl
  · split
    · exact asLaid_leaveBed l h
    · rfl

theorem asLaid_countSettle (l : Lay) : l.countSettle.asLaid = l.asLaid := by unfold Lay.countSettle; split <;> rfl

theorem asLaid_descend (l : Lay) (a : Nat) (w : Word) : (l.descend a w).asLaid = l.asLaid := by
  unfold Lay.descend; split <;> rfl

theorem asLaid_lift (l : Lay) (a b : Nat) : (l.lift a b).asLaid = l.asLaid := by unfold Lay.lift; split <;> rfl

theorem asLaid_openGate (l : Lay) (k : Nat) (st : Stab) : (l.openGate k st).asLaid = l.asLaid := by
  unfold Lay.openGate; dsimp only; split <;> rfl

/-! ### Modes -/

theorem mail_setAxis (s : State) (v : Axis) : mail (s.setAxis v) = mail s := rfl
theorem mail_setTrack (s : State) (v : Track) : mail (s.setTrack v) = mail s := rfl
theorem mail_setPlan (s : State) (v : Plan) : mail (s.setPlan v) = mail s := rfl
theorem mail_setStab (s : State) (v : Stab) : mail (s.setStab v) = mail s := rfl
theorem mail_setRing (s : State) (v : Ring) : mail (s.setRing v) = mail s := rfl
theorem mail_setParams (s : State) (v : Params) : mail (s.setParams v) = mail s := rfl
theorem mail_setClock (s : State) (v : Clock) : mail (s.setClock v) = mail s := rfl
theorem mail_setPins (s : State) (v : Pins) : mail (s.setPins v) = mail s := rfl
theorem mail_setCtl (s : State) (v : Ctl) : mail (s.setCtl v) = mail s := rfl
theorem mail_setLine (s : State) (v : Line) : mail (s.setLine v) = mail s := rfl
theorem mail_setMem (s : State) (v : TableMem) : mail (s.setMem v) = mail s := rfl
theorem mail_setGuard (s : State) (v : Guard) : mail (s.setGuard v) = mail s := rfl
theorem mail_setTerms (s : State) (v : Terms) : mail (s.setTerms v) = mail s := rfl

theorem mail_latch (k : FaultKind) (d : Nat) (s : State) : mail (latch k d s) = mail s := rfl
theorem mail_takeCauses (s : State) : mail (takeCauses s) = mail s := rfl
theorem mail_endRecovery (s : State) : mail (endRecovery s) = mail s := rfl

theorem mail_frameDue (d : Word) (s : State) : mail (frameDue d s) = mail s := by
  unfold frameDue; split <;> rfl

theorem mail_refreshTx (s : State) : mail (refreshTx s) = mail s := by
  unfold refreshTx
  split
  · split
    · rfl
    · rw [mail_frameDue]; rfl
  · rfl

theorem mail_setMode (m : Mode) (s : State) : mail (setMode m s) = mail s := by
  unfold setMode
  rw [mail_refreshTx, mail_setCtl, mail_setLay _ _ (asLaid_onMode _ _ _ _)]

theorem mail_enterHold (s : State) : mail (enterHold s) = mail s := by
  unfold enterHold; rw [mail_takeCauses, mail_setMode]; rfl

theorem mail_report (s : State) : mail (report s) = mail s := by
  unfold report
  dsimp only
  split
  · rw [mail_enterHold]; rfl
  · rfl

theorem mail_toStandby (s : State) : mail (toStandby s) = mail s := by
  unfold toStandby; rw [mail_report, mail_setMode]; rfl

theorem mail_raiseStarved (s : State) : mail (raiseStarved s) = mail s := by
  unfold raiseStarved; split <;> first | rfl | (rw [mail_enterHold]; rfl)

theorem mail_raiseRequest (s : State) : mail (raiseRequest s) = mail s := by
  unfold raiseRequest; split <;> first | rfl | (rw [mail_enterHold]; rfl)

theorem mail_enterLost (c : Nat) (s : State) : mail (enterLost c s) = mail s := by
  unfold enterLost; split <;> first | rfl | (rw [mail_report, mail_refreshTx]; rfl)

theorem mail_enterStale (s : State) : mail (enterStale s) = mail s := by
  unfold enterStale; split <;> first | rfl | (rw [mail_report, mail_refreshTx]; rfl)

theorem mail_enterValid (s : State) : mail (enterValid s) = mail s := by
  unfold enterValid; rw [mail_report, mail_refreshTx]; rfl

/-! ### Reads of table memory -/

theorem mail_storePart (n : Nat) (d : Part) (s : State) : mail (storePart n d s) = mail s := rfl
theorem mail_markUnreadable (n : Nat) (s : State) : mail (markUnreadable n s) = mail s := rfl
theorem mail_setHeld (i : Nat) (h : TermHeld) (s : State) : mail (setHeld i h s) = mail s := rfl

theorem mail_uncorrectablePart (n : Nat) (s : State) : mail (uncorrectablePart n s).2 = mail s := by
  unfold uncorrectablePart
  split
  · simp only [mail_report, mail_latch, mail_setGuard]
  · simp only [mail_latch, mail_storePart]
  · split
    · simp only
    · simp only [mail_storePart]
  · simp only [mail_latch, mail_markUnreadable]
  · simp only [mail_latch, mail_markUnreadable]
  · simp only [mail_report, mail_setHeld, mail_latch, mail_markUnreadable]
  · simp only [mail_latch, mail_markUnreadable]

theorem mail_writeBack (w : Nat) (f : WordFinding) (s : State) : mail (writeBack w f s) = mail s := by
  unfold writeBack
  split
  · exact mail_setMem _ _
  · rfl

theorem mail_countWords (a b : Nat) (s : State) : mail (countWords a b s) = mail s := rfl

theorem mail_readPart (n : Nat) (s : State) : mail (readPart n s).2 = mail s := by
  unfold readPart
  dsimp only
  split
  · simp only [mail_uncorrectablePart, mail_countWords]
  · split
    · simp only [mail_writeBack, mail_countWords]
    · simp only [mail_uncorrectablePart, mail_writeBack, mail_countWords]

theorem mail_readPart_of {n : Nat} {s t : State} {p : Option Part} (h : readPart n s = (p, t)) : mail t = mail s := by
  have := mail_readPart n s
  rwa [h] at this

theorem mail_readAxis (i : Nat) (s : State) : mail (readAxis i s).2 = mail s := by
  unfold readAxis
  split <;> exact mail_readPart_of (by assumption)

theorem mail_readAxis_of {i : Nat} {s t : State} {p : Option AxisRec} (h : readAxis i s = (p, t)) :
    mail t = mail s := by
  have := mail_readAxis i s
  rwa [h] at this

theorem mail_readFine (r : Role) (s : State) : mail (readFine r s).2 = mail s := by
  unfold readFine
  split
  · rfl
  · split <;> exact mail_readAxis_of (by assumption)

theorem mail_readFines (s : State) : mail (readFines s).2 = mail s := by
  simp only [readFines, mail_readFine]

/-! ### Terms and scrub -/

theorem mail_noteTerm (i : Nat) (s : State) : mail (noteTerm i s) = mail s := by
  unfold noteTerm; dsimp only; rw [mail_report]; split <;> rfl

theorem mail_evalTerm (i : Nat) (s : State) : mail (evalTerm i s) = mail s := by
  unfold evalTerm
  split
  · rw [mail_noteTerm]; exact mail_readPart_of (by assumption)
  · dsimp only
    rw [mail_noteTerm, mail_setHeld]; exact mail_readPart_of (by assumption)

theorem mail_evalTerms (l : List Nat) (s : State) : mail (evalTerms l s) = mail s := by
  unfold evalTerms
  induction l generalizing s with
  | nil => rfl
  | cons i l ih => rw [List.foldl_cons, ih, mail_evalTerm]

theorem mail_scrubStep (s : State) : (scrubStep s).mgmt.replies = s.mgmt.replies ∧
    (scrubStep s).mgmt.dropped = s.mgmt.dropped ∧ (scrubStep s).lay.asLaid = s.lay.asLaid ∧
      (scrubStep s).mgmt.scrub = nextScrub s.mgmt.scrub := by
  unfold scrubStep
  dsimp only
  split
  · have h := (mail_eq _ _).1 ((mail_noteTerm ‹_› _).trans (mail_readPart s.mgmt.scrub s))
    exact ⟨h.1, h.2.1, h.2.2.2, rfl⟩
  · have h := (mail_eq _ _).1 (mail_readPart s.mgmt.scrub s)
    exact ⟨h.1, h.2.1, h.2.2.2, rfl⟩

/-! ### Zones and courses -/

theorem mail_readZone (i : Nat) (s : State) : mail (readZone i s).2 = mail s := by
  simp only [readZone]
  have h := mail_readPart (zonePart i 1) (readPart (zonePart i 0) s).2
  have h' := mail_readPart (zonePart i 0) s
  split <;> exact h.trans h'

theorem mail_readZonesOf (l : List Nat) (s : State) : mail (readZonesOf l s).2 = mail s := by
  induction l generalizing s with
  | nil => rfl
  | cons i l ih => simp only [readZonesOf]; rw [ih, mail_readZone]

theorem mail_readZones (s : State) : mail (readZones s).2 = mail s := mail_readZonesOf _ s

theorem mail_noteOutcome (o : Outcome) (s : State) : mail (noteOutcome o s) = mail s := by
  unfold noteOutcome
  split
  · split
    · rfl
    · split <;> rfl
  · split <;> rfl

theorem mail_zoneEvaluate (p : Quad Int) (s : State) : mail (zoneEvaluate p s) = mail s := by
  simp only [zoneEvaluate]
  rw [mail_report, mail_noteOutcome, mail_setGuard, mail_readZones]

theorem mail_evaluateZones (s : State) : mail (evaluateZones s) = mail s := by
  unfold evaluateZones; split
  · exact mail_zoneEvaluate _ _
  · rfl

theorem mail_pointTest (t : Target) (s : State) : mail (pointTest t s).2 = mail s := by
  simp only [pointTest]; exact mail_readZones s

theorem mail_readCourse (c : Nat) (s : State) : mail (readCourse c s).2 = mail s := by
  simp only [readCourse]
  have h := mail_readPart (coursePart c 1) (readPart (coursePart c 0) s).2
  have h' := mail_readPart (coursePart c 0) s
  split <;> exact h.trans h'

/-! ### Placement -/

theorem mail_approachIfHeld (s : State) : mail (approachIfHeld s) = mail s := by
  unfold approachIfHeld; split <;> rfl

theorem mail_placementBegins (l : Nat) (s : State) : mail (placementBegins l s) = mail s := by
  unfold placementBegins; rw [mail_approachIfHeld]; rfl

theorem mail_offsetStep (s : State) : mail (offsetStep s) = mail s := by
  unfold offsetStep
  dsimp only
  split
  · split <;> rw [mail_setLay] <;> simp only [asLaid_descend, asLaid_lift, asLaid_countSettle]
  · rw [mail_setLay _ _ (asLaid_countSettle _)]

theorem mail_layVerdict (s : State) : mail (layVerdict s) = mail s := by
  unfold layVerdict
  split
  · split
    all_goals first | rfl | (split <;> rfl)
  · rfl

theorem mail_settleGate (b : Bool) (s : State) : mail (settleGate b s) = mail s := by
  unfold settleGate
  refine mail_setLay _ _ ?_
  split
  · exact asLaid_openGate _ _ _
  · rfl

theorem mail_judgeGate (s : State) : mail (judgeGate s) = mail s := by
  unfold judgeGate
  split
  · exact mail_settleGate _ _
  · exact (mail_settleGate _ _).trans (mail_readPart _ _)

theorem mail_gateAtTrain (s : State) : mail (gateAtTrain s) = mail s := by
  unfold gateAtTrain
  dsimp only
  refine (mail_setLay _ _ rfl).trans ?_
  split
  · exact mail_settleGate _ _
  · rfl

theorem mail_gateAtEnd (s : State) : mail (gateAtEnd s) = mail s := by
  unfold gateAtEnd
  dsimp only
  refine (mail_setLay _ _ rfl).trans ?_
  split
  · split
    · exact mail_judgeGate s
    · exact mail_settleGate _ _
  · rfl

/-! ### The tracker line -/

theorem mail_countLine (f : LineCounters → LineCounters) (s : State) : mail (countLine f s) = mail s := rfl
theorem mail_setAsm (a : Assembler) (s : State) : mail (setAsm a s) = mail s := rfl

theorem mail_abandonFrame (s : State) : mail (abandonFrame s) = mail s := by
  unfold abandonFrame; split <;> rfl

theorem mail_stateOnAcceptance (s : State) : mail (stateOnAcceptance s) = mail s := by
  unfold stateOnAcceptance
  split
  · exact mail_enterLost _ _
  · split
    · exact mail_enterStale _
    · exact mail_enterValid _

theorem mail_acceptSample (c : Sample) (r : Bool) (s : State) : mail (acceptSample c r s) = mail s := by
  unfold acceptSample handTrackerWord
  dsimp only
  rw [mail_evalTerms, mail_setTerms, mail_stateOnAcceptance]; rfl

theorem mail_judge (c : Sample) (s : State) : mail (judge c s) = mail s := by
  unfold judge
  split
  · rfl
  · split
    · split
      · rfl
      · exact mail_acceptSample _ _ _
    · exact mail_acceptSample _ _ _

theorem mail_completeFrame (b : List Byte) (p : Bool) (c : Half) (s : State) :
    mail (completeFrame b p c s) = mail s := by
  unfold completeFrame
  split
  · rfl
  · split
    · rfl
    · split
      · rfl
      · rw [mail_judge]; rfl

theorem mail_takeByte (b : Byte) (f : Bool) (s : State) : mail (takeByte b f s) = mail s := by
  unfold takeByte
  dsimp only
  split
  · split <;> rfl
  · split <;> rfl
  · rfl
  · split
    · rfl
    · rw [mail_completeFrame]; rfl

theorem mail_takeBytes (l : List (Byte × Bool)) (s : State) : mail (takeBytes l s) = mail s := by
  unfold takeBytes
  induction l generalizing s with
  | nil => rfl
  | cons c l ih => rw [List.foldl_cons, ih, mail_takeByte]

theorem mail_takeCharacter (d : Byte) (p b : Bool) (s : State) : mail (takeCharacter d p b s) = mail s := by
  unfold takeCharacter
  split
  · rfl
  · split
    · exact mail_takeByte _ _ _
    · rw [mail_abandonFrame]; rfl

theorem mail_receiveCharacter (d : Byte) (p b : Bool) (s : State) : mail (receiveCharacter d p b s) = mail s := by
  unfold receiveCharacter
  split
  · rfl
  · rw [mail_takeCharacter]; rfl

theorem mail_receiveFrame (l : List Byte) (b : Bool) (s : State) : mail (receiveFrame l b s) = mail s := by
  induction l generalizing s with
  | nil => rfl
  | cons c l ih =>
    cases l with
    | nil => exact mail_receiveCharacter _ _ _ _
    | cons d l => rw [receiveFrame, ih, mail_receiveCharacter]; simp

end Sys2Proof.Machine
end

