-- ==== Sys2Proof/Laws/Steady.lean ====
section
/-! SUPPORT. What the brick track's operations leave alone: the clock, the pins, the ring, the axis table side, the stabilizer,
the parameters and the queue of commands (`steady`), and, but for the end of a release, what `mail` collects. -/

namespace Sys2Proof.Machine

variable {s t : State}

/-- The blocks that no operation of the brick track changes. -/
def steady (s : State) : Clock × Pins × Ring × Axis × Stab × Params × List Instr :=
  (s.clock, s.pins, s.ring, s.axis, s.stab, s.params, s.pending)

theorem steady_eq (s t : State) : steady s = steady t ↔
    s.clock = t.clock ∧ s.pins = t.pins ∧ s.ring = t.ring ∧ s.axis = t.axis ∧ s.stab = t.stab ∧ s.params = t.params ∧
      s.pending = t.pending := by
  simp [steady, Prod.ext_iff]

theorem steady_of_quiet (h : quiet t = quiet s) : steady t = steady s := by
  obtain ⟨h1, h2, h3, h4, h5, _, _, h8, h9⟩ := (quiet_eq _ _).1 h
  exact (steady_eq _ _).2 ⟨h1, h2, h3, h4, h5, h8, h9⟩

/-- Both frames at once: the steady blocks and the mail. -/
def Kept (t s : State) : Prop := steady t = steady s ∧ mail t = mail s

theorem Kept.rfl' (s : State) : Kept s s := ⟨rfl, rfl⟩

theorem Kept.trans {u : State} (h : Kept u t) (h' : Kept t s) : Kept u s := ⟨h.1.trans h'.1, h.2.trans h'.2⟩

theorem kept_setTrack (s : State) (v : Track) : Kept (s.setTrack v) s := ⟨rfl, rfl⟩
theorem kept_setPlan (s : State) (v : Plan) : Kept (s.setPlan v) s := ⟨rfl, rfl⟩
theorem kept_setCtl (s : State) (v : Ctl) : Kept (s.setCtl v) s := ⟨rfl, rfl⟩
theorem kept_setLay (s : State) (v : Lay) (h : v.asLaid = s.lay.asLaid) : Kept (s.setLay v) s := ⟨rfl, mail_setLay s v h⟩
theorem kept_latch (k : FaultKind) (d : Nat) (s : State) : Kept (latch k d s) s := ⟨rfl, rfl⟩

theorem kept_readPart (n : Nat) (s : State) : Kept (readPart n s).2 s :=
  ⟨steady_of_quiet (quiet_readPart n s), mail_readPart n s⟩

theorem kept_readPart_of {n : Nat} {p : Option Part} (h : readPart n s = (p, t)) : Kept t s := by
  have := kept_readPart n s
  rwa [h] at this

theorem kept_readAxis (i : Nat) (s : State) : Kept (readAxis i s).2 s :=
  ⟨steady_of_quiet (quiet_readAxis i s), mail_readAxis i s⟩

theorem kept_readCourse_of {c : Nat} {p : Option CourseRec} (h : readCourse c s = (p, t)) : Kept t s := by
  have h1 : Kept (readCourse c s).2 s := ⟨steady_of_quiet (quiet_readCourse c s), mail_readCourse c s⟩
  rwa [h] at h1

theorem kept_pointTest_of {g : Target} {b : Bool} (h : pointTest g s = (b, t)) : Kept t s := by
  have h1 : Kept (pointTest g s).2 s := ⟨steady_of_quiet (quiet_pointTest g s), mail_pointTest g s⟩
  rwa [h] at h1

theorem kept_stationEntry_of {st : Station} {p : Option Nat} (h : stationEntry st s = (p, t)) : Kept t s := by
  have h1 : Kept (stationEntry st s).2 s := by
    unfold stationEntry
    split
    · exact Kept.rfl' s
    · rename_i i _
      have hr := kept_readAxis i s
      split <;> rename_i heq <;> rwa [heq] at hr
  rwa [h] at h1

theorem kept_launch (c : Cmd) (k : Nat) (p : Word) (w : Nat) (s : State) : Kept (launch c k p w s) s := ⟨rfl, rfl⟩

theorem kept_issueFor (c : Cmd) (k : Ticket) (p : Word) (f : Ticket → Ticket) (s : State) : Kept (issueFor c k p f s) s := by
  unfold issueFor
  split
  · split <;> rename_i heq <;> have h := kept_stationEntry_of heq
    · exact h
    · exact (kept_launch _ _ _ _ _).trans ((kept_setTrack _ _).trans h)
  · exact Kept.rfl' s

theorem kept_admit (s : State) : Kept (admitHead s).2 s := by
  unfold admitHead
  split
  · exact Kept.rfl' s
  · split
    · exact kept_latch _ _ _
    · unfold admitRecord
      split <;> rename_i heq <;> have h1 := kept_readPart_of heq
      · exact (kept_latch _ _ _).trans h1
      · split <;> rename_i heq2 <;> have h2 := (kept_readCourse_of heq2).trans h1
        · exact (kept_latch _ _ _).trans h2
        · split
          · unfold admitInCourse
            split
            · exact (kept_latch _ _ _).trans h2
            · split <;> rename_i heq3 <;> have h3 := (kept_pointTest_of heq3).trans h2
              · exact (kept_latch _ _ _).trans h3
              · exact (kept_setPlan _ _).trans h3
          · exact (kept_latch _ _ _).trans h2

theorem kept_admit_of {a : Admission} (h : admitHead s = (a, t)) : Kept t s := by
  have := kept_admit s
  rwa [h] at this

theorem kept_issueFeed (s : State) : Kept (issueFeed s) s := by
  unfold issueFeed
  split
  · split <;> rename_i heq <;> have h := kept_stationEntry_of heq
    · exact h
    · split <;> rename_i heq2 <;> have h2 := (kept_admit_of heq2).trans h
      · exact h2
      · exact (kept_launch _ _ _ _ _).trans ((kept_setTrack _ _).trans h2)
  · exact Kept.rfl' s

theorem kept_issueSaw (s : State) : Kept (issueSaw s) s := by
  unfold issueSaw
  split
  · exact kept_issueFor _ _ _ _ _
  · split
    · exact kept_issueFor _ _ _ _ _
    · exact Kept.rfl' s

theorem kept_issueGlue (s : State) : Kept (issueGlue s) s := by
  unfold issueGlue
  split
  · split
    · exact kept_issueFor _ _ _ _ _
    · exact Kept.rfl' s
  · exact Kept.rfl' s

theorem kept_issueShuttle (s : State) : Kept (issueShuttle s) s := by
  unfold issueShuttle
  split
  · exact kept_issueFor _ _ _ _ _
  · split
    · split
      · exact kept_issueFor _ _ _ _ _
      · exact Kept.rfl' s
    · exact Kept.rfl' s

theorem kept_issueFlipper (s : State) : Kept (issueFlipper s) s := by
  unfold issueFlipper
  split
  · exact Kept.rfl' s
  · split
    · exact kept_issueFor _ _ _ _ _
    · split
      · exact kept_issueFor _ _ _ _ _
      · exact Kept.rfl' s

theorem kept_issueCommands (s : State) : Kept (issueCommands s) s :=
  (kept_issueFlipper _).trans ((kept_issueShuttle _).trans ((kept_issueGlue _).trans ((kept_issueSaw _).trans
    (kept_issueFeed s))))

theorem kept_spoilAtFlipper (s : State) : Kept (spoilAtFlipper s) s := by
  unfold spoilAtFlipper
  split
  · exact Kept.rfl' s
  · split
    · split
      · exact kept_setTrack _ _
      · exact Kept.rfl' s
    · exact Kept.rfl' s

theorem kept_requestOpen (s : State) : Kept (requestOpen s) s := by
  unfold requestOpen
  split
  · split
    · split <;> rename_i heq <;> have h := kept_stationEntry_of heq
      · exact h
      · exact (kept_launch _ _ _ _ _).trans ((kept_setLay _ _ rfl).trans ((kept_setTrack _ _).trans h))
    · exact Kept.rfl' s
  · exact Kept.rfl' s

theorem kept_layVerdict (s : State) : Kept (layVerdict s) s := ⟨steady_of_quiet (quiet_layVerdict s), mail_layVerdict s⟩

/-- The last work of a TRAIN arrival. -/
theorem kept_trainIssue (s : State) : Kept (trainIssue s) s :=
  (kept_issueCommands _).trans ((kept_spoilAtFlipper _).trans ((kept_requestOpen _).trans (kept_layVerdict s)))

theorem kept_reissue (l : Nat) (c : Bool) (s : State) : Kept (reissue l c s) s := by
  unfold reissue
  split
  · exact Kept.rfl' s
  · exact kept_setPlan _ _

theorem kept_planLaid (l : Nat) (s : State) : Kept (planLaid l s) s := by
  unfold planLaid
  split
  · exact Kept.rfl' s
  · exact kept_setPlan _ _

theorem kept_dropTicket (k : Ticket) (c : Bool) (s : State) : Kept (dropTicket k c s) s :=
  (kept_reissue _ _ _).trans (kept_setTrack _ _)

/-- A completion keeps the steady blocks. -/
theorem steady_completeFor (c : Cmd) (k : Ticket) (v : Int) (s : State) : steady (completeFor c k v s) = steady s := by
  cases c
  case cut => simp only [completeFor, cutCompletes]; split <;> rfl
  case eject => exact (kept_dropTicket _ _ _).1
  case drop => exact (kept_dropTicket _ _ _).1
  case openJaws => exact (kept_planLaid _ _).1
  case handover => rw [completeFor, steady_of_quiet (quiet_placementBegins _ _)]; rfl
  all_goals rfl

theorem steady_complete (st : Station) (f : InFlight) (v : Int) (s : State) : steady (complete st f v s) = steady s := by
  unfold complete
  dsimp only
  split
  · exact steady_completeFor _ _ _ _
  · rfl

theorem steady_stationReport (st : Station) (f : Feedback) (s : State) : steady (stationReport st f s) = steady s := by
  have h1 : steady (reportCommand st f s) = steady s := by
    unfold reportCommand
    dsimp only
    split
    · rfl
    · split
      · exact steady_complete _ _ _ _
      · split <;> rfl
  simp only [stationReport, compareSensor]
  split <;> exact h1

end Sys2Proof.Machine
end

