-- ==== Sys2Proof/Laws/Train.lean ====
section
/-! SUPPORT. The whole of an outbound TRAIN arrival: what it does to the ring ports, the axis table side and the stabilizer's
commands, and what the tracker state keeps while it runs. -/

namespace Sys2Proof.Machine

variable {s t : State}

/-! ### The tracker state and its samples outlast a change of mode -/

/-- The tracker state with its samples and expiry instants. -/
def track4 (s : State) : TrackState × Option Sample × Option Sample × Option Word × Option Word :=
  (s.line.state, s.line.cur, s.line.prev, s.line.staleAt, s.line.lostAt)

theorem track4_frameDue (d : Word) (s : State) : track4 (frameDue d s) = track4 s := by
  unfold frameDue; split <;> rfl

theorem track4_refreshTx (s : State) : track4 (refreshTx s) = track4 s := by
  unfold refreshTx
  split
  · split
    · rfl
    · rw [track4_frameDue]; rfl
  · rfl

theorem track4_setMode (m : Mode) (s : State) : track4 (setMode m s) = track4 s := by
  unfold setMode; rw [track4_refreshTx]; rfl

theorem track4_enterHold (s : State) : track4 (enterHold s) = track4 s := by
  unfold enterHold
  show track4 (setMode _ _) = _
  rw [track4_setMode]; rfl

theorem track4_report (s : State) : track4 (report s) = track4 s := by
  unfold report
  dsimp only
  split
  · rw [track4_enterHold]; rfl
  · rfl

theorem track4_latch (k : FaultKind) (d : Nat) (s : State) : track4 (latch k d s) = track4 s := rfl
theorem track4_setGuard (s : State) (v : Guard) : track4 (s.setGuard v) = track4 s := rfl
theorem track4_setRing (s : State) (v : Ring) : track4 (s.setRing v) = track4 s := rfl
theorem track4_beginTrain (cycle : Word) (period : Half) (s : State) : track4 (beginTrain cycle period s) = track4 s := rfl
theorem track4_setMgmt (s : State) (v : Mgmt) : track4 (s.setMgmt v) = track4 s := rfl
theorem track4_storePart (n : Nat) (d : Part) (s : State) : track4 (storePart n d s) = track4 s := rfl
theorem track4_markUnreadable (n : Nat) (s : State) : track4 (markUnreadable n s) = track4 s := rfl
theorem track4_setHeld (i : Nat) (h : TermHeld) (s : State) : track4 (setHeld i h s) = track4 s := rfl

theorem track4_uncorrectablePart (n : Nat) (s : State) : track4 (uncorrectablePart n s).2 = track4 s := by
  unfold uncorrectablePart
  split
  · simp only [track4_report, track4_latch, track4_setGuard]
  · simp only [track4_latch, track4_storePart]
  · split
    · simp only
    · simp only [track4_storePart]
  · simp only [track4_latch, track4_markUnreadable]
  · simp only [track4_latch, track4_markUnreadable]
  · simp only [track4_report, track4_setHeld, track4_latch, track4_markUnreadable]
  · simp only [track4_latch, track4_markUnreadable]

theorem track4_writeBack (w : Nat) (f : WordFinding) (s : State) : track4 (writeBack w f s) = track4 s := by
  unfold writeBack; split <;> rfl

theorem track4_readPart (n : Nat) (s : State) : track4 (readPart n s).2 = track4 s := by
  unfold readPart
  dsimp only
  split
  · rw [track4_uncorrectablePart]; rfl
  · split
    · rw [track4_writeBack, track4_writeBack]; rfl
    · rw [track4_uncorrectablePart, track4_writeBack, track4_writeBack]; rfl

theorem track4_noteTerm (i : Nat) (s : State) : track4 (noteTerm i s) = track4 s := by
  unfold noteTerm; dsimp only; rw [track4_report]; split <;> rfl

theorem track4_evalTerm (i : Nat) (s : State) : track4 (evalTerm i s) = track4 s := by
  have h := track4_readPart (termPart i) s
  unfold evalTerm
  split <;> rename_i heq <;> rw [heq] at h
  · rw [track4_noteTerm]; exact h
  · dsimp only; rw [track4_noteTerm]; exact h

theorem track4_evalTerms (l : List Nat) (s : State) : track4 (evalTerms l s) = track4 s := by
  unfold evalTerms
  induction l generalizing s with
  | nil => rfl
  | cons i l ih => rw [List.foldl_cons, ih, track4_evalTerm]

theorem track4_scrubStep (s : State) : track4 (scrubStep s) = track4 s := by
  unfold scrubStep
  dsimp only
  rw [track4_setMgmt]
  split
  · rw [track4_noteTerm, track4_readPart]
  · rw [track4_readPart]

theorem track4_approachIfHeld (s : State) : track4 (approachIfHeld s) = track4 s := by
  unfold approachIfHeld; split <;> rfl

theorem track4_offsetStep (s : State) : track4 (offsetStep s) = track4 s := by
  unfold offsetStep; dsimp only; split
  · split <;> rfl
  · rfl

theorem track4_gateAtTrain (s : State) : track4 (gateAtTrain s) = track4 s := by
  unfold gateAtTrain settleGate; dsimp only; split <;> rfl

theorem track4_readAxis (i : Nat) (s : State) : track4 (readAxis i s).2 = track4 s := by
  have h := track4_readPart (axisPart i) s
  unfold readAxis
  split <;> rename_i heq <;> rw [heq] at h <;> exact h

theorem track4_readFine (r : Role) (s : State) : track4 (readFine r s).2 = track4 s := by
  unfold readFine
  split
  · rfl
  · rename_i i _
    have h := track4_readAxis i s
    split <;> rename_i heq <;> rw [heq] at h <;> exact h

theorem track4_readFines (s : State) : track4 (readFines s).2 = track4 s := by
  simp only [readFines, track4_readFine]

/-! ### The stabilizer's computation -/

theorem steady_stabCompute (fr : Bool) (s : State) :
    steady (stabCompute fr s) = steady (s.setStab (stabCompute fr s).stab) := by
  have hq := quiet_readFines s
  unfold stabCompute
  generalize readFines s = r at hq ⊢
  obtain ⟨fines, t⟩ := r
  obtain ⟨h1, h2, h3, h4, _, _, _, h8, h9⟩ := (quiet_eq _ _).1 hq
  dsimp only at h1 h2 h3 h4 h8 h9 ⊢
  split
  · exact (steady_eq _ _).2 ⟨h1, h2, h3, h4, State.setStab_stab _ _ |>.symm, h8, h9⟩
  · exact (steady_eq _ _).2 ⟨h1, h2, h3, h4, State.setStab_stab _ _ |>.symm, h8, h9⟩

theorem mail_stabCompute (fr : Bool) (s : State) : mail (stabCompute fr s) = mail s := by
  have hm := mail_readFines s
  simp only [stabCompute]
  split
  · rw [mail_setStab]; exact hm
  · rw [mail_setLine, mail_setStab]; exact hm

/-- R69, R79: the commands that stood become C_prev; with the command frozen they stand. -/
theorem stab_stabCompute (fr : Bool) (s : State) : (stabCompute fr s).stab.cPrev = s.stab.c ∧
    (fr = true → (stabCompute fr s).stab.c = s.stab.c) ∧
    (s.line.state = .none ∨ s.line.state = .lost → (stabCompute fr s).stab = { s.stab with cPrev := s.stab.c }) := by
  have hst : (readFines s).2.stab = s.stab := ((quiet_eq _ _).1 (quiet_readFines s)).2.2.2.2.1
  have hline : (readFines s).2.line.state = s.line.state := congrArg Prod.fst (track4_readFines s)
  simp only [stabCompute]
  split
  · simp only [State.setStab_stab, hst]
    exact ⟨trivial, fun _ => trivial, fun _ => trivial⟩
  · rename_i c hc
    simp only [State.setLine_stab, State.setStab_stab, stagesOf, hst]
    refine ⟨trivial, fun hf => ?_, fun h => ?_⟩
    · simp only [commandAll, hf, if_true]
    · exfalso
      simp only [stageSample, hline] at hc
      rcases h with h | h <;> simp [h] at hc

/-! ### The whole arrival -/

/-- The state in which the stabilizer's computation of a TRAIN arrival begins. -/
def beforeStab (l : List Nat) (cycle : Word) (period : Half) (s : State) : State :=
  offsetStep (approachIfHeld (scrubStep (evalTerms l
    (gateAtTrain (beginTrain cycle period s)))))

theorem outboundTrain_eq (cycle : Word) (period : Half) (s : State) :
    outboundTrain cycle period s =
      trainIssue (evaluateZones (stabCompute (frozen s) (beforeStab (List.range 32) cycle period s))) := by
  unfold outboundTrain trainCompute beforeStab
  generalize List.range 32 = l
  rfl

theorem quiet_beforeStab (l : List Nat) (cycle : Word) (period : Half) (s : State) :
    quiet (beforeStab l cycle period s) = quiet (beginTrain cycle period s) := by
  unfold beforeStab
  rw [quiet_offsetStep, quiet_approachIfHeld, quiet_scrubStep, quiet_evalTerms, quiet_gateAtTrain]

theorem state_beforeStab (l : List Nat) (cycle : Word) (period : Half) (s : State) :
    track4 (beforeStab l cycle period s) = track4 s := by
  unfold beforeStab
  rw [track4_offsetStep, track4_approachIfHeld, track4_scrubStep, track4_evalTerms, track4_gateAtTrain, track4_beginTrain]

/-- R140, R160: an outbound TRAIN arrival changes of the steady blocks the ring ports' own part, the slot flags and the
stabilizer alone. -/
theorem steady_outboundTrain (cycle : Word) (period : Half) (s : State) :
    steady (outboundTrain cycle period s) =
      steady ((beginTrain cycle period s).setStab
        (stabCompute (frozen s) (beforeStab (List.range 32) cycle period s)).stab) := by
  have hq := quiet_beforeStab (List.range 32) cycle period s
  rw [outboundTrain_eq]
  generalize beforeStab (List.range 32) cycle period s = b at hq ⊢
  rw [(kept_trainIssue _).1, steady_of_quiet (quiet_evaluateZones _), steady_stabCompute]
  obtain ⟨h1, h2, h3, h4, _, _, _, h8, h9⟩ := (quiet_eq _ _).1 hq
  exact (steady_eq _ _).2 ⟨h1, h2, h3, h4, (State.setStab_stab _ _).trans (State.setStab_stab _ _).symm, h8, h9⟩

theorem outboundTrain_mail (cycle : Word) (period : Half) (s : State) :
    (outboundTrain cycle period s).mgmt.replies = s.mgmt.replies ∧
      (outboundTrain cycle period s).mgmt.dropped = s.mgmt.dropped ∧
      (outboundTrain cycle period s).mgmt.scrub = nextScrub s.mgmt.scrub ∧
      (outboundTrain cycle period s).lay.asLaid = s.lay.asLaid := by
  rw [outboundTrain_eq]
  generalize List.range 32 = l
  unfold beforeStab
  generalize hg : gateAtTrain (beginTrain cycle period s) = g
  have h0 : mail g = mail s := by rw [← hg, mail_gateAtTrain, beginTrain, clearSlots, mail_setAxis, mail_setRing]
  have h2 : mail (evalTerms l g) = mail s := (mail_evalTerms l g).trans h0
  generalize evalTerms l g = e at h2
  have h1 : mail (trainIssue (evaluateZones (stabCompute (frozen s) (offsetStep (approachIfHeld (scrubStep e)))))) =
      mail (scrubStep e) := by
    rw [(kept_trainIssue _).2, mail_evaluateZones, mail_stabCompute, mail_offsetStep, mail_approachIfHeld]
  obtain ⟨a1, a2, a3, a4⟩ := (mail_eq _ _).1 h1
  obtain ⟨b1, b2, b3, b4⟩ := (mail_eq _ _).1 h2
  obtain ⟨c1, c2, c3, c4⟩ := mail_scrubStep e
  exact ⟨a1.trans (c1.trans b1), a2.trans (c2.trans b2), a3.trans (by rw [c4, b3]), a4.trans (c3.trans b4)⟩

/-- R69, R78, R79: the stabilizer's commands over an outbound TRAIN arrival. -/
theorem stab_outboundTrain (cycle : Word) (period : Half) (s : State) :
    (outboundTrain cycle period s).stab.cPrev = s.stab.c ∧
    (s.ctl.mode.held = true ∨ s.line.state ≠ .valid → (outboundTrain cycle period s).stab.c = s.stab.c) ∧
    (s.line.state = .none ∨ s.line.state = .lost →
      (outboundTrain cycle period s).stab = { s.stab with cPrev := s.stab.c }) := by
  have h0 : (outboundTrain cycle period s).stab = (stabCompute (frozen s) (beforeStab (List.range 32) cycle period s)).stab :=
    ((steady_eq _ _).1 (steady_outboundTrain cycle period s)).2.2.2.2.1.trans (State.setStab_stab _ _)
  have h1 := ((quiet_eq _ _).1 (quiet_beforeStab (List.range 32) cycle period s)).2.2.2.2.1
  have h2 := congrArg Prod.fst (state_beforeStab (List.range 32) cycle period s)
  generalize beforeStab (List.range 32) cycle period s = b at h0 h1 h2
  have h1' : b.stab = s.stab := h1
  obtain ⟨a, b, c⟩ := stab_stabCompute (frozen s) b
  rw [h0, ← h1']
  refine ⟨a, fun h => b ?_, fun h => c ?_⟩
  · simpa [frozen, Bool.or_eq_true, bne_iff_ne] using h
  · exact h.imp (fun e => h2.trans e) (fun e => h2.trans e)

end Sys2Proof.Machine
end

