-- ==== Sys2Proof/Laws/Issue.lean ====
section
/-! SUPPORT. The issue of a station command: who stands at a station, when R31 allows a command, what the station's axis part gives,
and all that an issue can do. -/

namespace Sys2Proof.Machine

/-- The ticket that stands at a station is the oldest one there (R23). -/
theorem first_eq (t : Track) (st : Station) : t.first st = t.tickets.find? (fun x => x.pos = st) := by
  unfold Track.first Track.at
  rw [List.head?_filter]
  rfl

theorem first_some (s : State) (st : Station) (k : Ticket) : s.track.first st = some k ↔ standsFirst s st k := by
  rw [first_eq]; rfl
theorem first_none (s : State) (st : Station) : s.track.first st = none ↔ standsFree s st := by
  rw [first_eq]; simp [standsFree]

theorem first_pos (s : State) (st : Station) (k : Ticket) (h : standsFirst s st k) : k.pos = st := by
  have := List.find?_some h; simpa using this

/-- R31, as a proposition. -/
theorem mayIssue_iff (c : Cmd) (pos : Station) (s : State) : mayIssue c pos s = true ↔ MayIssue s c pos := by
  have hm : modePermits s.ctl.mode c = true ↔ (s.ctl.mode = .lay ∨ s.ctl.mode = .guard ∧ c ≠ .feedOne ∧ c ≠ .handover) := by
    cases s.ctl.mode <;> simp [modePermits]
  constructor
  · intro h
    simp only [mayIssue, Bool.and_eq_true, List.all_eq_true, hm] at h
    obtain ⟨⟨h1, h2⟩, h3⟩ := h
    refine ⟨by simpa [busy] using h1, fun st hst => ?_, h3⟩
    have := h2 st hst
    simpa [stalled] using this
  · rintro ⟨h1, h2, h3⟩
    simp only [mayIssue, Bool.and_eq_true, List.all_eq_true, hm]
    exact ⟨⟨by simp [busy, h1], fun st hst => by simp [stalled, h2 st hst]⟩, h3⟩

/-- A fitted station gives its timeout, and the read changes nothing. -/
theorem stationEntry_fitted (s : State) (st : Station) (n : Nat) (h : Fitted s st n) : stationEntry st s = (some n, s) := by
  obtain ⟨i, hi, hc, rfl⟩ := h
  unfold stationEntry; rw [hi]; simp only
  unfold readAxis axisPart
  rw [readPart_clean s _ hc]
  rfl

theorem stationEntry_none (s : State) (st : Station) (h : entryOfRole (stationRole st) s = none) : stationEntry st s = (none, s) := by
  unfold stationEntry; rw [h]

/-- The launch of a command for a ticket, with what becomes of the ticket. -/
theorem launch_setTicket (c : Cmd) (k : Ticket) (param : Word) (timeout : Nat) (f : Ticket → Ticket) (s : State) :
    launch c k.lay param timeout (setTicket k.lay f s) = launched c k param timeout f s := by
  have h : ∀ n, nextNumber n = if n < 255 then n + 1 else 1 := by intro n; unfold nextNumber; split <;> split <;> omega
  unfold launch launched setStation setTicket Track.update
  simp only [beq_iff_eq]
  cases c <;> simp [Cmd.station, Track.station, Track.setStation, State.setTrack, h] <;> rfl

/-- All that an issue can do. -/
theorem issueFor_issues (c : Cmd) (k : Ticket) (param : Word) (f : Ticket → Ticket) (s : State) :
    Issues c k param f s (issueFor c k param f s) := by
  refine ⟨?_, ?_⟩
  · rintro (h | h)
    · rw [← mayIssue_iff] at h; simp [issueFor, h]
    · unfold issueFor; rw [stationEntry_none s _ h]; simp
  · intro n h hf
    rw [← mayIssue_iff] at h
    unfold issueFor; rw [stationEntry_fitted s _ n hf, h]; simp only [if_true]
    exact launch_setTicket ..

theorem unmarked_iff (k : Ticket) : k.unmarked = true ↔ k.reject = false ∧ k.spoilt = false ∧ k.purge = false := by
  simp [Ticket.unmarked, and_assoc]

end Sys2Proof.Machine
end

