-- ==== Sys2Proof/Laws/Memory.lean ====
section
/-! SUPPORT. The bytes of table memory: a read after a write, and the canonical form that every write keeps; strictly rising
lists of numbers. -/

namespace Sys2Proof.Machine

/-! ### Strictly rising lists -/

theorem setWf_cons (a : Nat) (l : List Nat) : setWf (a :: l) = true ↔ (∀ b ∈ l, a < b) ∧ setWf l = true := by
  induction l generalizing a with
  | nil => simp [setWf]
  | cons b l ih =>
    simp only [setWf, Bool.and_eq_true, decide_eq_true_eq, List.mem_cons]
    constructor
    · rintro ⟨hab, h⟩
      refine ⟨?_, h⟩
      rintro c (rfl | hc)
      · exact hab
      · exact hab.trans (((ih b).1 h).1 c hc)
    · rintro ⟨h1, h2⟩
      exact ⟨h1 b (Or.inl rfl), h2⟩

theorem setWf_filter (p : Nat → Bool) (l : List Nat) (h : setWf l = true) : setWf (l.filter p) = true := by
  induction l with
  | nil => rfl
  | cons a l ih =>
    rw [setWf_cons] at h
    by_cases hp : p a
    · rw [List.filter_cons_of_pos hp, setWf_cons]
      exact ⟨fun b hb => h.1 b (List.mem_of_mem_filter hb), ih h.2⟩
    · rw [List.filter_cons_of_neg hp]
      exact ih h.2

theorem mem_setInsert (n k : Nat) (l : List Nat) : k ∈ setInsert n l ↔ k = n ∨ k ∈ l := by
  induction l with
  | nil => simp [setInsert]
  | cons a l ih =>
    simp only [setInsert]
    split
    · simp
    · split
      · rename_i h; subst h; simp
      · simp only [List.mem_cons, ih]; tauto

theorem setWf_setInsert (n : Nat) (l : List Nat) (h : setWf l = true) : setWf (setInsert n l) = true := by
  induction l with
  | nil => rfl
  | cons a l ih =>
    simp only [setInsert]
    have h' := (setWf_cons a l).1 h
    split
    · rename_i hlt
      rw [setWf_cons]
      refine ⟨?_, h⟩
      intro b hb
      rcases List.mem_cons.1 hb with rfl | hb
      · exact hlt
      · exact hlt.trans (h'.1 b hb)
    · split
      · exact h
      · rw [setWf_cons]
        refine ⟨?_, ih h'.2⟩
        intro b hb
        rcases (mem_setInsert n b l).1 hb with rfl | hb
        · omega
        · exact h'.1 b hb

theorem setWf_setErase (n : Nat) (l : List Nat) (h : setWf l = true) : setWf (setErase n l) = true :=
  setWf_filter _ l h

theorem setWf_setToggle (n : Nat) (l : List Nat) (h : setWf l = true) : setWf (setToggle n l) = true := by
  simp only [setToggle]
  split
  · exact setWf_setErase n l h
  · exact setWf_setInsert n l h

/-! ### The canonical form of memory -/

theorem wf_cons (c : Host.Cell) (m : Memory) :
    Memory.wf (c :: m) = true ↔ c.2 ≠ 0 ∧ (∀ d ∈ m, c.1 < d.1) ∧ Memory.wf m = true := by
  induction m generalizing c with
  | nil => simp [Memory.wf]
  | cons d m ih =>
    obtain ⟨k, v⟩ := c
    obtain ⟨k', v'⟩ := d
    simp only [Memory.wf, Bool.and_eq_true, bne_iff_ne, decide_eq_true_eq, List.mem_cons]
    constructor
    · rintro ⟨⟨hv, hk⟩, h⟩
      refine ⟨hv, ?_, h⟩
      rintro e (rfl | he)
      · exact hk
      · exact hk.trans (((ih (k', v')).1 h).2.1 e he)
    · rintro ⟨hv, hk, h⟩
      exact ⟨⟨hv, hk _ (Or.inl rfl)⟩, h⟩

theorem wf_filter (p : Host.Cell → Bool) (m : Memory) (h : Memory.wf m = true) : Memory.wf (m.filter p) = true := by
  induction m with
  | nil => rfl
  | cons c m ih =>
    rw [wf_cons] at h
    by_cases hp : p c
    · rw [List.filter_cons_of_pos hp, wf_cons]
      exact ⟨h.1, fun d hd => h.2.1 d (List.mem_of_mem_filter hd), ih h.2.2⟩
    · rw [List.filter_cons_of_neg hp]
      exact ih h.2.2

theorem wf_append (m m' : Memory) (h : Memory.wf m = true) (h' : Memory.wf m' = true)
    (hlt : ∀ c ∈ m, ∀ d ∈ m', c.1 < d.1) : Memory.wf (m ++ m') = true := by
  induction m with
  | nil => exact h'
  | cons c m ih =>
    rw [wf_cons] at h
    rw [List.cons_append, wf_cons]
    refine ⟨h.1, ?_, ih h.2.2 fun c hc => hlt c (List.mem_cons_of_mem _ hc)⟩
    intro d hd
    rcases List.mem_append.1 hd with hd | hd
    · exact h.2.1 d hd
    · exact hlt c List.mem_cons_self d hd

theorem mem_writeByte (m : Memory) (a : Nat) (v : Byte) (c : Host.Cell) (h : c ∈ writeByte m a v) :
    c ∈ m ∨ c = (a, v) := by
  induction m with
  | nil =>
    simp only [writeByte] at h
    split at h <;> simp_all
  | cons d m ih =>
    obtain ⟨k, u⟩ := d
    simp only [writeByte] at h
    split at h
    · split at h
      · exact Or.inl h
      · rcases List.mem_cons.1 h with h | h
        · exact Or.inr h
        · exact Or.inl h
    · split at h
      · split at h
        · exact Or.inl (List.mem_cons_of_mem _ h)
        · rcases List.mem_cons.1 h with h | h
          · exact Or.inr h
          · exact Or.inl (List.mem_cons_of_mem _ h)
      · rcases List.mem_cons.1 h with h | h
        · simp [h]
        · rcases ih h with h | h <;> simp [h]

/-- A write keeps the canonical form. -/
theorem writeByte_wf (m : Memory) (a : Nat) (v : Byte) (h : Memory.wf m = true) :
    Memory.wf (writeByte m a v) = true := by
  induction m with
  | nil =>
    simp only [writeByte]
    split <;> simp_all [Memory.wf]
  | cons d m ih =>
    obtain ⟨k, u⟩ := d
    have h' := (wf_cons _ _).1 h
    simp only [writeByte]
    split
    · rename_i hlt
      split
      · exact h
      · rw [wf_cons]
        refine ⟨by assumption, ?_, h⟩
        intro e he
        rcases List.mem_cons.1 he with rfl | he
        · exact hlt
        · exact Nat.lt_trans hlt (h'.2.1 e he)
    · split
      · rename_i heq
        subst heq
        split
        · exact h'.2.2
        · exact (wf_cons _ _).2 ⟨by assumption, h'.2.1, h'.2.2⟩
      · rw [wf_cons]
        refine ⟨h'.1, ?_, ih h'.2.2⟩
        intro e he
        rcases mem_writeByte m a v e he with he | rfl
        · exact h'.2.1 e he
        · show k < a
          omega

theorem readByte_of_lt (m : Memory) (a : Nat) (h : ∀ d ∈ m, a < d.1) : readByte m a = 0 := by
  induction m with
  | nil => rfl
  | cons d m ih =>
    obtain ⟨k, u⟩ := d
    have hk : a < k := h (k, u) List.mem_cons_self
    simp only [readByte]
    rw [if_neg (by omega)]
    exact ih fun d hd => h d (List.mem_cons_of_mem _ hd)

/-- A read after a write to the same address gives the value written. -/
theorem readByte_writeByte_same (m : Memory) (a : Nat) (v : Byte) (h : Memory.wf m = true) :
    readByte (writeByte m a v) a = v := by
  induction m with
  | nil =>
    simp only [writeByte]
    split <;> simp_all [readByte]
  | cons d m ih =>
    obtain ⟨k, u⟩ := d
    have h' := (wf_cons _ _).1 h
    simp only [writeByte]
    split
    · rename_i hlt
      split
      · rename_i hv
        rw [hv]
        apply readByte_of_lt
        intro e he
        rcases List.mem_cons.1 he with rfl | he
        · exact hlt
        · exact Nat.lt_trans hlt (h'.2.1 e he)
      · simp [readByte]
    · split
      · rename_i heq
        subst heq
        split
        · rename_i hv
          rw [hv]
          exact readByte_of_lt m a h'.2.1
        · simp [readByte]
      · rename_i hne
        simp only [readByte]
        rw [if_neg (by omega)]
        exact ih h'.2.2

/-- A write leaves every other address alone. -/
theorem readByte_writeByte_ne (m : Memory) (a b : Nat) (v : Byte) (hab : b ≠ a) :
    readByte (writeByte m a v) b = readByte m b := by
  induction m with
  | nil =>
    simp only [writeByte]
    split <;> simp [readByte]
    omega
  | cons d m ih =>
    obtain ⟨k, u⟩ := d
    simp only [writeByte]
    split
    · split
      · rfl
      · simp only [readByte]
        rw [if_neg (by omega)]
    · split
      · rename_i heq
        subst heq
        split
        · simp only [readByte]
          rw [if_neg (by omega)]
        · simp only [readByte]
          rw [if_neg (by omega), if_neg (by omega)]
      · simp only [readByte]
        split
        · rfl
        · exact ih

/-! ### Parts -/

theorem scatter_wf (m : Memory) (n i k : Nat) (d : Part) (h : Memory.wf m = true) :
    Memory.wf (scatter m n i d k) = true := by
  induction k generalizing m i with
  | zero => exact h
  | succ k ih => exact ih _ _ (writeByte_wf _ _ _ h)

/-- Storing a part keeps the canonical form. -/
theorem putPart_wf (m : Memory) (n : Nat) (d : Part) (h : Memory.wf m = true) : Memory.wf (putPart m n d) = true :=
  scatter_wf m n 0 16 d h

theorem readByte_scatter_out (m : Memory) (n i k a : Nat) (d : Part) (h : a < 16 * n + i ∨ 16 * n + i + k ≤ a) :
    readByte (scatter m n i d k) a = readByte m a := by
  induction k generalizing m i with
  | zero => rfl
  | succ k ih =>
    simp only [scatter]
    rw [ih _ _ (by omega), readByte_writeByte_ne _ _ _ _ (by omega)]

/-- Storing a part leaves the bytes of every other part alone. -/
theorem readByte_putPart_out (m : Memory) (n a : Nat) (d : Part) (h : a / 16 ≠ n) :
    readByte (putPart m n d) a = readByte m a :=
  readByte_scatter_out m n 0 16 a d (by omega)

theorem readByte_scatter_in (m : Memory) (n i k j : Nat) (d : Part) (hm : Memory.wf m = true) (h1 : i ≤ j)
    (h2 : j < i + k) : readByte (scatter m n i d k) (16 * n + j) = d.extractLsb' (8 * j) 8 := by
  induction k generalizing m i with
  | zero => omega
  | succ k ih =>
    simp only [scatter]
    by_cases hj : j = i
    · subst hj
      rw [readByte_scatter_out _ _ _ _ _ _ (by omega), readByte_writeByte_same _ _ _ hm]
    · exact ih _ _ (writeByte_wf _ _ _ hm) (by omega) (by omega)

/-- Byte `j` of a part that has just been stored. -/
theorem readByte_putPart_in (m : Memory) (n j : Nat) (d : Part) (hm : Memory.wf m = true) (hj : j < 16) :
    readByte (putPart m n d) (16 * n + j) = d.extractLsb' (8 * j) 8 :=
  readByte_scatter_in m n 0 16 j d hm (by omega) (by omega)

theorem readByte_partCells (m : Memory) (n a : Nat) (h : a / 16 = n) :
    readByte (partCells m n) a = readByte m a := by
  induction m with
  | nil => rfl
  | cons c m ih =>
    obtain ⟨k, v⟩ := c
    simp only [partCells] at ih ⊢
    by_cases hk : k / 16 = n
    · rw [List.filter_cons_of_pos (by simpa using hk)]
      simp only [readByte, ih]
    · rw [List.filter_cons_of_neg (by simpa using hk)]
      simp only [readByte]
      rw [if_neg (by rintro rfl; exact hk h)]
      exact ih

theorem gather_congr (m m' : Memory) (n i k : Nat)
    (h : ∀ j, i ≤ j → j < i + k → readByte m (16 * n + j) = readByte m' (16 * n + j)) :
    gather m n i k = gather m' n i k := by
  induction k generalizing i with
  | zero => rfl
  | succ k ih =>
    simp only [gather]
    rw [h i (by omega) (by omega), ih (i + 1) fun j h1 h2 => h j (by omega) (by omega)]

/-- A part's content depends on its sixteen bytes alone. -/
theorem partData_congr (m m' : Memory) (n : Nat)
    (h : ∀ j < 16, readByte m (16 * n + j) = readByte m' (16 * n + j)) : partData m n = partData m' n := by
  refine congrArg (BitVec.ofNat 128) (gather_congr _ _ _ _ _ ?_)
  intro j _ hj
  rw [readByte_partCells _ _ _ (by omega), readByte_partCells _ _ _ (by omega)]
  exact h j (by omega)

/-- Storing a part leaves the content of every other part alone. -/
theorem partData_putPart_ne (m : Memory) (n k : Nat) (d : Part) (h : k ≠ n) :
    partData (putPart m n d) k = partData m k :=
  partData_congr _ _ _ fun j hj => readByte_putPart_out m n _ d (by omega)

theorem gather_bytes (m : Memory) (n i k : Nat) (d : Part)
    (h : ∀ j, i ≤ j → j < i + k → readByte m (16 * n + j) = d.extractLsb' (8 * j) 8) :
    gather m n i k = (d.toNat / 2 ^ (8 * i)) % 2 ^ (8 * k) := by
  induction k generalizing i with
  | zero => simp [gather, Nat.mod_one]
  | succ k ih =>
    simp only [gather]
    rw [h i (by omega) (by omega), ih (i + 1) fun j h1 h2 => h j (by omega) (by omega)]
    rw [BitVec.extractLsb'_toNat, Nat.shiftRight_eq_div_pow]
    have h1 : 8 * (i + 1) = 8 * i + 8 := by ring
    have h2 : 8 * (k + 1) = 8 + 8 * k := by ring
    rw [h1, h2, Nat.pow_add, Nat.pow_add, ← Nat.div_div_eq_div_mul, Nat.mod_mul]

/-- A read of a part that has just been stored gives what was stored. -/
theorem partData_putPart (m : Memory) (n : Nat) (d : Part) (hm : Memory.wf m = true) :
    partData (putPart m n d) n = d := by
  unfold partData
  rw [gather_bytes _ _ _ _ d]
  · apply BitVec.eq_of_toNat_eq
    have hd := d.isLt
    simp only [BitVec.toNat_ofNat, Nat.mul_zero, Nat.pow_zero, Nat.div_one]
    rw [Nat.mod_eq_of_lt hd, Nat.mod_eq_of_lt hd]
  · intro j _ hj
    rw [readByte_partCells _ _ _ (by omega)]
    exact readByte_putPart_in m n j d hm (by omega)

end Sys2Proof.Machine
end

