-- ==== Sys2Proof/Laws/Lawful.lean ====
section
/-! SUPPORT. The laws of the part under the shared operations: one lemma for each operation, saying that it keeps `Lawful`.
An operation that answers a request lets the reply queue grow by the replies it makes. -/

namespace Sys2Proof.Machine

variable {n m : Nat} {s : State}

theorem Lawful.weaken (h : Lawful n s) (hnm : n ≤ m) : Lawful m s := ⟨h.hold, h.replies.trans hnm, h.queues, h.memory⟩

/-! ### Updates of one block -/

@[simp] theorem lawful_setClock (v : Clock) (h : Lawful n s) : Lawful n (s.setClock v) := ⟨h.1, h.2, h.3, h.4⟩
@[simp] theorem lawful_setPins (v : Pins) (h : Lawful n s) : Lawful n (s.setPins v) := ⟨h.1, h.2, h.3, h.4⟩
@[simp] theorem lawful_setAxis (v : Axis) (h : Lawful n s) : Lawful n (s.setAxis v) := ⟨h.1, h.2, h.3, h.4⟩
@[simp] theorem lawful_setLine (v : Line) (h : Lawful n s) : Lawful n (s.setLine v) := ⟨h.1, h.2, h.3, h.4⟩
@[simp] theorem lawful_setStab (v : Stab) (h : Lawful n s) : Lawful n (s.setStab v) := ⟨h.1, h.2, h.3, h.4⟩
@[simp] theorem lawful_setGuard (v : Guard) (h : Lawful n s) : Lawful n (s.setGuard v) := ⟨h.1, h.2, h.3, h.4⟩
@[simp] theorem lawful_setTerms (v : Terms) (h : Lawful n s) : Lawful n (s.setTerms v) := ⟨h.1, h.2, h.3, h.4⟩
@[simp] theorem lawful_setPlan (v : Plan) (h : Lawful n s) : Lawful n (s.setPlan v) := ⟨h.1, h.2, h.3, h.4⟩
@[simp] theorem lawful_setTrack (v : Track) (h : Lawful n s) : Lawful n (s.setTrack v) := ⟨h.1, h.2, h.3, h.4⟩
@[simp] theorem lawful_setLay (v : Lay) (h : Lawful n s) : Lawful n (s.setLay v) := ⟨h.1, h.2, h.3, h.4⟩
@[simp] theorem lawful_setParams (v : Params) (h : Lawful n s) : Lawful n (s.setParams v) := ⟨h.1, h.2, h.3, h.4⟩
@[simp] theorem lawful_setPending (v : List Instr) (h : Lawful n s) : Lawful n (s.setPending v) := ⟨h.1, h.2, h.3, h.4⟩

theorem lawful_setCtl (v : Ctl) (h : Lawful n s) (hv : v.holdN = v.mode.held) : Lawful n (s.setCtl v) :=
  ⟨hv, h.2, h.3, h.4⟩

theorem lawful_setMgmt (v : Mgmt) (h : Lawful n s) (hv : v.replies.length ≤ n) : Lawful n (s.setMgmt v) :=
  ⟨h.1, hv, h.3, h.4⟩

theorem lawful_setMem (v : TableMem) (h : Lawful n s) (hv : Memory.wf v.cells = true ∧ setWf v.flips = true) :
    Lawful n (s.setMem v) := ⟨h.1, h.2, h.3, hv⟩

theorem lawful_setRing (v : Ring) (h : Lawful n s) (hv : v.txUp.queue.length ≤ 64 ∧ v.txDown.queue.length ≤ 64) :
    Lawful n (s.setRing v) := ⟨h.1, h.2, hv, h.4⟩

/-- A change of the ring that leaves both transmit queues as they are. -/
theorem lawful_setRing_same (v : Ring) (h : Lawful n s) (hu : v.txUp = s.ring.txUp) (hd : v.txDown = s.ring.txDown) :
    Lawful n (s.setRing v) := lawful_setRing v h (by rw [hu, hd]; exact h.3)

/-! ### Faults and modes -/

theorem latch_mode (c : Ctl) (k : FaultKind) (d t : Word) : (c.latch k d t).mode = c.mode := by
  unfold Ctl.latch; split <;> rfl

theorem latch_holdN (c : Ctl) (k : FaultKind) (d t : Word) : (c.latch k d t).holdN = c.holdN := by
  unfold Ctl.latch; split <;> rfl

@[simp] theorem lawful_latch (k : FaultKind) (d : Nat) (h : Lawful n s) : Lawful n (latch k d s) :=
  lawful_setCtl _ h (by rw [latch_mode, latch_holdN]; exact h.1)

@[simp] theorem lawful_takeCauses (h : Lawful n s) : Lawful n (takeCauses s) := lawful_setCtl _ h h.1

@[simp] theorem lawful_endRecovery (h : Lawful n s) : Lawful n (endRecovery s) :=
  lawful_setCtl _ (lawful_setGuard _ h) h.1

@[simp] theorem lawful_frameDue (d : Word) (h : Lawful n s) : Lawful n (frameDue d s) := by
  unfold frameDue; split <;> simp [h]

@[simp] theorem lawful_refreshTx (h : Lawful n s) : Lawful n (refreshTx s) := by
  unfold refreshTx; split
  · split <;> simp [h]
  · simp [h]

@[simp] theorem lawful_setMode (k : Mode) (h : Lawful n s) : Lawful n (setMode k s) :=
  lawful_refreshTx (lawful_setCtl _ (lawful_setLay _ h) rfl)

@[simp] theorem lawful_enterHold (h : Lawful n s) : Lawful n (enterHold s) :=
  lawful_takeCauses (lawful_setMode _ (lawful_endRecovery (lawful_setCtl _ h h.1)))

@[simp] theorem lawful_report (h : Lawful n s) : Lawful n (report s) := by
  unfold report; dsimp only; split <;> simp [h]

@[simp] theorem lawful_raiseStarved (h : Lawful n s) : Lawful n (raiseStarved s) := by
  unfold raiseStarved
  split
  · exact h
  · exact lawful_setCtl _ h h.1
  · exact lawful_enterHold (lawful_setCtl _ h h.1)
  · exact lawful_enterHold (lawful_setCtl _ h h.1)

@[simp] theorem lawful_raiseRequest (h : Lawful n s) : Lawful n (raiseRequest s) := by
  unfold raiseRequest
  split
  · exact h
  · exact lawful_setCtl _ h h.1
  · exact lawful_enterHold (lawful_setCtl _ h h.1)
  · exact lawful_enterHold (lawful_setCtl _ h h.1)

@[simp] theorem lawful_toStandby (h : Lawful n s) : Lawful n (toStandby s) :=
  lawful_report (lawful_setMode _ (lawful_endRecovery (lawful_setCtl _ h h.1)))

@[simp] theorem lawful_enterLost (c : Nat) (h : Lawful n s) : Lawful n (enterLost c s) := by
  unfold enterLost
  split
  · exact h
  · exact lawful_report (lawful_refreshTx (lawful_setLine _ h))
  · exact lawful_report (lawful_refreshTx (lawful_setLine _ (lawful_latch _ _ h)))
  · exact lawful_report (lawful_refreshTx (lawful_setLine _ (lawful_latch _ _ h)))

@[simp] theorem lawful_enterStale (h : Lawful n s) : Lawful n (enterStale s) := by
  unfold enterStale
  split
  · exact h
  · exact lawful_report (lawful_refreshTx (lawful_setLine _ (lawful_setLay _ h)))

@[simp] theorem lawful_enterValid (h : Lawful n s) : Lawful n (enterValid s) := lawful_report (lawful_refreshTx (lawful_setLine _ h))

/-! ### Table memory -/

theorem store_wf (t : TableMem) (k : Nat) (d : Part) (h : Memory.wf t.cells = true) :
    Memory.wf (t.store k d).cells = true := by
  unfold TableMem.store
  dsimp only
  exact putPart_wf _ _ _ h

theorem storeWord_wf (t : TableMem) (w : Nat) (d : BitVec 64) (h : Memory.wf t.cells = true) :
    Memory.wf (t.storeWord w d).cells = true := by
  unfold TableMem.storeWord
  dsimp only
  exact putPart_wf _ _ _ h

@[simp] theorem lawful_storePart (k : Nat) (d : Part) (h : Lawful n s) : Lawful n (storePart k d s) := by
  unfold storePart
  exact lawful_setMem _ h ⟨store_wf _ _ _ h.4.1, setWf_filter _ _ (setWf_filter _ _ h.4.2)⟩

@[simp] theorem lawful_markUnreadable (k : Nat) (h : Lawful n s) : Lawful n (markUnreadable k s) :=
  lawful_setMgmt _ h h.2

@[simp] theorem lawful_setHeld (i : Nat) (v : TermHeld) (h : Lawful n s) : Lawful n (setHeld i v s) :=
  lawful_setTerms _ h

@[simp] theorem lawful_uncorrectablePart (k : Nat) (h : Lawful n s) : Lawful n (uncorrectablePart k s).2 := by
  unfold uncorrectablePart
  split
  · exact lawful_report (lawful_latch _ _ (lawful_setGuard _ h))
  · simp [h]
  · split <;> simp [h]
  · simp [h]
  · simp [h]
  · exact lawful_report (lawful_setHeld _ _ (lawful_latch _ _ (lawful_markUnreadable _ h)))
  · simp [h]

@[simp] theorem lawful_countWords (a b : Nat) (h : Lawful n s) : Lawful n (countWords a b s) := lawful_setMgmt _ h h.2

@[simp] theorem lawful_writeBack (w : Nat) (f : WordFinding) (h : Lawful n s) : Lawful n (writeBack w f s) := by
  unfold writeBack
  split
  · exact lawful_setMem _ h ⟨storeWord_wf _ _ _ h.4.1, setWf_filter _ _ h.4.2⟩
  · exact h

@[simp] theorem lawful_readPart (k : Nat) (h : Lawful n s) : Lawful n (readPart k s).2 := by
  have hw : ∀ a b, Lawful n (writeBack (2 * k + 1) (wordFinding s.mem (2 * k + 1))
      (writeBack (2 * k) (wordFinding s.mem (2 * k)) (countWords a b s))) :=
    fun a b => lawful_writeBack _ _ (lawful_writeBack _ _ (lawful_countWords _ _ h))
  unfold readPart
  dsimp only
  split
  · exact lawful_uncorrectablePart _ (lawful_countWords _ _ h)
  · split
    · exact hw _ _
    · exact lawful_uncorrectablePart _ (hw _ _)

theorem lawful_readPart_of {k : Nat} {t : State} {p : Option Part} (e : readPart k s = (p, t)) (h : Lawful n s) :
    Lawful n t := by
  have := lawful_readPart k h
  rwa [e] at this

@[simp] theorem lawful_storeAccepted (k : Nat) (d : Part) (h : Lawful n s) : Lawful n (storeAccepted k d s) := by
  have h1 := lawful_storePart k (d &&& usedBits (placeOf k)) h
  exact lawful_setGuard _ (lawful_setMgmt _ h1 h1.2)

/-! ### Terms, zones, stabilizer -/

@[simp] theorem lawful_noteTerm (i : Nat) (h : Lawful n s) : Lawful n (noteTerm i s) := by
  unfold noteTerm; dsimp only; split <;> simp [h]

@[simp] theorem lawful_evalTerm (i : Nat) (h : Lawful n s) : Lawful n (evalTerm i s) := by
  unfold evalTerm
  split
  · exact lawful_noteTerm _ (lawful_readPart_of (by assumption) h)
  · exact lawful_noteTerm _ (lawful_setHeld _ _ (lawful_readPart_of (by assumption) h))

@[simp] theorem lawful_evalTerms (l : List Nat) (h : Lawful n s) : Lawful n (evalTerms l s) := by
  unfold evalTerms
  induction l generalizing s with
  | nil => exact h
  | cons i l ih => exact ih (lawful_evalTerm i h)

@[simp] theorem lawful_scrubStep (h : Lawful n s) : Lawful n (scrubStep s) := by
  unfold scrubStep
  dsimp only
  split
  · have := lawful_noteTerm ‹_› (lawful_readPart s.mgmt.scrub h); exact lawful_setMgmt _ this this.2
  · have := lawful_readPart s.mgmt.scrub h; exact lawful_setMgmt _ this this.2

@[simp] theorem lawful_readAxis (i : Nat) (h : Lawful n s) : Lawful n (readAxis i s).2 := by
  unfold readAxis; split <;> exact lawful_readPart_of (by assumption) h

theorem lawful_readAxis_of {i : Nat} {t : State} {p : Option AxisRec} (e : readAxis i s = (p, t)) (h : Lawful n s) :
    Lawful n t := by
  have := lawful_readAxis i h
  rwa [e] at this

@[simp] theorem lawful_readFine (r : Role) (h : Lawful n s) : Lawful n (readFine r s).2 := by
  unfold readFine
  split
  · exact h
  · split <;> exact lawful_readAxis_of (by assumption) h

@[simp] theorem lawful_readFines (h : Lawful n s) : Lawful n (readFines s).2 := lawful_readFine _ (lawful_readFine _ (lawful_readFine _ (lawful_readFine _ h)))

@[simp] theorem lawful_stabCompute (fr : Bool) (h : Lawful n s) : Lawful n (stabCompute fr s) := by
  have h1 := lawful_readFines h
  simp only [stabCompute]
  split
  · exact lawful_setStab _ h1
  · exact lawful_setLine _ (lawful_setStab _ h1)

@[simp] theorem lawful_readZone (i : Nat) (h : Lawful n s) : Lawful n (readZone i s).2 := by
  simp only [readZone]
  split <;> simp [h]

@[simp] theorem lawful_readZonesOf (l : List Nat) (h : Lawful n s) : Lawful n (readZonesOf l s).2 := by
  induction l generalizing s with
  | nil => exact h
  | cons i l ih => exact ih (lawful_readZone i h)

@[simp] theorem lawful_readZones (h : Lawful n s) : Lawful n (readZones s).2 := lawful_readZonesOf _ h

@[simp] theorem lawful_noteOutcome (o : Outcome) (h : Lawful n s) : Lawful n (noteOutcome o s) := by
  unfold noteOutcome
  split
  · split
    · simp [h]
    · split <;> simp [h]
  · split <;> simp [h]

@[simp] theorem lawful_zoneEvaluate (p : Quad Int) (h : Lawful n s) : Lawful n (zoneEvaluate p s) := by
  simp only [zoneEvaluate]
  exact lawful_report (lawful_noteOutcome _ (lawful_setGuard _ (lawful_readZones h)))

@[simp] theorem lawful_evaluateZones (h : Lawful n s) : Lawful n (evaluateZones s) := by
  unfold evaluateZones; split <;> simp [h]

@[simp] theorem lawful_pointTest (t : Target) (h : Lawful n s) : Lawful n (pointTest t s).2 := by simp [pointTest, h]

/-! ### Plan store -/

@[simp] theorem lawful_readCourse (c : Nat) (h : Lawful n s) : Lawful n (readCourse c s).2 := by
  simp only [readCourse]; split <;> simp [h]

theorem lawful_readCourse_of {c : Nat} {t : State} {p : Option CourseRec} (e : readCourse c s = (p, t))
    (h : Lawful n s) : Lawful n t := by
  have := lawful_readCourse c h
  rwa [e] at this

@[simp] theorem lawful_planAccept (d : Part) (h : Lawful n s) : Lawful n (planAccept d s) := by simp [planAccept, h]
@[simp] theorem lawful_planFlushFrom (l : Nat) (h : Lawful n s) : Lawful n (planFlushFrom l s) := lawful_setPlan _ h
@[simp] theorem lawful_planRemove (e : QueueEntry) (h : Lawful n s) : Lawful n (planRemove e s) := lawful_setPlan _ h

@[simp] theorem lawful_reissue (l : Nat) (c : Bool) (h : Lawful n s) : Lawful n (reissue l c s) := by
  unfold reissue; split <;> simp [h]

@[simp] theorem lawful_planLaid (l : Nat) (h : Lawful n s) : Lawful n (planLaid l s) := by
  unfold planLaid; split <;> simp [h]

@[simp] theorem lawful_stall (k : FaultKind) (e : QueueEntry) (h : Lawful n s) : Lawful n (stall k e s).2 :=
  lawful_latch _ _ h

@[simp] theorem lawful_bindHead (e : QueueEntry) (t : Target) (h : Lawful n s) : Lawful n (bindHead e t s) :=
  lawful_setPlan _ h

@[simp] theorem lawful_admitInCourse (e : QueueEntry) (r : PlanRec) (c : CourseRec) (h : Lawful n s) :
    Lawful n (admitInCourse e r c s).2 := by
  unfold admitInCourse
  split
  · simp [h]
  · have hp := lawful_pointTest (targetOfRecord r c) h
    split <;> rename_i heq <;> rw [heq] at hp <;> simp [hp]

@[simp] theorem lawful_admitRecord (e : QueueEntry) (h : Lawful n s) : Lawful n (admitRecord e s).2 := by
  unfold admitRecord
  split
  · exact lawful_stall _ _ (lawful_readPart_of (by assumption) h)
  · have h1 := lawful_readPart_of (by assumption) h
    split
    · exact lawful_stall _ _ (lawful_readCourse_of (by assumption) h1)
    · have h2 := lawful_readCourse_of (by assumption) h1
      split <;> simp [h2]

@[simp] theorem lawful_admit (h : Lawful n s) : Lawful n (admitHead s).2 := by
  unfold admitHead
  split
  · exact h
  · split <;> simp [h]

/-! ### Placement -/

@[simp] theorem lawful_approachIfHeld (h : Lawful n s) : Lawful n (approachIfHeld s) := by
  unfold approachIfHeld; split <;> simp [h]

@[simp] theorem lawful_placementBegins (l : Nat) (h : Lawful n s) : Lawful n (placementBegins l s) := by
  simp [placementBegins, h]

@[simp] theorem lawful_offsetStep (h : Lawful n s) : Lawful n (offsetStep s) := by
  unfold offsetStep; dsimp only; split
  · split <;> simp [h]
  · simp [h]

@[simp] theorem lawful_layVerdict (h : Lawful n s) : Lawful n (layVerdict s) := by
  unfold layVerdict
  split
  · split <;> first | exact h | (split <;> simp [h])
  · exact h

@[simp] theorem lawful_settleGate (b : Bool) (h : Lawful n s) : Lawful n (settleGate b s) := lawful_setLay _ h

@[simp] theorem lawful_judgeGate (h : Lawful n s) : Lawful n (judgeGate s) := by
  unfold judgeGate; split <;> simp [h]

@[simp] theorem lawful_gateAtTrain (h : Lawful n s) : Lawful n (gateAtTrain s) := by
  unfold gateAtTrain; dsimp only; split <;> simp [h]

@[simp] theorem lawful_gateAtEnd (h : Lawful n s) : Lawful n (gateAtEnd s) := by
  unfold gateAtEnd; dsimp only; split
  · split <;> simp [h]
  · simp [h]

@[simp] theorem lawful_reachSettle (h : Lawful n s) : Lawful n (reachSettle s) := by
  unfold reachSettle
  dsimp only
  split
  · split
    · exact lawful_latch _ _ (lawful_setTrack _ (lawful_setLay _ h))
    · exact lawful_setLay _ h
  · exact h

@[simp] theorem lawful_discardPlacement (k : Ticket) (h : Lawful n s) : Lawful n (discardPlacement k s) := by
  unfold discardPlacement; split <;> simp [h]

/-! ### Brick track -/

@[simp] theorem lawful_setStation (st : Station) (r : StationRec) (h : Lawful n s) : Lawful n (setStation st r s) :=
  lawful_setTrack _ h

@[simp] theorem lawful_setTicket (k : Nat) (f : Ticket → Ticket) (h : Lawful n s) : Lawful n (setTicket k f s) :=
  lawful_setTrack _ h

@[simp] theorem lawful_stationEntry (st : Station) (h : Lawful n s) : Lawful n (stationEntry st s).2 := by
  unfold stationEntry
  split
  · exact h
  · split <;> exact lawful_readAxis_of (by assumption) h

theorem lawful_stationEntry_of {st : Station} {t : State} {p : Option Nat} (e : stationEntry st s = (p, t))
    (h : Lawful n s) : Lawful n t := by
  have := lawful_stationEntry st h
  rwa [e] at this

@[simp] theorem lawful_launch (c : Cmd) (k : Nat) (p : Word) (t : Nat) (h : Lawful n s) : Lawful n (launch c k p t s) :=
  lawful_setTrack _ h

@[simp] theorem lawful_issueFor (c : Cmd) (k : Ticket) (p : Word) (f : Ticket → Ticket) (h : Lawful n s) :
    Lawful n (issueFor c k p f s) := by
  unfold issueFor
  split
  · have he := lawful_stationEntry c.station h
    split <;> rename_i heq <;> rw [heq] at he <;> simp [he]
  · exact h

theorem lawful_admit_of {t : State} {a : Admission} (e : admitHead s = (a, t)) (h : Lawful n s) : Lawful n t := by
  have := lawful_admit h
  rwa [e] at this

@[simp] theorem lawful_issueFeed (h : Lawful n s) : Lawful n (issueFeed s) := by
  unfold issueFeed
  split
  · split
    · exact lawful_stationEntry_of (by assumption) h
    · have h1 := lawful_stationEntry_of (by assumption) h
      split
      · exact lawful_admit_of (by assumption) h1
      · have h2 := lawful_admit_of (by assumption) h1; simp [h2]
  · exact h

@[simp] theorem lawful_issueSaw (h : Lawful n s) : Lawful n (issueSaw s) := by
  unfold issueSaw
  split
  · simp [h]
  · split <;> simp [h]

@[simp] theorem lawful_issueGlue (h : Lawful n s) : Lawful n (issueGlue s) := by
  unfold issueGlue
  split
  · split <;> simp [h]
  · exact h

@[simp] theorem lawful_issueShuttle (h : Lawful n s) : Lawful n (issueShuttle s) := by
  unfold issueShuttle
  split
  · simp [h]
  · split
    · split <;> simp [h]
    · exact h

@[simp] theorem lawful_issueFlipper (h : Lawful n s) : Lawful n (issueFlipper s) := by
  unfold issueFlipper
  split
  · exact h
  · split
    · simp [h]
    · split <;> simp [h]

@[simp] theorem lawful_spoilAtFlipper (h : Lawful n s) : Lawful n (spoilAtFlipper s) := by
  unfold spoilAtFlipper
  split
  · exact h
  · split
    · split <;> simp [h]
    · exact h

@[simp] theorem lawful_issueCommands (h : Lawful n s) : Lawful n (issueCommands s) := lawful_issueFlipper (lawful_issueShuttle (lawful_issueGlue (lawful_issueSaw (lawful_issueFeed h))))

@[simp] theorem lawful_requestOpen (h : Lawful n s) : Lawful n (requestOpen s) := by
  unfold requestOpen
  split
  · split
    · split
      · exact lawful_stationEntry_of (by assumption) h
      · have he := lawful_stationEntry_of (by assumption) h
        exact lawful_launch _ _ _ _ (lawful_setLay _ (lawful_setTicket _ _ he))
    · exact h
  · exact h

@[simp] theorem lawful_dropTicket (k : Ticket) (c : Bool) (h : Lawful n s) : Lawful n (dropTicket k c s) := by
  simp [dropTicket, h]

@[simp] theorem lawful_completeFor (c : Cmd) (k : Ticket) (v : Int) (h : Lawful n s) : Lawful n (completeFor c k v s) := by
  cases c
  case openJaws => exact lawful_planLaid _ (lawful_setTrack _ (lawful_setLay _ h))
  case cut => simp only [completeFor, cutCompletes]; split <;> simp [h]
  all_goals simp [completeFor, moveTicket, h]

@[simp] theorem lawful_complete (st : Station) (f : InFlight) (v : Int) (h : Lawful n s) : Lawful n (complete st f v s) := by
  unfold complete; dsimp only; split <;> simp [h]

@[simp] theorem lawful_reportCommand (st : Station) (f : Feedback) (h : Lawful n s) : Lawful n (reportCommand st f s) := by
  unfold reportCommand
  dsimp only
  split
  · exact h
  · split
    · exact lawful_complete _ _ _ h
    · split
      · exact lawful_latch _ _ (lawful_setStation _ _ h)
      · exact h

@[simp] theorem lawful_stationReport (st : Station) (f : Feedback) (h : Lawful n s) : Lawful n (stationReport st f s) := by
  have h1 := lawful_reportCommand st f h
  simp only [stationReport, compareSensor]
  split
  · exact h1
  · exact lawful_latch _ _ (lawful_setStation _ _ h1)

@[simp] theorem lawful_reachStation (st : Station) (h : Lawful n s) : Lawful n (reachStation st s) := by
  unfold reachStation
  dsimp only
  split
  · split <;> simp [h]
  · exact h

@[simp] theorem lawful_reachOpenTime (k : Nat) (h : Lawful n s) : Lawful n (reachOpenTime k s) := by
  unfold reachOpenTime
  split
  · split
    · exact lawful_setTrack _ h
    · exact h
  · exact h

theorem lawful_fold {α : Type} (f : State → α → State) (hf : ∀ t a, Lawful n t → Lawful n (f t a)) (l : List α)
    (h : Lawful n s) : Lawful n (l.foldl f s) := by
  induction l generalizing s with
  | nil => exact h
  | cons a l ih => exact ih (hf _ _ h)

@[simp] theorem lawful_reachOpenTimesOf (l : List Ticket) (h : Lawful n s) : Lawful n (reachOpenTimesOf l s) :=
  lawful_fold _ (fun _ _ ht => lawful_reachOpenTime _ ht) _ h

@[simp] theorem lawful_reachOpenTimes (h : Lawful n s) : Lawful n (reachOpenTimes s) := lawful_reachOpenTimesOf _ h

@[simp] theorem lawful_reachOpenTimeNumbered (k : Half) (h : Lawful n s) : Lawful n (reachOpenTimeNumbered k s) :=
  lawful_reachOpenTimesOf _ h

@[simp] theorem lawful_retry (st : Station) (h : Lawful n s) : Lawful n (retry st s).2 := by
  unfold retry
  dsimp only
  split
  · exact h
  · split <;> simp [h, reissueCommand]
  · split <;> simp [h, reissueCommand]
  · split <;> simp [h]

@[simp] theorem lawful_discard (st : Station) (k : Option Ticket) (h : Lawful n s) : Lawful n (discard st k s) := by
  unfold discard
  dsimp only
  split
  · exact lawful_setStation _ _ h
  · exact lawful_dropTicket _ _ (lawful_discardPlacement _ (lawful_setStation _ _ h))

/-! ### Trains -/

@[simp] theorem lawful_clearSlots (u : Bool) (h : Lawful n s) : Lawful n (clearSlots u s) := lawful_setAxis _ h

@[simp] theorem lawful_beginTrain (c : Word) (p : Half) (h : Lawful n s) : Lawful n (beginTrain c p s) :=
  lawful_clearSlots _ (lawful_setRing_same _ h rfl rfl)

@[simp] theorem lawful_outboundTrain (c : Word) (p : Half) (h : Lawful n s) : Lawful n (outboundTrain c p s) := by
  have h2 := lawful_evalTerms (List.range 32) (lawful_gateAtTrain (lawful_beginTrain c p h))
  have h3 := lawful_stabCompute (frozen s) (lawful_offsetStep (lawful_approachIfHeld (lawful_scrubStep h2)))
  have h4 := lawful_requestOpen (lawful_layVerdict (lawful_evaluateZones h3))
  unfold outboundTrain trainIssue trainCompute
  exact lawful_issueCommands (lawful_spoilAtFlipper h4)

@[simp] theorem lawful_judgeSlot (r : Role) (h : Lawful n s) : Lawful n (judgeSlot r s) := by
  unfold judgeSlot
  split
  · exact h
  · split
    · exact h
    · dsimp only; split <;> simp [h]

@[simp] theorem lawful_outboundEnd (h : Lawful n s) : Lawful n (outboundEnd s) := lawful_clearSlots false
  (lawful_judgeSlot _ (lawful_judgeSlot _ (lawful_judgeSlot _ (lawful_judgeSlot _ (lawful_gateAtEnd h)))))

@[simp] theorem lawful_reachWatchdog (h : Lawful n s) : Lawful n (reachWatchdog s) := by
  unfold reachWatchdog
  dsimp only
  split
  · have h1 := lawful_setRing_same { s.ring with watchdog := none, expiries := bump s.ring.expiries } h rfl rfl
    split <;> simp [h1]
  · exact h

/-! ### Tracker line -/

@[simp] theorem lawful_countLine (f : LineCounters → LineCounters) (h : Lawful n s) : Lawful n (countLine f s) :=
  lawful_setLine _ h

@[simp] theorem lawful_setAsm (a : Assembler) (h : Lawful n s) : Lawful n (setAsm a s) := lawful_setLine _ h

@[simp] theorem lawful_abandonFrame (h : Lawful n s) : Lawful n (abandonFrame s) := by
  unfold abandonFrame; split <;> simp [h]

@[simp] theorem lawful_stateOnAcceptance (h : Lawful n s) : Lawful n (stateOnAcceptance s) := by
  unfold stateOnAcceptance
  split
  · simp [h]
  · split <;> simp [h]

@[simp] theorem lawful_acceptSample (c : Sample) (r : Bool) (h : Lawful n s) : Lawful n (acceptSample c r s) := lawful_evalTerms _ (lawful_setTerms _ (lawful_stateOnAcceptance (lawful_setLine _ h)))

@[simp] theorem lawful_judge (c : Sample) (h : Lawful n s) : Lawful n (judge c s) := by
  unfold judge
  split
  · simp [h]
  · split
    · split <;> simp [rejectSample, h]
    · simp [h]

@[simp] theorem lawful_completeFrame (b : List Byte) (p : Bool) (c : Half) (h : Lawful n s) :
    Lawful n (completeFrame b p c s) := by
  unfold completeFrame
  split
  · simp [h]
  · split
    · simp [h]
    · split <;> simp [noteSequence, h]

@[simp] theorem lawful_takeByte (b : Byte) (f : Bool) (h : Lawful n s) : Lawful n (takeByte b f s) := by
  unfold takeByte
  dsimp only
  split
  · split <;> simp [h]
  · split <;> simp [h]
  · simp [h]
  · split <;> simp [h]

@[simp] theorem lawful_takeBytes (l : List (Byte × Bool)) (h : Lawful n s) : Lawful n (takeBytes l s) :=
  lawful_fold _ (fun _ _ ht => lawful_takeByte _ _ ht) _ h

@[simp] theorem lawful_receiveCharacter (d : Byte) (p b : Bool) (h : Lawful n s) : Lawful n (receiveCharacter d p b s) := by
  unfold receiveCharacter takeCharacter
  split
  · exact h
  · split
    · simp [h]
    · split
      · simp [h]
      · exact lawful_abandonFrame (lawful_countLine _ (lawful_setLine _ h))

@[simp] theorem lawful_receiveFrame (l : List Byte) (b : Bool) (h : Lawful n s) : Lawful n (receiveFrame l b s) := by
  induction l generalizing s with
  | nil => exact h
  | cons c l ih =>
    cases l with
    | nil => simp [receiveFrame, h]
    | cons d l => rw [receiveFrame]; · exact ih (lawful_receiveCharacter _ _ _ h)
                  · simp

@[simp] theorem lawful_detectBreak (h : Lawful n s) : Lawful n (detectBreak s) := by
  unfold detectBreak
  dsimp only
  split
  · exact h
  · exact lawful_enterLost _ (lawful_countLine _ (lawful_abandonFrame (lawful_setLine _ h)))

@[simp] theorem lawful_setReady (a : Bool) (h : Lawful n s) : Lawful n (setReady a s) := by
  have h1 := lawful_countLine (fun c => { c with readyChanges := bump c.readyChanges })
    (lawful_setPins { s.pins with trkReady := a } h)
  unfold setReady
  dsimp only
  split
  · exact h
  · split
    · exact h1
    · exact lawful_enterLost _ h1

@[simp] theorem lawful_reachStale (h : Lawful n s) : Lawful n (reachStale s) := by
  unfold reachStale; split <;> simp [h]

@[simp] theorem lawful_reachLost (h : Lawful n s) : Lawful n (reachLost s) := by
  unfold reachLost; split <;> simp [h]

@[simp] theorem lawful_recomputeExpiries (h : Lawful n s) : Lawful n (recomputeExpiries s) := by
  unfold recomputeExpiries
  split
  · exact h
  · exact lawful_reachLost (lawful_reachStale (lawful_setLine _ h))

@[simp] theorem lawful_reachReacquire (h : Lawful n s) : Lawful n (reachReacquire s) := by
  unfold reachReacquire; split <;> simp [h]

@[simp] theorem lawful_loopFeed (k : Nat) (x : Half) (b : Bool) (h : Lawful n s) : Lawful n (loopFeed k x b s) := by
  unfold loopFeed; split <;> simp [h]

@[simp] theorem lawful_loopCatchUp (h : Lawful n s) : Lawful n (loopCatchUp s) := by
  unfold loopCatchUp; split <;> simp [h]

@[simp] theorem lawful_beginWaiting (h : Lawful n s) : Lawful n (beginWaiting s) := lawful_setLine _ h

@[simp] theorem lawful_reachSent (h : Lawful n s) : Lawful n (reachSent s) := by
  unfold reachSent
  split
  · exact lawful_beginWaiting (lawful_countLine _ (lawful_loopFeed _ _ _ h))
  · exact h

@[simp] theorem lawful_settingsChanged (h : Lawful n s) : Lawful n (settingsChanged s) := by simp [settingsChanged, h]
@[simp] theorem lawful_abandonSending (h : Lawful n s) : Lawful n (abandonSending s) := lawful_setLine _ h

@[simp] theorem lawful_loopSet (h : Lawful n s) : Lawful n (loopSet s) := lawful_enterLost _ (lawful_frameDue _ (lawful_setLine _ (lawful_abandonSending (lawful_abandonFrame h))))
@[simp] theorem lawful_loopCleared (h : Lawful n s) : Lawful n (loopCleared s) := lawful_refreshTx (lawful_abandonSending (lawful_abandonFrame h))

/-! ### Setpoints and feedback -/

@[simp] theorem lawful_setForwarded (i : Nat) (p : Word) (h : Lawful n s) : Lawful n (setForwarded i p s) :=
  lawful_setAxis _ h

@[simp] theorem lawful_forwardLimited (i : Nat) (e : AxisRec) (c : Cell) (h : Lawful n s) :
    Lawful n (forwardLimited i e c s).2 := by
  unfold forwardLimited; split <;> simp [h]

@[simp] theorem lawful_conditionCoarse (i : Nat) (c : Cell) (h : Lawful n s) : Lawful n (conditionCoarse i c s).2 := by
  unfold conditionCoarse
  split
  · simp [forwardHeld, h]
  · have hr := lawful_readAxis i h
    split <;> rename_i heq <;> rw [heq] at hr
    · simp [forwardHeld, hr]
    · split <;> simp [forwardHeld, hr]

@[simp] theorem lawful_fillFine (r : Role) (i : Nat) (c : Cell) (h : Lawful n s) : Lawful n (fillFine r i c s).2 := by
  unfold fillFine; split <;> simp [h]

@[simp] theorem lawful_fillStation (st : Station) (i : Nat) (c : Cell) (h : Lawful n s) :
    Lawful n (fillStation st i c s).2 := by
  unfold fillStation; split <;> simp [h]

@[simp] theorem lawful_conditionSet (c : Cell) (h : Lawful n s) : Lawful n (conditionSet c s).2 := by
  unfold conditionSet
  split
  · exact h
  · split <;> simp [h]

@[simp] theorem lawful_captureCell (c : Cell) (h : Lawful n s) : Lawful n (captureCell c s) := by
  unfold captureCell
  split
  · exact h
  · split
    · exact h
    · have h1 := fun l v => lawful_evalTerms l (lawful_setAxis v h)
      simp only [capture, storeFeedback]
      split
      · exact lawful_stationReport _ _ (h1 _ _)
      · exact h1 _ _

/-! ### Resets -/

theorem paramCells_wf : Memory.wf paramCells = true := by decide

theorem originCells_wf (ra oa : BitVec 7) : Memory.wf (originCells ra oa ++ paramCells) = true := by
  unfold originCells
  split
  · exact paramCells_wf
  · rename_i h
    have h0 : ¬ BitVec.setWidth 8 oa = 0#8 := by
      revert h; revert ra oa; decide
    refine wf_append _ _ (by simpa [Memory.wf] using h0) paramCells_wf ?_
    intro c hc d hd
    have h1 : c.1 < 128 := by
      simp only [List.mem_cons, List.not_mem_nil, or_false] at hc
      rcases hc with rfl | rfl <;> simp
    have h2 : ∀ d ∈ paramCells, 128 ≤ d.1 := by decide
    exact lt_of_lt_of_le h1 (h2 d hd)

theorem lawful_poweredOn (ra oa : BitVec 7) (r x : Bool) (l : List Instr) : Lawful n (poweredOn ra oa r x l) :=
  ⟨rfl, Nat.zero_le _, ⟨Nat.zero_le _, Nat.zero_le _⟩, originCells_wf ra oa, rfl⟩

theorem lawful_reset : Lawful n State.reset := lawful_poweredOn 1 2 false false []

theorem memAfterReset_wf (t : TableMem) (hc : Memory.wf t.cells = true) (hf : setWf t.flips = true) :
    Memory.wf (memAfterReset t).cells = true ∧ setWf (memAfterReset t).flips = true := by
  refine ⟨wf_append _ _ (wf_filter _ _ hc) paramCells_wf ?_, setWf_filter _ _ hf⟩
  intro c hc' d hd
  have h1 : c.1 < 128 := by simpa using (List.mem_filter.1 hc').2
  have h2 : ∀ d ∈ paramCells, 128 ≤ d.1 := by decide
  have := h2 d hd
  omega

@[simp] theorem lawful_ringReset (h : Lawful n s) : Lawful n (ringReset s) :=
  ⟨rfl, Nat.zero_le _, ⟨Nat.zero_le _, Nat.zero_le _⟩, memAfterReset_wf _ h.4.1 h.4.2⟩

@[simp] theorem lawful_reissueAll (h : Lawful n s) : Lawful n (reissueAll s) :=
  lawful_fold _ (fun _ _ ht => lawful_reissue _ _ ht) _ h

@[simp] theorem lawful_restart (h : Lawful n s) : Lawful n (restart s) := 
  lawful_toStandby (lawful_setAxis _ (lawful_setLay _ (lawful_setTrack _ (lawful_reissueAll h))))

/-! ### Ring ports -/

@[simp] theorem lawful_arrived (p : Port) (h : Lawful n s) : Lawful n (arrived p s) := by
  cases p <;> exact lawful_setRing_same _ h rfl rfl

@[simp] theorem lawful_enqueue (p : Port) (c : Cell) (h : Lawful n s) : Lawful n (enqueue p c s) := by
  unfold enqueue
  dsimp only
  split
  · rename_i hl
    refine lawful_setRing _ h ?_
    have h3 := h.3
    unfold QueuesBounded at h3
    cases p <;> simp only [Ring.setTx, Ring.tx, List.length_append, List.length_singleton] at hl ⊢ <;> omega
  · exact lawful_setRing_same _ h rfl rfl

@[simp] theorem lawful_enqueueFill (p : Port) (c : Cell) (h : Lawful n s) : Lawful n (enqueueFill p c s) := by
  unfold enqueueFill; split <;> simp [h]

@[simp] theorem lawful_enqueueVoid (p : Port) (h : Lawful n s) : Lawful n (enqueueVoid p s) :=
  lawful_enqueue _ _ (lawful_setRing_same _ h rfl rfl)

@[simp] theorem lawful_transmit (p : Port) (h : Lawful n s) : Lawful n (transmit p s) := by
  unfold transmit
  have h3 := h.3
  unfold QueuesBounded at h3
  dsimp only
  split <;> rename_i hq <;> refine lawful_setRing _ h ?_ <;> cases p <;>
    simp only [Ring.setTx, Ring.tx] at hq ⊢ <;> simp only [hq, List.length_cons, List.length_nil] at h3 ⊢ <;> omega

@[simp] theorem lawful_reachActivity (p : Port) (h : Lawful n s) : Lawful n (reachActivity p s) := by
  unfold reachActivity
  split
  · cases p <;> exact lawful_setRing_same _ h rfl rfl
  · exact h

@[simp] theorem lawful_enqueueAll (p : Port) (l : List Cell) (h : Lawful n s) : Lawful n (enqueueAll p l s) :=
  lawful_fold _ (fun _ _ ht => lawful_enqueue _ _ ht) _ h

@[simp] theorem lawful_appendOwn (h : Lawful n s) : Lawful n (appendOwn s) := by
  unfold appendOwn
  dsimp only
  split
  · have h1 := lawful_enqueueAll .up (ownCells s) h
    have h2 := lawful_setMgmt { (enqueueAll .up (ownCells s) s).mgmt with
      replies := (enqueueAll .up (ownCells s) s).mgmt.replies.drop 4 } h1
      (by have := h1.2; simp only [List.length_drop]; omega)
    exact lawful_setRing_same _ (lawful_setLay _ h2) rfl rfl
  · exact h

@[simp] theorem lawful_passDown (c : Cell) (h : Lawful n s) : Lawful n (passDown c s) := by
  unfold passDown
  split
  · simp [h]
  · split
    · simp [h]
    · split <;> simp [h]

/-! ### Time -/

@[simp] theorem lawful_reachBreak (h : Lawful n s) : Lawful n (reachBreak s) := by
  unfold reachBreak
  split
  · split <;> simp [h]
  · exact h

@[simp] theorem lawful_reachStations (h : Lawful n s) : Lawful n (reachStations s) :=
  lawful_fold _ (fun _ _ ht => lawful_reachStation _ ht) _ h

@[simp] theorem lawful_tick (h : Lawful n s) : Lawful n (tick s) := by
  have h1 := lawful_reachStations (lawful_reachWatchdog (lawful_reachActivity .down (lawful_reachActivity .up h)))
  have h2 := lawful_reachBreak (lawful_reachLost (lawful_reachStale (lawful_reachSettle (lawful_reachOpenTimes h1))))
  exact lawful_setClock _ (lawful_reachReacquire (lawful_reachSent (lawful_loopCatchUp h2)))

@[simp] theorem lawful_flipBits (a b c : Nat) (d : Option Nat) (h : Lawful n s) : Lawful n (flipBits a b c d s) := by
  unfold flipBits
  refine lawful_setMem _ h ⟨h.4.1, ?_⟩
  dsimp only
  split
  · exact setWf_setToggle _ _ (setWf_setToggle _ _ h.4.2)
  · exact setWf_setToggle _ _ h.4.2

end Sys2Proof.Machine
end

