-- ==== Sys2Proof/Laws/LawfulManagement.lean ====
section
/-! SUPPORT. The laws of the part under the management operations: an operation lets the reply queue grow by no more than
the replies it makes (R166), and test 1 of R164 keeps room for them. -/

namespace Sys2Proof.Machine

variable {n m : Nat} {s : State}

/-! ### Replies -/

theorem lawful_pushReply (p : Reply) (h : Lawful n s) : Lawful (n + 1) (pushReply p s) := by
  have := h.2
  exact lawful_setMgmt _ (h.weaken (Nat.le_succ n)) (by simpa using this)

theorem lawful_answer (r : Request) (c : ReplyCode) (b : Byte) (d : Part) (h : Lawful n s) :
    Lawful (n + 1) (answer r c b d s) := lawful_pushReply _ h

theorem lawful_answerTwice (r : Request) (c : ReplyCode) (b : Byte) (d e : Part) (h : Lawful n s) :
    Lawful (n + 2) (answerTwice r c b d e s) := lawful_pushReply _ (lawful_pushReply _ h)

theorem lawful_writtenPart (k : Nat) (h : Lawful n s) : Lawful n (writtenPart k s).2 := by
  unfold writtenPart
  split
  · exact h
  · split <;> exact lawful_readPart_of (by assumption) h

theorem lawful_writeShown (r : Request) (h : Lawful n s) : Lawful n (writeShown r s).2 := by
  unfold writeShown
  split
  · exact lawful_writtenPart _ h
  · split
    · exact h
    · split <;> exact h

/-- An answer lets the reply queue grow by the replies that its operation makes. -/
theorem lawful_respond (r : Request) (c : ReplyCode) (h : Lawful n s) :
    Lawful (n + replyCount r.op) (respond r c s) := by
  unfold respond replyCount
  split
  · exact lawful_answerTwice _ _ _ _ _ h
  · split
    · exact h
    · split
      · exact lawful_answer _ _ _ _ (lawful_writeShown r h)
      · split
        · exact lawful_answer _ _ _ _ h
        · split <;> exact lawful_answer _ _ _ _ h

/-- A request of an operation that makes one reply. -/
theorem lawful_respond_one (r : Request) (c : ReplyCode) (hr : replyCount r.op = 1) (h : Lawful n s) :
    Lawful (n + 1) (respond r c s) := hr ▸ lawful_respond r c h

/-! ### Reading -/

theorem lawful_readOrigins (a : Byte) (l : List Nat) (h : Lawful n s) : Lawful n (readOrigins a l s).2 := by
  induction l generalizing s with
  | nil => exact h
  | cons i l ih =>
    simp only [readOrigins]
    split <;> exact ih (lawful_readPart _ h)

theorem lawful_opRead (r : Request) (h : Lawful n s) : Lawful (n + 1) (opReadExec r s) := by
  unfold opReadExec readPlan readCounters readTablePart
  dsimp only
  split
  · split
    · split <;> exact lawful_answer _ _ _ _ (lawful_readPart_of (by assumption) h)
    · exact lawful_answer _ _ _ _ h
  · split
    · split <;> exact lawful_answer _ _ _ _ h
    · split
      · exact lawful_answer _ _ _ _ h
      · split
        · split <;> exact lawful_answer _ _ _ _ (lawful_readPart_of (by assumption) h)
        · exact lawful_answer _ _ _ _ h

theorem lawful_readZone_of {i : Nat} {t : State} {p : Option ZoneRec} (e : readZone i s = (p, t)) (h : Lawful n s) :
    Lawful n t := by
  have := lawful_readZone i h
  rwa [e] at this

theorem lawful_opProbe (r : Request) (l : Nat) (h : Lawful n s) : Lawful (n + 2) (opProbeExec r l s) := by
  unfold opProbeExec probeZone probeCourse
  split
  · split
    · split <;> exact lawful_answerTwice _ _ _ _ _ (lawful_readZone_of (by assumption) h)
    · exact lawful_answerTwice _ _ _ _ _ h
  · split
    · split <;> exact lawful_answerTwice _ _ _ _ _ (lawful_readCourse_of (by assumption) h)
    · exact lawful_answerTwice _ _ _ _ _ h

theorem lawful_scanPresent (t i : Nat) (h : Lawful n s) : Lawful n (scanPresent t i s).2 := by
  unfold scanPresent
  split <;> exact lawful_readPart_of (by assumption) h

theorem lawful_scanMeets (t c i : Nat) (h : Lawful n s) : Lawful n (scanMeets t c i s).2 := by
  unfold scanMeets
  split <;> first | exact h | exact lawful_scanPresent _ _ h

theorem lawful_scanFrom (t c : Nat) (u : Bool) (k i : Nat) (h : Lawful n s) : Lawful n (scanFrom t c u k i s).2 := by
  induction k generalizing i s with
  | zero => exact h
  | succ k ih =>
    have hm := lawful_scanMeets t c i h
    unfold scanFrom
    split <;> rename_i heq <;> rw [heq] at hm
    · exact hm
    · split <;> first | exact hm | exact ih _ hm

theorem lawful_opScan (r : Request) (h : Lawful n s) : Lawful (n + 1) (opScanExec r s) := by
  unfold opScanExec
  dsimp only
  split
  · exact lawful_answer _ _ _ _ h
  · split
    · exact lawful_answer _ _ _ _ h
    · exact lawful_answer _ _ _ _ (lawful_scanFrom _ _ _ _ _ h)

/-! ### Plan and machine -/

theorem lawful_opAppend (r : Request) (hr : replyCount r.op = 1) (h : Lawful n s) : Lawful (n + 1) (opAppendExec r s) := by
  unfold opAppendExec
  dsimp only
  split
  · exact lawful_respond_one _ _ hr h
  · split
    · exact lawful_respond_one _ _ hr h
    · split
      · exact lawful_respond_one _ _ hr h
      · exact lawful_answer _ _ _ _ (lawful_planAccept _ h)

theorem lawful_opFlush (r : Request) (hr : replyCount r.op = 1) (h : Lawful n s) : Lawful (n + 1) (opFlushExec r s) := by
  unfold opFlushExec
  split
  · exact lawful_respond_one _ _ hr h
  · exact lawful_answer _ _ _ _ (lawful_planFlushFrom _ h)

theorem lawful_opSkip (r : Request) (hr : replyCount r.op = 1) (h : Lawful n s) : Lawful (n + 1) (opSkipExec r s) := by
  unfold opSkipExec
  split
  · exact lawful_respond_one _ _ hr h
  · split
    · exact lawful_respond_one _ _ hr h
    · exact lawful_answer _ _ _ _ (lawful_planRemove _ h)

theorem lawful_leaveHold (h : Lawful n s) : Lawful n (leaveHold s) := lawful_setCtl _ h h.1

theorem lawful_beginRecovery (h : Lawful n s) : Lawful n (beginRecovery s) := lawful_setCtl _ (lawful_setGuard _ h) h.1

theorem lawful_modeRequest (c : Nat) (h : Lawful n s) : Lawful n (modeRequest c s).2 := by
  unfold modeRequest
  split
  · unfold requestGuard; split
    · split <;> simp [h]
    · exact h
    · simp [h]
    · exact h
  · unfold requestLay; split
    · split <;> simp [h]
    all_goals exact h
  · exact lawful_toStandby h
  · unfold requestHold; split
    · exact h
    all_goals exact lawful_raiseRequest h
  · unfold requestResume; split
    · split
      · exact h
      · exact lawful_setMode _ (lawful_leaveHold h)
    all_goals exact h
  · unfold requestRecover; split
    · split
      · exact lawful_takeCauses (lawful_setMode _ (lawful_beginRecovery (lawful_leaveHold h)))
      · exact h
    all_goals exact h

theorem lawful_modeRequest_of {c : Nat} {t : State} {a : ReplyCode} (e : modeRequest c s = (a, t)) (h : Lawful n s) :
    Lawful n t := by
  have := lawful_modeRequest c h
  rwa [e] at this

theorem lawful_opMode (r : Request) (l : Nat) (hr : replyCount r.op = 1) (h : Lawful n s) :
    Lawful (n + 1) (opModeExec r l s) := by
  unfold opModeExec
  dsimp only
  generalize (if field r.data 0 1 = 6 then 0 else 1) = q
  split
  · exact lawful_respond_one _ _ hr h
  · split
    · exact lawful_respond_one _ _ hr h
    · exact lawful_respond_one _ _ hr (lawful_modeRequest_of rfl h)

theorem lawful_opSuspend (r : Request) (l : Nat) (on : Bool) (hr : replyCount r.op = 1) (h : Lawful n s) :
    Lawful (n + 1) (opSuspendExec r l on s) := by
  unfold opSuspendExec suspendPoisoned
  dsimp only
  split
  · exact lawful_respond_one _ _ hr h
  · split
    · exact lawful_respond_one _ _ hr h
    · split
      · exact lawful_respond_one _ _ hr (lawful_readPart_of (by assumption) h)
      · have h1 := lawful_readPart_of (by assumption) h
        split
        · exact lawful_respond_one _ _ hr h1
        · split
          · exact lawful_respond_one _ _ hr h1
          · exact lawful_respond_one _ _ hr (lawful_setGuard _ h1)

theorem lawful_opStation (r : Request) (hr : replyCount r.op = 1) (h : Lawful n s) : Lawful (n + 1) (opStationExec r s) := by
  unfold opStationExec
  dsimp only
  split
  · exact lawful_respond_one _ _ hr h
  · split
    · exact lawful_respond_one _ _ hr (lawful_retry _ h)
    · split
      · unfold discardAnswer
        split
        · exact lawful_answer _ _ _ _ h
        · exact lawful_answer _ _ _ _ h
        · exact lawful_answer _ _ _ _ (lawful_discard _ _ h)
      · exact lawful_respond_one _ _ hr h

/-! ### Writes -/

theorem lawful_readForMerge (k : Nat) (mask : Half) (d : Part) (h : Lawful n s) :
    Lawful n (readForMerge k mask d s).2 := by
  unfold readForMerge
  split
  · exact h
  · split <;> exact lawful_readPart_of (by assumption) h

theorem lawful_readForMerge_of {k : Nat} {mask : Half} {d : Part} {t : State} {p : Option Part}
    (e : readForMerge k mask d s = (p, t)) (h : Lawful n s) : Lawful n t := by
  have := lawful_readForMerge k mask d h
  rwa [e] at this

theorem lawful_storeMerged (r : Request) (k : Nat) (d : Part) (f : State → State)
    (hf : ∀ t, Lawful n t → Lawful n (f t)) (h : Lawful n s) : Lawful n (storeMerged r k d f s) := by
  unfold storeMerged
  split
  · exact h
  · exact hf _ (lawful_storeAccepted _ _ h)

theorem lawful_writeOrigin (r : Request) (l : Nat) (hr : replyCount r.op = 1) (h : Lawful n s) :
    Lawful (n + 1) (writeOriginTable r l s) := by
  unfold writeOriginTable
  dsimp only
  split
  · exact lawful_respond_one _ _ hr h
  · split
    · exact lawful_respond_one _ _ hr h
    · split
      · exact lawful_respond_one _ _ hr (lawful_readForMerge_of (by assumption) h)
      · have h1 := lawful_readForMerge_of (by assumption) h
        split
        · exact lawful_respond_one _ _ hr (lawful_storeMerged _ _ _ _ (fun _ ht => ht) h1)
        · exact lawful_respond_one _ _ hr h1

theorem lawful_lineEffects (p : Params) (h : Lawful n s) : Lawful n (lineEffects p s) := by
  have h1 : Lawful n (if settingsDiffer p s.params then settingsChanged s else s) := by split <;> simp [h]
  unfold lineEffects
  dsimp only
  generalize (if settingsDiffer p s.params then settingsChanged s else s) = t at h1 ⊢
  split
  · apply lawful_recomputeExpiries
    split
    · exact h1
    · split <;> simp [h1]
  · split
    · exact h1
    · split <;> simp [h1]

theorem lawful_paramEffects (p : Nat) (v : Params) (h : Lawful n s) : Lawful n (paramEffects p v s) := by
  unfold paramEffects
  split
  · exact lawful_reachOpenTimes h
  · exact lawful_lineEffects _ h
  · unfold guardEffects
    split
    · exact h
    · split <;> simp [h]
  · exact h

theorem lawful_acceptParam (p : Nat) (v : Params) (h : Lawful n s) : Lawful n (acceptParam p v s) := by
  unfold acceptParam
  dsimp only
  apply lawful_paramEffects
  apply lawful_storePart
  apply lawful_setParams
  split
  · exact lawful_loopCatchUp h
  · exact h

theorem lawful_writeParam (r : Request) (l : Nat) (hr : replyCount r.op = 1) (h : Lawful n s) :
    Lawful (n + 1) (writeParamTable r l s) := by
  unfold writeParamTable
  dsimp only
  generalize (if r.part.toNat = 4 then 0 else 1) = q
  split
  · split
    · exact lawful_respond_one _ _ hr h
    · split
      · exact lawful_respond_one _ _ hr h
      · unfold writeParamPart
        split
        · exact lawful_respond_one _ _ hr (lawful_readForMerge_of (by assumption) h)
        · have h1 := lawful_readForMerge_of (by assumption) h
          dsimp only
          apply lawful_respond_one _ _ hr
          split
          · exact h1
          · exact lawful_acceptParam _ _ h1
  · split
    · exact lawful_respond_one _ _ hr h
    · split <;> exact lawful_respond_one _ _ hr h

theorem lawful_axisAccepted (i : Nat) (e : AxisRec) (h : Lawful n s) : Lawful n (axisAccepted i e s) := by
  unfold axisAccepted
  dsimp only
  split <;> exact lawful_evalTerms _ (lawful_setAxis _ h)

theorem lawful_writeAxis (r : Request) (l : Nat) (hr : replyCount r.op = 1) (h : Lawful n s) :
    Lawful (n + 1) (writeAxisTable r l s) := by
  unfold writeAxisTable
  dsimp only
  split
  · exact lawful_respond_one _ _ hr h
  · split
    · exact lawful_respond_one _ _ hr h
    · split
      · exact lawful_respond_one _ _ hr h
      · split
        · exact lawful_respond_one _ _ hr (lawful_readForMerge_of (by assumption) h)
        · have h1 := lawful_readForMerge_of (by assumption) h
          split
          · exact lawful_respond_one _ _ hr
              (lawful_storeMerged _ _ _ _ (fun _ ht => lawful_axisAccepted _ _ ht) h1)
          · exact lawful_respond_one _ _ hr h1

theorem lawful_termLevelOk (i l : Nat) (zs : List Nat) (h : Lawful n s) : Lawful n (termLevelOk i l zs s).2 := by
  induction zs generalizing s with
  | nil => exact h
  | cons z zs ih =>
    simp only [termLevelOk]
    split <;> exact ih (lawful_readPart _ h)

theorem lawful_termLevelOk_of {i l : Nat} {zs : List Nat} {t : State} {b : Bool} (e : termLevelOk i l zs s = (b, t))
    (h : Lawful n s) : Lawful n t := by
  have := lawful_termLevelOk i l zs h
  rwa [e] at this

theorem lawful_writeTerm (r : Request) (l : Nat) (hr : replyCount r.op = 1) (h : Lawful n s) :
    Lawful (n + 1) (writeTermTable r l s) := by
  unfold writeTermTable
  dsimp only
  split
  · exact lawful_respond_one _ _ hr h
  · split
    · exact lawful_respond_one _ _ hr h
    · split
      · exact lawful_respond_one _ _ hr (lawful_termLevelOk_of (by assumption) h)
      · have h0 := lawful_termLevelOk_of (by assumption) h
        split
        · exact lawful_respond_one _ _ hr (lawful_readForMerge_of (by assumption) h0)
        · have h1 := lawful_readForMerge_of (by assumption) h0
          split
          · exact lawful_respond_one _ _ hr
              (lawful_storeMerged _ _ _ _ (fun _ ht => lawful_evalTerm _ ht) h1)
          · exact lawful_respond_one _ _ hr h1

theorem lawful_readStored (k : Nat) (mask : Half) (h : Lawful n s) : Lawful n (readStored k mask s).2 := by
  unfold readStored
  split
  · exact h
  · exact lawful_readPart _ h

theorem lawful_readZero (r : Request) (h : Lawful n s) : Lawful n (readZero r s).2 := lawful_readStored _ _ h

theorem lawful_readZero_of {r : Request} {t : State} {p : Option Part} (e : readZero r s = (p, t)) (h : Lawful n s) :
    Lawful n t := by
  have := lawful_readZero r h
  rwa [e] at this

theorem lawful_zoneMerged (r : Request) (p : Option Part) (h : Lawful n s) : Lawful n (zoneMerged r p s).2 := by
  unfold zoneMerged
  split
  · exact lawful_readPart _ h
  · exact lawful_readForMerge _ _ _ h

theorem lawful_zoneMerged_of {r : Request} {p : Option Part} {t : State} {q : Option Part}
    (e : zoneMerged r p s = (q, t)) (h : Lawful n s) : Lawful n t := by
  have := lawful_zoneMerged r p h
  rwa [e] at this

theorem lawful_writeZone (r : Request) (l : Nat) (hr : replyCount r.op = 1) (h : Lawful n s) :
    Lawful (n + 1) (writeZoneTable r l s) := by
  unfold writeZoneTable
  split
  · exact lawful_respond_one _ _ hr h
  · split
    have h0 := lawful_readZero_of (by assumption) h
    split
    · unfold writeZoneMerged
      split
      · exact lawful_respond_one _ _ hr (lawful_zoneMerged_of (by assumption) h0)
      · have h1 := lawful_zoneMerged_of (by assumption) h0
        dsimp only
        split
        · exact lawful_respond_one _ _ hr h1
        · split
          · exact lawful_respond_one _ _ hr h1
          · exact lawful_respond_one _ _ hr (lawful_storeMerged _ _ _ _ (fun _ ht => lawful_report ht) h1)
    · exact lawful_respond_one _ _ hr h0

theorem lawful_writeCourseMerged (r : Request) (d o z : Option Part) (hr : replyCount r.op = 1) (h : Lawful n s) :
    Lawful (n + 1) (writeCourseMerged r d o z s) := by
  unfold writeCourseMerged
  split
  · exact lawful_respond_one _ _ hr h
  · split
    · exact lawful_respond_one _ _ hr h
    · split
      · exact lawful_respond_one _ _ hr h
      · split
        · exact lawful_respond_one _ _ hr h
        · exact lawful_respond_one _ _ hr (lawful_storeMerged _ _ _ _ (fun _ ht => ht) h)

theorem lawful_writeCourse (r : Request) (l : Nat) (hr : replyCount r.op = 1) (h : Lawful n s) :
    Lawful (n + 1) (writeCourseTable r l s) := by
  unfold writeCourseTable
  dsimp only
  split
  · exact lawful_respond_one _ _ hr h
  · split
    · exact lawful_respond_one _ _ hr h
    · split
      · exact lawful_writeCourseMerged _ _ _ _ hr (lawful_readPart _ (lawful_readStored _ _ h))
      · exact lawful_writeCourseMerged _ _ _ _ hr (lawful_readPart _ (lawful_readForMerge _ _ _ h))

theorem lawful_opWrite (r : Request) (l : Nat) (hr : replyCount r.op = 1) (h : Lawful n s) :
    Lawful (n + 1) (opWriteExec r l s) := by
  unfold opWriteExec
  split
  · exact lawful_writeOrigin _ _ hr h
  · exact lawful_writeParam _ _ hr h
  · exact lawful_writeAxis _ _ hr h
  · exact lawful_writeTerm _ _ hr h
  · exact lawful_writeZone _ _ hr h
  · exact lawful_writeCourse _ _ hr h

/-! ### Every operation -/

theorem lawful_ite {p : Prop} [Decidable p] {a b : State} (ha : p → Lawful n a) (hb : ¬ p → Lawful n b) :
    Lawful n (if p then a else b) := by
  by_cases h : p
  · rw [if_pos h]; exact ha h
  · rw [if_neg h]; exact hb h

theorem lawful_perform (r : Request) (l : Nat) (h : Lawful n s) : Lawful (n + replyCount r.op) (perform r l s) := by
  by_cases hp : r.op = opProbe
  · have : replyCount r.op = 2 := by simp [replyCount, hp]
    have e : perform r l s = opProbeExec r l s := by simp [perform, hp, opProbe, opRead, opWrite]
    rw [this, e]
    exact lawful_opProbe r l h
  · by_cases hx : r.op = opReset
    · have : replyCount r.op = 0 := by simp [replyCount, hx, opReset, opProbe]
      have e : perform r l s = ringReset s := by
        unfold perform
        rw [hx]
        iterate 13 rw [if_neg (by decide)]
      rw [this, e]
      exact lawful_ringReset h
    · have hr : replyCount r.op = 1 := by simp [replyCount, hp, hx]
      rw [hr]
      unfold perform
      refine lawful_ite (fun _ => lawful_opRead _ h) fun _ => ?_
      refine lawful_ite (fun _ => lawful_opWrite _ _ hr h) fun _ => ?_
      refine lawful_ite (fun e => absurd e hp) fun _ => ?_
      refine lawful_ite (fun _ => lawful_opScan _ h) fun _ => ?_
      refine lawful_ite (fun _ => lawful_opAppend _ hr h) fun _ => ?_
      refine lawful_ite (fun _ => lawful_opFlush _ hr h) fun _ => ?_
      refine lawful_ite (fun _ => lawful_opSkip _ hr h) fun _ => ?_
      refine lawful_ite (fun _ => lawful_opMode _ _ hr h) fun _ => ?_
      refine lawful_ite (fun _ => lawful_opSuspend _ _ _ hr h) fun _ => ?_
      refine lawful_ite (fun _ => lawful_opSuspend _ _ _ hr h) fun _ => ?_
      refine lawful_ite (fun _ => lawful_respond_one _ _ hr (lawful_setCtl _ h h.1)) fun _ => ?_
      refine lawful_ite (fun _ => lawful_opStation _ hr h) fun _ => ?_
      refine lawful_ite (fun _ => lawful_respond_one _ _ hr (lawful_restart h)) fun _ => ?_
      exact (lawful_ringReset h).weaken (Nat.le_succ n)

theorem lawful_judgeRequest (r : Request) (o : Nat) (h : Lawful n s) :
    Lawful (n + replyCount r.op) (judgeRequest r o s) := by
  unfold judgeRequest
  split; · exact lawful_respond _ _ h
  split; · exact lawful_respond _ _ h
  split; · exact lawful_respond _ _ h
  split; · exact lawful_respond _ _ h
  exact lawful_perform _ _ h

/-- Test 1 of R164 keeps the reply queue within its sixteen places. -/
theorem lawful_manage (r : Request) (h : Lawful 16 s) : Lawful 16 (manage r s) := by
  unfold manage hasRoom
  split
  · rename_i hroom
    have hr : s.mgmt.replies.length + replyCount r.op ≤ 16 := by simpa using hroom
    have h0 : Lawful s.mgmt.replies.length s := ⟨h.1, le_rfl, h.3, h.4⟩
    have h1 := lawful_readOrigins r.src (List.range 8) h0
    unfold originLevel
    split <;> rename_i heq <;> rw [heq] at h1
    · exact (lawful_respond _ _ h1).weaken hr
    · exact (lawful_judgeRequest _ _ h1).weaken hr
  · exact lawful_setMgmt _ h h.2

theorem lawful_keepUnsent {t : State} (s : State) (h : Lawful 16 t) : Lawful 16 (keepUnsent s t) := by
  unfold keepUnsent
  split
  · exact h
  · exact lawful_setAxis _ h

theorem lawful_passUp (c : Cell) (h : Lawful 16 s) : Lawful 16 (passUp c s) := by
  unfold passUp passTrain passSet
  split
  · apply lawful_enqueue
    split
    · exact h
    · exact lawful_outboundTrain _ _ h
  split
  · exact lawful_enqueue _ _ (lawful_keepUnsent s (lawful_conditionSet c h))
  split
  · split
    · exact lawful_manage _ h
    · exact lawful_enqueue _ _ h
  split
  · exact lawful_enqueue _ _ (lawful_outboundEnd h)
  split
  · exact lawful_enqueueFill _ _ h
  · exact lawful_enqueue _ _ h

/-- The arrival of a cell keeps the laws of the part. -/
theorem lawful_receive (p : Port) (c : Cell) (h : Lawful 16 s) : Lawful 16 (receive p c s) := by
  have h1 : Lawful 16 (s.setRing (s.ring.setRx p ((s.ring.rx p).receive (isGood c) s.clock.us))) := by
    cases p <;> exact lawful_setRing_same _ h rfl rfl
  unfold receive
  dsimp only
  split
  · split
    · cases p
      · exact lawful_passUp _ h1
      · exact lawful_passDown _ h1
    · exact lawful_enqueueVoid _ h1
  · exact h1

end Sys2Proof.Machine
end

