-- ==== Sys2Proof/Laws/PlanOrder.lean ====
section
/-! SUPPORT. The order of the plan queue (R9) under the operations of the plan store, and under everything that uses them. -/

namespace Sys2Proof.Machine

variable {s t : State} {p : Plan}

/-! ### The plan store's own operations -/

theorem PlanOrdered.initial : PlanOrdered Plan.initial := ⟨List.Pairwise.nil, by simp [Plan.initial], List.Pairwise.nil⟩

/-- The order speaks of the queue and the bound set alone. -/
theorem PlanOrdered.of_eq {q : Plan} (h : PlanOrdered p) (hq : q.queue = p.queue) (hb : q.bound = p.bound) :
    PlanOrdered q := ⟨hq ▸ h.1, by rw [hq, hb]; exact h.2, hb ▸ h.3⟩

theorem PlanOrdered.filter_queue (h : PlanOrdered p) (f : QueueEntry → Bool) {q : Plan}
    (hq : q.queue = p.queue.filter f) (hb : q.bound = p.bound) : PlanOrdered q :=
  ⟨by rw [hq]; exact h.1.filter _, by rw [hq, hb]; exact fun a ha => h.2 a (List.mem_filter.1 ha).1, hb ▸ h.3⟩

theorem PlanOrdered.filter_bound (h : PlanOrdered p) (f : BoundEntry → Bool) {q : Plan}
    (hq : q.queue = p.queue) (hb : q.bound = p.bound.filter f) : PlanOrdered q :=
  ⟨hq ▸ h.1, by rw [hq, hb]; exact fun a ha b hb => h.2 a ha b (List.mem_filter.1 hb).1, by rw [hb]; exact h.3.filter _⟩

@[simp] theorem changeRef_queue (p : Plan) (c : Nat) (f : Nat → Nat) : (p.changeRef c f).queue = p.queue := rfl
@[simp] theorem changeRef_bound (p : Plan) (c : Nat) (f : Nat → Nat) : (p.changeRef c f).bound = p.bound := rfl
@[simp] theorem addRef_queue (p : Plan) (c : Nat) : (p.addRef c).queue = p.queue := rfl
@[simp] theorem addRef_bound (p : Plan) (c : Nat) : (p.addRef c).bound = p.bound := rfl
@[simp] theorem dropRef_queue (p : Plan) (c : Nat) : (p.dropRef c).queue = p.queue := rfl
@[simp] theorem dropRef_bound (p : Plan) (c : Nat) : (p.dropRef c).bound = p.bound := rfl

@[simp] theorem dropRefs_queue (p : Plan) (l : List QueueEntry) : (p.dropRefs l).queue = p.queue := by
  unfold Plan.dropRefs
  induction l generalizing p with
  | nil => rfl
  | cons e l ih => rw [List.foldl_cons, ih, dropRef_queue]

@[simp] theorem dropRefs_bound (p : Plan) (l : List QueueEntry) : (p.dropRefs l).bound = p.bound := by
  unfold Plan.dropRefs
  induction l generalizing p with
  | nil => rfl
  | cons e l ih => rw [List.foldl_cons, ih, dropRef_bound]

/-- R10: an append in order keeps the order. -/
theorem ordered_planAccept (d : Part) (h : PlanOrdered s.plan) (ho : layInOrder (planRec d).lay s.plan = true) :
    PlanOrdered (planAccept d s).plan := by
  simp only [layInOrder, Bool.and_eq_true, List.all_eq_true, decide_eq_true_eq, bne_iff_ne] at ho
  obtain ⟨⟨_, hq⟩, hb⟩ := ho
  refine ⟨?_, ?_, h.3⟩
  · refine List.pairwise_append.2 ⟨h.1, List.pairwise_singleton _ _, ?_⟩
    intro a ha b hb'
    rw [List.mem_singleton.1 hb']
    exact hq a ha
  · intro a ha b hb'
    rcases List.mem_append.1 ha with ha | ha
    · exact h.2 a ha b hb'
    · rw [List.mem_singleton.1 ha]
      exact fun e => hb b hb' e.symm

theorem ordered_planFlushFrom (l : Nat) (h : PlanOrdered s.plan) : PlanOrdered (planFlushFrom l s).plan :=
  h.filter_queue (fun q => q.lay < l) (by simp [planFlushFrom]) (by simp [planFlushFrom])

theorem ordered_planRemove (e : QueueEntry) (h : PlanOrdered s.plan) : PlanOrdered (planRemove e s).plan :=
  h.filter_queue (fun q => q.lay != e.lay) (by simp [planRemove]) (by simp [planRemove])

theorem ordered_planLaid (l : Nat) (h : PlanOrdered s.plan) : PlanOrdered (planLaid l s).plan := by
  unfold planLaid
  split
  · exact h
  · exact h.filter_bound (fun k => k.lay != l) rfl rfl

/-- R20: the head that is bound was in the queue, and so not in the bound set. -/
theorem ordered_bindHead (e : QueueEntry) (g : Target) (h : PlanOrdered s.plan) (he : e ∈ s.plan.queue) :
    PlanOrdered (bindHead e g s).plan := by
  refine ⟨h.1.filter _, ?_, ?_⟩
  · intro a ha b hb
    obtain ⟨ha, hne⟩ := List.mem_filter.1 ha
    rcases List.mem_append.1 hb with hb | hb
    · exact h.2 a ha b hb
    · rw [List.mem_singleton.1 hb]
      simpa using hne
  · refine List.pairwise_append.2 ⟨h.3, List.pairwise_singleton _ _, ?_⟩
    intro a ha b hb
    rw [List.mem_singleton.1 hb]
    exact fun e' => h.2 e he a ha e'.symm

theorem mem_insertByLay (e a : QueueEntry) (l : List QueueEntry) : a ∈ insertByLay e l ↔ a = e ∨ a ∈ l := by
  induction l with
  | nil => simp [insertByLay]
  | cons q l ih =>
    unfold insertByLay
    split
    · simp
    · simp only [List.mem_cons, ih]; tauto

theorem rising_insertByLay (e : QueueEntry) (l : List QueueEntry) (h : layRising l) (hne : ∀ q ∈ l, q.lay ≠ e.lay) :
    layRising (insertByLay e l) := by
  unfold layRising at *
  induction l with
  | nil => simp [insertByLay]
  | cons q l ih =>
    obtain ⟨hq, hl⟩ := List.pairwise_cons.1 h
    have hqe := hne q List.mem_cons_self
    unfold insertByLay
    split
    · rename_i hlt
      refine List.pairwise_cons.2 ⟨?_, h⟩
      intro a ha
      rcases List.mem_cons.1 ha with rfl | ha
      · exact hlt
      · exact hlt.trans (hq a ha)
    · refine List.pairwise_cons.2 ⟨?_, ih hl fun a ha => hne a (List.mem_cons_of_mem _ ha)⟩
      intro a ha
      rcases (mem_insertByLay e a l).1 ha with rfl | ha
      · omega
      · exact hq a ha

/-- R14: a reissued record comes back at the place of its lay number. -/
theorem ordered_reissue (l : Nat) (c : Bool) (h : PlanOrdered s.plan) : PlanOrdered (reissue l c s).plan := by
  unfold reissue
  split
  · exact h
  · rename_i b hb
    have hmem : b ∈ s.plan.bound := List.mem_of_find?_eq_some hb
    have hl : b.lay = l := by simpa using List.find?_some hb
    refine ⟨?_, ?_, h.3.filter _⟩
    · exact rising_insertByLay _ _ h.1 fun q hq => h.2 q hq b hmem
    · intro a ha k hk
      obtain ⟨hk, hne⟩ := List.mem_filter.1 hk
      have hkl : k.lay ≠ l := by simpa using hne
      rcases (mem_insertByLay _ a _).1 ha with rfl | ha
      · simpa [reissueEntry, hl] using fun e : l = k.lay => hkl e.symm
      · exact h.2 a ha k hk

/-! ### Operations that leave the plan store alone -/

theorem plan_of_quiet (h : quiet t = quiet s) : t.plan = s.plan := ((quiet_eq t s).1 h).2.2.2.2.2.1

theorem ordered_of_quiet (h : quiet t = quiet s) (ho : PlanOrdered s.plan) : PlanOrdered t.plan :=
  plan_of_quiet h ▸ ho

theorem plan_stationEntry (st : Station) (s : State) : (stationEntry st s).2.plan = s.plan := by
  unfold stationEntry
  split
  · rfl
  · split <;> exact plan_of_quiet (quiet_readAxis_of (by assumption))

theorem plan_stationEntry_of {st : Station} {p : Option Nat} (e : stationEntry st s = (p, t)) : t.plan = s.plan := by
  have := plan_stationEntry st s
  rwa [e] at this

theorem plan_issueFor (c : Cmd) (k : Ticket) (w : Word) (f : Ticket → Ticket) (s : State) :
    (issueFor c k w f s).plan = s.plan := by
  unfold issueFor
  split
  · split
    · exact plan_stationEntry_of (by assumption)
    · rename_i heq
      have := plan_stationEntry_of heq
      exact this
  · rfl

theorem plan_requestOpen (s : State) : (requestOpen s).plan = s.plan := by
  unfold requestOpen
  split
  · split
    · split
      · exact plan_stationEntry_of (by assumption)
      · rename_i heq
        have := plan_stationEntry_of heq
        exact this
    · rfl
  · rfl

theorem plan_issueSaw (s : State) : (issueSaw s).plan = s.plan := by
  unfold issueSaw
  split
  · exact plan_issueFor _ _ _ _ _
  · split
    · exact plan_issueFor _ _ _ _ _
    · rfl

theorem plan_issueGlue (s : State) : (issueGlue s).plan = s.plan := by
  unfold issueGlue
  split
  · split
    · exact plan_issueFor _ _ _ _ _
    · rfl
  · rfl

theorem plan_issueShuttle (s : State) : (issueShuttle s).plan = s.plan := by
  unfold issueShuttle
  split
  · exact plan_issueFor _ _ _ _ _
  · split
    · split
      · exact plan_issueFor _ _ _ _ _
      · rfl
    · rfl

theorem plan_issueFlipper (s : State) : (issueFlipper s).plan = s.plan := by
  unfold issueFlipper
  split
  · rfl
  · split
    · exact plan_issueFor _ _ _ _ _
    · split
      · exact plan_issueFor _ _ _ _ _
      · rfl

theorem plan_spoilAtFlipper (s : State) : (spoilAtFlipper s).plan = s.plan := by
  unfold spoilAtFlipper
  split
  · rfl
  · split
    · split <;> rfl
    · rfl

theorem plan_discardPlacement (k : Ticket) (s : State) : (discardPlacement k s).plan = s.plan := by
  unfold discardPlacement; split <;> rfl

/-! ### Admission and issue -/

theorem ordered_admitInCourse (e : QueueEntry) (r : PlanRec) (c : CourseRec) (h : PlanOrdered s.plan)
    (he : e ∈ s.plan.queue) : PlanOrdered (admitInCourse e r c s).2.plan := by
  unfold admitInCourse
  split
  · exact h
  · have hp := plan_of_quiet (quiet_pointTest (targetOfRecord r c) s)
    split <;> rename_i heq <;> rw [heq] at hp
    · exact hp ▸ h
    · exact ordered_bindHead _ _ (hp ▸ h) (hp ▸ he)

theorem plan_readCourse_of {c : Nat} {o : Option CourseRec} (e : readCourse c s = (o, t)) : t.plan = s.plan := by
  have := plan_of_quiet (quiet_readCourse c s)
  rwa [e] at this

theorem ordered_admitRecord (e : QueueEntry) (h : PlanOrdered s.plan) (he : e ∈ s.plan.queue) :
    PlanOrdered (admitRecord e s).2.plan := by
  unfold admitRecord
  split
  · rename_i heq
    have h1 := plan_of_quiet (quiet_readPart_of heq)
    exact h1 ▸ h
  · rename_i heq
    have h1 := plan_of_quiet (quiet_readPart_of heq)
    split
    · rename_i heq2
      have h2 := plan_readCourse_of heq2
      exact (h2.trans h1) ▸ h
    · rename_i heq2
      have h2 := plan_readCourse_of heq2
      have h3 := h2.trans h1
      split
      · exact ordered_admitInCourse _ _ _ (h3 ▸ h) (h3 ▸ he)
      · exact h3 ▸ h

theorem ordered_admit (h : PlanOrdered s.plan) : PlanOrdered (admitHead s).2.plan := by
  unfold admitHead
  split
  · exact h
  · rename_i e _ hq
    split
    · exact h
    · exact ordered_admitRecord _ h (hq ▸ List.mem_cons_self)

theorem ordered_admit_of {a : Admission} (e : admitHead s = (a, t)) (h : PlanOrdered s.plan) : PlanOrdered t.plan := by
  have := ordered_admit h
  rwa [e] at this

theorem ordered_issueFeed (h : PlanOrdered s.plan) : PlanOrdered (issueFeed s).plan := by
  unfold issueFeed
  split
  · split
    · exact plan_stationEntry_of (by assumption) ▸ h
    · rename_i heq
      have h1 : PlanOrdered _ := plan_stationEntry_of heq ▸ h
      split
      · exact ordered_admit_of (by assumption) h1
      · rename_i heq2
        have h2 := ordered_admit_of heq2 h1
        exact h2
  · exact h

theorem ordered_issueCommands (h : PlanOrdered s.plan) : PlanOrdered (issueCommands s).plan := by
  unfold issueCommands
  rw [plan_issueFlipper, plan_issueShuttle, plan_issueGlue, plan_issueSaw]
  exact ordered_issueFeed h

theorem plan_stabCompute (fr : Bool) (s : State) : (stabCompute fr s).plan = s.plan := by
  have h := plan_of_quiet (quiet_readFines s)
  simp only [stabCompute]
  split
  · rw [State.setStab_plan]; exact h
  · rw [State.setLine_plan, State.setStab_plan]; exact h

theorem plan_trainCompute (fr : Bool) (s : State) : (trainCompute fr s).plan = s.plan := by
  unfold trainCompute
  rw [plan_of_quiet (quiet_evaluateZones _), plan_stabCompute, plan_of_quiet (quiet_offsetStep _),
    plan_of_quiet (quiet_approachIfHeld _), plan_of_quiet (quiet_scrubStep _), plan_of_quiet (quiet_evalTerms _ _)]

theorem ordered_outboundTrain (c : Word) (p : Half) (h : PlanOrdered s.plan) : PlanOrdered (outboundTrain c p s).plan := by
  unfold outboundTrain trainIssue
  apply ordered_issueCommands
  rw [plan_spoilAtFlipper, plan_requestOpen, plan_of_quiet (quiet_layVerdict _), plan_trainCompute,
    plan_of_quiet (quiet_gateAtTrain _)]
  exact h

theorem plan_judgeSlot (r : Role) (s : State) : (judgeSlot r s).plan = s.plan := by
  unfold judgeSlot
  split
  · rfl
  · split
    · rfl
    · dsimp only; split <;> rfl

theorem plan_outboundEnd (s : State) : (outboundEnd s).plan = s.plan := by
  unfold outboundEnd judgeSlots
  unfold clearSlots
  rw [State.setAxis_plan, plan_judgeSlot, plan_judgeSlot, plan_judgeSlot, plan_judgeSlot, plan_of_quiet (quiet_gateAtEnd _)]

/-! ### Completion and discard -/

theorem ordered_dropTicket (k : Ticket) (c : Bool) (h : PlanOrdered s.plan) : PlanOrdered (dropTicket k c s).plan :=
  ordered_reissue _ _ h

theorem ordered_completeFor (c : Cmd) (k : Ticket) (v : Int) (h : PlanOrdered s.plan) :
    PlanOrdered (completeFor c k v s).plan := by
  cases c
  case cut => simp only [completeFor, cutCompletes]; split <;> exact h
  case eject => exact ordered_dropTicket _ _ h
  case drop => exact ordered_dropTicket _ _ h
  case openJaws => exact ordered_planLaid _ h
  case handover => exact ordered_of_quiet (quiet_placementBegins _ _) h
  all_goals exact h

theorem ordered_complete (st : Station) (f : InFlight) (v : Int) (h : PlanOrdered s.plan) :
    PlanOrdered (complete st f v s).plan := by
  unfold complete
  dsimp only
  split
  · exact ordered_completeFor _ _ _ h
  · exact h

theorem ordered_stationReport (st : Station) (f : Feedback) (h : PlanOrdered s.plan) :
    PlanOrdered (stationReport st f s).plan := by
  have h1 : PlanOrdered (reportCommand st f s).plan := by
    unfold reportCommand
    dsimp only
    split
    · exact h
    · split
      · exact ordered_complete _ _ _ h
      · split <;> exact h
  simp only [stationReport, compareSensor]
  split <;> exact h1

theorem ordered_captureCell (c : Cell) (h : PlanOrdered s.plan) : PlanOrdered (captureCell c s).plan := by
  unfold captureCell
  split
  · exact h
  · split
    · exact h
    · have h1 : ∀ l v, PlanOrdered (evalTerms l (s.setAxis v)).plan :=
        fun l v => ordered_of_quiet (quiet_evalTerms _ _) h
      simp only [capture, storeFeedback]
      split
      · exact ordered_stationReport _ _ (h1 _ _)
      · exact h1 _ _

theorem ordered_discard (st : Station) (k : Option Ticket) (h : PlanOrdered s.plan) :
    PlanOrdered (discard st k s).plan := by
  unfold discard
  dsimp only
  split
  · exact h
  · apply ordered_dropTicket
    rw [plan_discardPlacement]
    exact h

theorem ordered_reissueAll (h : PlanOrdered s.plan) : PlanOrdered (reissueAll s).plan := by
  unfold reissueAll
  generalize s.track.tickets.map (·.lay) = l
  induction l generalizing s with
  | nil => exact h
  | cons a l ih => exact ih (ordered_reissue _ _ h)

theorem ordered_restart (h : PlanOrdered s.plan) : PlanOrdered (restart s).plan := by
  unfold restart
  exact ordered_of_quiet (quiet_toStandby _) (ordered_reissueAll h)

/-! ### Management operations -/

theorem plan_writeShown (r : Request) (s : State) : (writeShown r s).2.plan = s.plan := plan_of_quiet (quiet_writeShown r s)

theorem plan_respond (r : Request) (c : ReplyCode) (s : State) : (respond r c s).plan = s.plan := by
  have h := plan_writeShown r s
  unfold respond
  repeat' split
  all_goals first | rfl | (rename_i heq; rw [heq] at h; exact h)

theorem plan_readOrigins (a : Byte) (l : List Nat) (s : State) : (readOrigins a l s).2.plan = s.plan := by
  induction l generalizing s with
  | nil => rfl
  | cons i l ih =>
    have h := plan_of_quiet (quiet_readPart (originPart i) s)
    simp only [readOrigins]
    split <;> exact (ih _).trans h

theorem plan_opRead (r : Request) (s : State) : (opReadExec r s).plan = s.plan := by
  unfold opReadExec readPlan readCounters readTablePart
  dsimp only
  split
  · split
    · split <;> rename_i heq <;> have h := plan_of_quiet (quiet_readPart_of heq) <;> exact h
    · rfl
  · split
    · split <;> rfl
    · split
      · rfl
      · split
        · split <;> rename_i heq <;> have h := plan_of_quiet (quiet_readPart_of heq) <;> exact h
        · rfl

theorem plan_opProbe (r : Request) (l : Nat) (s : State) : (opProbeExec r l s).plan = s.plan := by
  have hz := plan_of_quiet (quiet_readZone r.index.toNat s)
  have hc := plan_of_quiet (quiet_readCourse r.index.toNat s)
  unfold opProbeExec probeZone probeCourse
  split
  · split
    · split <;> rename_i heq <;> rw [heq] at hz <;> exact hz
    · rfl
  · split
    · split <;> rename_i heq <;> rw [heq] at hc <;> exact hc
    · rfl

theorem plan_scanPresent (t i : Nat) (s : State) : (scanPresent t i s).2.plan = s.plan := by
  unfold scanPresent
  split <;> exact plan_of_quiet (quiet_readPart_of (by assumption))

theorem plan_scanMeets (t c i : Nat) (s : State) : (scanMeets t c i s).2.plan = s.plan := by
  unfold scanMeets
  split <;> first | rfl | exact plan_scanPresent _ _ _

theorem plan_scanFrom (t c : Nat) (u : Bool) (k i : Nat) (s : State) : (scanFrom t c u k i s).2.plan = s.plan := by
  induction k generalizing i s with
  | zero => rfl
  | succ k ih =>
    have hm := plan_scanMeets t c i s
    unfold scanFrom
    split <;> rename_i heq <;> rw [heq] at hm
    · exact hm
    · split <;> first | exact hm | exact (ih _ _).trans hm

theorem plan_opScan (r : Request) (s : State) : (opScanExec r s).plan = s.plan := by
  unfold opScanExec
  dsimp only
  split
  · rfl
  · split
    · rfl
    · exact plan_scanFrom _ _ _ _ _ _

theorem ordered_opAppend (r : Request) (h : PlanOrdered s.plan) : PlanOrdered (opAppendExec r s).plan := by
  unfold opAppendExec
  dsimp only
  split
  · rw [plan_respond]; exact h
  · split
    · rw [plan_respond]; exact h
    · rename_i ho
      split
      · rw [plan_respond]; exact h
      · exact ordered_planAccept _ h (by simpa using ho)

theorem ordered_opFlush (r : Request) (h : PlanOrdered s.plan) : PlanOrdered (opFlushExec r s).plan := by
  unfold opFlushExec
  split
  · rw [plan_respond]; exact h
  · exact ordered_planFlushFrom _ h

theorem ordered_opSkip (r : Request) (h : PlanOrdered s.plan) : PlanOrdered (opSkipExec r s).plan := by
  unfold opSkipExec
  split
  · rw [plan_respond]; exact h
  · split
    · rw [plan_respond]; exact h
    · exact ordered_planRemove _ h

theorem quiet_modeRequest (c : Nat) (s : State) : quiet (modeRequest c s).2 = quiet s := by
  unfold modeRequest
  split
  · unfold requestGuard; split
    · split
      · rw [quiet_report, quiet_setMode]
      · rfl
    · rfl
    · rw [quiet_report, quiet_setMode]
    · rfl
  · unfold requestLay; split
    · split
      · rw [quiet_setMode]
      · rfl
    all_goals rfl
  · exact quiet_toStandby s
  · unfold requestHold; split
    · rfl
    all_goals exact quiet_raiseRequest s
  · unfold requestResume; split
    · split
      · rfl
      · rw [quiet_setMode]; rfl
    all_goals rfl
  · unfold requestRecover; split
    · split
      · rw [quiet_takeCauses, quiet_setMode]; rfl
      · rfl
    all_goals rfl

theorem plan_opMode (r : Request) (l : Nat) (s : State) : (opModeExec r l s).plan = s.plan := by
  have h := plan_of_quiet (quiet_modeRequest (field r.data 0 1) s)
  unfold opModeExec
  dsimp only
  generalize (if field r.data 0 1 = 6 then 0 else 1) = q
  split
  · rw [plan_respond]
  · split
    · rw [plan_respond]
    · rw [plan_respond]; exact h

theorem plan_opSuspend (r : Request) (l : Nat) (on : Bool) (s : State) : (opSuspendExec r l on s).plan = s.plan := by
  unfold opSuspendExec suspendPoisoned
  dsimp only
  split
  · rw [plan_respond]
  · split
    · rw [plan_respond]
    · split <;> rename_i heq <;> have h1 := plan_of_quiet (quiet_readPart_of heq)
      · rw [plan_respond]; exact h1
      · split
        · rw [plan_respond]; exact h1
        · split <;> rw [plan_respond]
          · exact h1
          · exact h1

theorem ordered_opStation (r : Request) (h : PlanOrdered s.plan) : PlanOrdered (opStationExec r s).plan := by
  unfold opStationExec
  dsimp only
  split
  · rw [plan_respond]; exact h
  · split
    · rw [plan_respond]
      unfold retry
      dsimp only
      split
      · exact h
      · split <;> exact h
      · split <;> exact h
      · split <;> exact h
    · split
      · unfold discardAnswer
        split
        · exact h
        · exact h
        · exact ordered_discard _ _ h
      · rw [plan_respond]; exact h

/-! ### Writes leave the plan store alone -/

theorem plan_readForMerge (k : Nat) (mask : Half) (d : Part) (s : State) :
    (readForMerge k mask d s).2.plan = s.plan := by
  unfold readForMerge
  split
  · rfl
  · split <;> exact plan_of_quiet (quiet_readPart_of (by assumption))

theorem plan_readForMerge_of {k : Nat} {mask : Half} {d : Part} {p : Option Part}
    (e : readForMerge k mask d s = (p, t)) : t.plan = s.plan := by
  have := plan_readForMerge k mask d s
  rwa [e] at this

theorem plan_storeMerged (r : Request) (k : Nat) (d : Part) (f : State → State)
    (hf : ∀ t : State, (f t).plan = t.plan) (s : State) : (storeMerged r k d f s).plan = s.plan := by
  unfold storeMerged
  split
  · rfl
  · rw [hf]
    unfold storeAccepted storePart
    dsimp only
    rw [State.setGuard_plan, State.setMgmt_plan, State.setMem_plan]

theorem plan_writeOrigin (r : Request) (l : Nat) (s : State) : (writeOriginTable r l s).plan = s.plan := by
  unfold writeOriginTable
  dsimp only
  split
  · rw [plan_respond]
  · split
    · rw [plan_respond]
    · split <;> rename_i heq <;> have h1 := plan_readForMerge_of heq
      · rw [plan_respond]; exact h1
      · split <;> rw [plan_respond]
        · rw [plan_storeMerged _ _ _ id fun _ => rfl]; exact h1
        · exact h1

theorem plan_lineOf (s : State) : (reachStale s).plan = s.plan ∧ (reachLost s).plan = s.plan := by
  constructor
  · unfold reachStale
    split
    · exact plan_of_quiet (quiet_enterStale s)
    · rfl
  · unfold reachLost
    split
    · exact plan_of_quiet (quiet_enterLost 1 s)
    · rfl

theorem plan_loopFeed (n : Nat) (x : Half) (b : Bool) (s : State) : (loopFeed n x b s).plan = s.plan := by
  unfold loopFeed
  split
  · exact plan_of_quiet (quiet_takeBytes _ _)
  · rfl

theorem plan_loopCatchUp (s : State) : (loopCatchUp s).plan = s.plan := by
  unfold loopCatchUp
  split
  · exact plan_loopFeed _ _ _ _
  · rfl

theorem plan_settingsChanged (s : State) : (settingsChanged s).plan = s.plan := plan_of_quiet (quiet_abandonFrame s)

theorem plan_abandon (s : State) : (abandonSending (abandonFrame s)).plan = s.plan :=
  plan_of_quiet (quiet_abandonFrame s)

theorem plan_loopSet (s : State) : (loopSet s).plan = s.plan := by
  unfold loopSet
  dsimp only
  rw [plan_of_quiet (quiet_enterLost _ _), plan_of_quiet (quiet_frameDue _ _), State.setLine_plan, plan_abandon]

theorem plan_loopCleared (s : State) : (loopCleared s).plan = s.plan := by
  unfold loopCleared
  rw [plan_of_quiet (quiet_refreshTx _), plan_abandon]

theorem plan_recomputeExpiries (s : State) : (recomputeExpiries s).plan = s.plan := by
  unfold recomputeExpiries
  split
  · rfl
  · rw [(plan_lineOf _).2, (plan_lineOf _).1]; rfl

theorem plan_lineEffects (p : Params) (s : State) : (lineEffects p s).plan = s.plan := by
  have h1 : (if settingsDiffer p s.params then settingsChanged s else s).plan = s.plan := by
    split
    · exact plan_settingsChanged s
    · rfl
  unfold lineEffects
  dsimp only
  generalize (if settingsDiffer p s.params then settingsChanged s else s) = t at h1 ⊢
  have h2 : (if (p.trkLoop == s.params.trkLoop) = true then t
      else if s.params.trkLoop = true then loopSet t else loopCleared t).plan = s.plan := by
    split
    · exact h1
    · split
      · rw [plan_loopSet]; exact h1
      · rw [plan_loopCleared]; exact h1
  split
  · rw [plan_recomputeExpiries]; exact h2
  · exact h2

theorem plan_reachOpenTime (k : Nat) (s : State) : (reachOpenTime k s).plan = s.plan := by
  unfold reachOpenTime
  split
  · split <;> rfl
  · rfl

theorem plan_fold {α : Type} (f : State → α → State) (hf : ∀ t a, (f t a).plan = t.plan) (l : List α) (s : State) :
    (l.foldl f s).plan = s.plan := by
  induction l generalizing s with
  | nil => rfl
  | cons a l ih => exact (ih _).trans (hf _ _)

theorem plan_reachOpenTimesOf (l : List Ticket) (s : State) : (reachOpenTimesOf l s).plan = s.plan :=
  plan_fold _ (fun _ _ => plan_reachOpenTime _ _) _ _

theorem plan_reachOpenTimes (s : State) : (reachOpenTimes s).plan = s.plan := plan_reachOpenTimesOf _ s

theorem plan_paramEffects (p : Nat) (v : Params) (s : State) : (paramEffects p v s).plan = s.plan := by
  unfold paramEffects
  split
  · exact plan_reachOpenTimes s
  · exact plan_lineEffects v s
  · unfold guardEffects
    split
    · rfl
    · split
      · exact plan_of_quiet (quiet_evalTerm _ _)
      · exact plan_of_quiet (quiet_report _)
  · rfl

theorem plan_acceptParam (p : Nat) (v : Params) (s : State) : (acceptParam p v s).plan = s.plan := by
  unfold acceptParam storePart
  dsimp only
  rw [plan_paramEffects, State.setMem_plan, State.setParams_plan]
  split
  · exact plan_loopCatchUp s
  · rfl

theorem plan_writeParam (r : Request) (l : Nat) (s : State) : (writeParamTable r l s).plan = s.plan := by
  unfold writeParamTable
  dsimp only
  generalize (if r.part.toNat = 4 then 0 else 1) = q
  split
  · split
    · rw [plan_respond]
    · split
      · rw [plan_respond]
      · unfold writeParamPart
        split <;> rename_i heq <;> have h1 := plan_readForMerge_of heq
        · rw [plan_respond]; exact h1
        · dsimp only
          rw [plan_respond]
          split
          · exact h1
          · rw [plan_acceptParam]; exact h1
  · split
    · rw [plan_respond]
    · split <;> rw [plan_respond]

theorem plan_axisAccepted (i : Nat) (e : AxisRec) (s : State) : (axisAccepted i e s).plan = s.plan := by
  unfold axisAccepted
  dsimp only
  split <;> rw [plan_of_quiet (quiet_evalTerms _ _)] <;> rfl

theorem plan_writeAxis (r : Request) (l : Nat) (s : State) : (writeAxisTable r l s).plan = s.plan := by
  unfold writeAxisTable
  dsimp only
  split
  · rw [plan_respond]
  · split
    · rw [plan_respond]
    · split
      · rw [plan_respond]
      · split <;> rename_i heq <;> have h1 := plan_readForMerge_of heq
        · rw [plan_respond]; exact h1
        · split <;> rw [plan_respond]
          · rw [plan_storeMerged _ _ _ _ fun _ => plan_axisAccepted _ _ _]; exact h1
          · exact h1

theorem plan_termLevelOk (i l : Nat) (zs : List Nat) (s : State) : (termLevelOk i l zs s).2.plan = s.plan := by
  induction zs generalizing s with
  | nil => rfl
  | cons z zs ih =>
    have h := plan_of_quiet (quiet_readPart (zonePart z 0) s)
    simp only [termLevelOk]
    split <;> exact (ih _).trans h

theorem plan_writeTerm (r : Request) (l : Nat) (s : State) : (writeTermTable r l s).plan = s.plan := by
  have h0 := plan_termLevelOk r.index.toNat l (List.range 64) s
  unfold writeTermTable
  dsimp only
  split
  · rw [plan_respond]
  · split
    · rw [plan_respond]
    · split <;> rename_i heq <;> rw [heq] at h0
      · rw [plan_respond]; exact h0
      · split <;> rename_i heq2 <;> have h1 := (plan_readForMerge_of heq2).trans h0
        · rw [plan_respond]; exact h1
        · split <;> rw [plan_respond]
          · rw [plan_storeMerged _ _ _ _ fun _ => plan_of_quiet (quiet_evalTerm _ _)]; exact h1
          · exact h1

theorem plan_readStored (k : Nat) (mask : Half) (s : State) : (readStored k mask s).2.plan = s.plan :=
  plan_of_quiet (quiet_readStored k mask s)

theorem plan_readZero (r : Request) (s : State) : (readZero r s).2.plan = s.plan := plan_readStored _ _ s

theorem plan_zoneMerged (r : Request) (p : Option Part) (s : State) : (zoneMerged r p s).2.plan = s.plan := by
  unfold zoneMerged
  split
  · exact plan_of_quiet (quiet_readPart _ _)
  · exact plan_readForMerge _ _ _ _

theorem plan_writeZoneMerged (r : Request) (l : Nat) (p : Option Part) (s : State) :
    (writeZoneMerged r l p s).plan = s.plan := by
  have h := plan_zoneMerged r p s
  unfold writeZoneMerged
  split <;> rename_i heq <;> rw [heq] at h
  · rw [plan_respond]; exact h
  · dsimp only
    split
    · rw [plan_respond]; exact h
    · split <;> rw [plan_respond]
      · exact h
      · rw [plan_storeMerged _ _ _ _ fun _ => plan_of_quiet (quiet_report _)]; exact h

theorem plan_writeZone (r : Request) (l : Nat) (s : State) : (writeZoneTable r l s).plan = s.plan := by
  have h := plan_readZero r s
  unfold writeZoneTable
  split
  · rw [plan_respond]
  · split
    rename_i heq
    rw [heq] at h
    split
    · rw [plan_writeZoneMerged]; exact h
    · rw [plan_respond]; exact h

theorem plan_writeCourseMerged (r : Request) (d o z : Option Part) (s : State) :
    (writeCourseMerged r d o z s).plan = s.plan := by
  unfold writeCourseMerged
  split
  · rw [plan_respond]
  · split
    · rw [plan_respond]
    · split
      · rw [plan_respond]
      · split <;> rw [plan_respond]
        rw [plan_storeMerged _ _ _ id fun _ => rfl]

theorem plan_writeCourse (r : Request) (l : Nat) (s : State) : (writeCourseTable r l s).plan = s.plan := by
  unfold writeCourseTable
  dsimp only
  split
  · rw [plan_respond]
  · split
    · rw [plan_respond]
    · split
      · rw [plan_writeCourseMerged, plan_of_quiet (quiet_readPart _ _), plan_readStored]
      · rw [plan_writeCourseMerged, plan_of_quiet (quiet_readPart _ _), plan_readForMerge]

theorem plan_opWrite (r : Request) (l : Nat) (s : State) : (opWriteExec r l s).plan = s.plan := by
  unfold opWriteExec
  split
  · exact plan_writeOrigin _ _ _
  · exact plan_writeParam _ _ _
  · exact plan_writeAxis _ _ _
  · exact plan_writeTerm _ _ _
  · exact plan_writeZone _ _ _
  · exact plan_writeCourse _ _ _

/-! ### Every operation and every cell -/

theorem ordered_ite {a b : State} {q : Prop} [Decidable q] (ha : PlanOrdered a.plan) (hb : PlanOrdered b.plan) :
    PlanOrdered (if q then a else b).plan := by
  by_cases h : q
  · rw [if_pos h]; exact ha
  · rw [if_neg h]; exact hb

theorem ordered_respond (r : Request) (c : ReplyCode) (h : PlanOrdered s.plan) : PlanOrdered (respond r c s).plan :=
  (plan_respond r c s).symm ▸ h

theorem ordered_perform (r : Request) (l : Nat) (h : PlanOrdered s.plan) : PlanOrdered (perform r l s).plan := by
  unfold perform
  refine ordered_ite (plan_opRead r s ▸ h) ?_
  refine ordered_ite (plan_opWrite r l s ▸ h) ?_
  refine ordered_ite (plan_opProbe r l s ▸ h) ?_
  refine ordered_ite (plan_opScan r s ▸ h) ?_
  refine ordered_ite (ordered_opAppend r h) ?_
  refine ordered_ite (ordered_opFlush r h) ?_
  refine ordered_ite (ordered_opSkip r h) ?_
  refine ordered_ite (plan_opMode r l s ▸ h) ?_
  refine ordered_ite (plan_opSuspend r l true s ▸ h) ?_
  refine ordered_ite (plan_opSuspend r l false s ▸ h) ?_
  refine ordered_ite (ordered_respond _ _ h) ?_
  refine ordered_ite (ordered_opStation r h) ?_
  exact ordered_ite (ordered_respond _ _ (ordered_restart h)) PlanOrdered.initial

theorem ordered_manage (r : Request) (h : PlanOrdered s.plan) : PlanOrdered (manage r s).plan := by
  unfold manage
  split
  · have ho := plan_readOrigins r.src (List.range 8) s
    unfold originLevel
    split <;> rename_i heq <;> rw [heq] at ho
    · exact ordered_respond _ _ (ho ▸ h)
    · unfold judgeRequest
      refine ordered_ite (ordered_respond _ _ (ho ▸ h)) ?_
      refine ordered_ite (ordered_respond _ _ (ho ▸ h)) ?_
      refine ordered_ite (ordered_respond _ _ (ho ▸ h)) ?_
      exact ordered_ite (ordered_respond _ _ (ho ▸ h)) (ordered_perform _ _ (ho ▸ h))
  · exact h

theorem plan_keepUnsent (s t : State) : (keepUnsent s t).plan = t.plan := by
  unfold keepUnsent; split <;> rfl

theorem plan_enqueue (p : Port) (c : Cell) (s : State) : (enqueue p c s).plan = s.plan := by
  unfold enqueue; dsimp only; split <;> rfl

theorem plan_enqueueFill (p : Port) (c : Cell) (s : State) : (enqueueFill p c s).plan = s.plan := by
  unfold enqueueFill
  split
  · exact plan_enqueue _ _ _
  · rfl

theorem plan_conditionSet (c : Cell) (s : State) : (conditionSet c s).2.plan = s.plan := by
  have hc : ∀ i, (conditionCoarse i c s).2.plan = s.plan := by
    intro i
    unfold conditionCoarse
    split
    · rfl
    · have h := plan_of_quiet (quiet_readAxis i s)
      split <;> rename_i heq <;> rw [heq] at h
      · exact h
      · split
        · exact h
        · unfold forwardLimited; split <;> exact h
  have hf : ∀ r i, (fillFine r i c s).2.plan = s.plan := by intro r i; unfold fillFine; split <;> rfl
  have hst : ∀ r i, (fillStation r i c s).2.plan = s.plan := by intro r i; unfold fillStation; split <;> rfl
  unfold conditionSet
  split
  · rfl
  · split <;> first | exact hc _ | exact hf _ _ | exact hst _ _ | rfl

theorem plan_appendOwn (s : State) : (appendOwn s).plan = s.plan := by
  unfold appendOwn
  dsimp only
  split
  · exact plan_fold (fun t c => enqueue .up c t) (fun _ _ => plan_enqueue _ _ _) _ _
  · rfl

/-- The arrival of a cell keeps the plan queue in lay number order. -/
theorem ordered_receive (p : Port) (c : Cell) (h : PlanOrdered s.plan) : PlanOrdered (receive p c s).plan := by
  unfold receive
  dsimp only
  generalize ht : s.setRing (s.ring.setRx p ((s.ring.rx p).receive (isGood c) s.clock.us)) = t
  have h1 : PlanOrdered t.plan := by rw [← ht]; exact h
  split
  · split
    · cases p
      · show PlanOrdered (passUp c t).plan
        unfold passUp passTrain passSet
        refine ordered_ite ?_ (ordered_ite ?_ (ordered_ite (ordered_ite ?_ ?_) (ordered_ite ?_ (ordered_ite ?_ ?_))))
        · rw [plan_enqueue]; exact ordered_ite h1 (ordered_outboundTrain _ _ h1)
        · dsimp only; rw [plan_enqueue, plan_keepUnsent, plan_conditionSet]; exact h1
        · exact ordered_manage _ h1
        · rw [plan_enqueue]; exact h1
        · rw [plan_enqueue, plan_outboundEnd]; exact h1
        · rw [plan_enqueueFill]; exact h1
        · rw [plan_enqueue]; exact h1
      · show PlanOrdered (passDown c t).plan
        unfold passDown
        refine ordered_ite ?_ (ordered_ite ?_ (ordered_ite ?_ ?_))
        · rw [plan_enqueue]; exact ordered_captureCell _ h1
        · rw [plan_enqueue, plan_appendOwn]; exact h1
        · rw [plan_enqueueFill]; exact h1
        · rw [plan_enqueue]; exact h1
    · unfold enqueueVoid; rw [plan_enqueue]; exact h1
  · exact h1

/-! ### Time and the tracker line -/

theorem plan_reachStation (st : Station) (s : State) : (reachStation st s).plan = s.plan := by
  unfold reachStation
  dsimp only
  split
  · split <;> rfl
  · rfl

theorem plan_reachSettle (s : State) : (reachSettle s).plan = s.plan := by
  unfold reachSettle
  dsimp only
  split
  · split <;> rfl
  · rfl

theorem plan_reachWatchdog (s : State) : (reachWatchdog s).plan = s.plan := by
  unfold reachWatchdog
  dsimp only
  split
  · rw [plan_of_quiet (quiet_raiseStarved _)]; split <;> rfl
  · rfl

theorem plan_reachActivity (p : Port) (s : State) : (reachActivity p s).plan = s.plan := by
  unfold reachActivity; split <;> rfl

theorem plan_detectBreak (s : State) : (detectBreak s).plan = s.plan := by
  unfold detectBreak
  dsimp only
  split
  · rfl
  · rw [plan_of_quiet (quiet_enterLost _ _), plan_of_quiet (quiet_countLine _ _), plan_of_quiet (quiet_abandonFrame _)]
    rfl

theorem plan_setReady (a : Bool) (s : State) : (setReady a s).plan = s.plan := by
  unfold setReady
  dsimp only
  split
  · rfl
  · split
    · rfl
    · rw [plan_of_quiet (quiet_enterLost _ _)]; rfl

theorem plan_reachReacquire (s : State) : (reachReacquire s).plan = s.plan := by
  unfold reachReacquire
  split
  · exact plan_of_quiet (quiet_frameDue _ _)
  · rfl

theorem plan_reachSent (s : State) : (reachSent s).plan = s.plan := by
  unfold reachSent
  split
  · exact plan_loopFeed _ _ _ _
  · rfl

theorem plan_reachBreak (s : State) : (reachBreak s).plan = s.plan := by
  unfold reachBreak
  split
  · split
    · rw [plan_detectBreak]; rfl
    · rfl
  · rfl

/-- The passing of a microsecond leaves the plan store alone. -/
theorem plan_tick (s : State) : (tick s).plan = s.plan := by
  unfold tick runDue reachStations
  dsimp only
  rw [State.setClock_plan, plan_reachReacquire, plan_reachSent, plan_loopCatchUp, plan_reachBreak, (plan_lineOf _).2,
    (plan_lineOf _).1, plan_reachSettle, plan_reachOpenTimes, plan_fold _ (fun _ _ => plan_reachStation _ _),
    plan_reachWatchdog, plan_reachActivity, plan_reachActivity]

end Sys2Proof.Machine
end

