-- ==== Sys2Proof/WellFormed.lean ====
section
/-! DEFINITION. Which terms of `Instr` stand for an event the manual knows. The operands' types carry most of it; what
is left is checked here: the header of an outbound TRAIN, the tables without a WRITE row of their own, the codes no
operation has, and the places of table memory. -/

namespace Sys2Proof

/-- R140: the TRAIN cell of an outbound arrival has RETURN, bit 0 of its flags, clear. -/
def wfTrainFlags (flags : Byte) : Bool := flags.getLsbD 0 == false

/-- R165: the tables whose WRITE has a row of its own are ORIGIN 1 to COURSE 6; the row WRITE is for the others. -/
def wfOtherTable (table : BitVec 4) : Bool := table.toNat == 0 || 7 ≤ table.toNat

/-- R164: the operation codes the part knows are 1 to 14 (section 12.2). -/
def wfUnknownCode (op : Byte) : Bool := op.toNat == 0 || 15 ≤ op.toNat

/-- Section 10.8: table memory has 4,814 parts of two words, each of 64 data and 8 check bits. -/
def wfBit (part word bit : Nat) : Bool := part < 4814 && word < 2 && bit < 72

/-- R177: the second flipped bit, if any, is another bit of the same word. -/
def wfSecondBit (bit : Nat) : Option Nat → Bool
  | none => true
  | some b => b < 72 && b != bit

/-- The well-formed commands. -/
def WellFormed : Instr → Bool
  | .powerOnReset _ _ _ _ => true
  | .cellReceive _ _ => true
  | .lineActivityTimeout _ => true
  | .cellTransmit _ => true
  | .outboundTrainArrival _ _ flags _ _ _ => wfTrainFlags flags
  | .outboundEndArrival _ _ _ _ => true
  | .coarseSet _ _ _ _ _ _ _ _ => true
  | .fineSet _ _ _ _ _ => true
  | .stationSet _ _ _ _ _ => true
  | .fbkCapture _ _ _ _ _ _ _ _ _ _ => true
  | .feedOneDone _ _ _ _ => true
  | .cutDone _ _ _ _ => true
  | .ejectDone _ _ _ _ => true
  | .glueDone _ _ _ _ => true
  | .loadDone _ _ _ _ => true
  | .deliverDone _ _ _ _ => true
  | .handoverDone _ _ _ _ => true
  | .dropDone _ _ _ _ => true
  | .openDone _ _ _ _ => true
  | .returnEndArrival _ _ _ _ => true
  | .trainWatchdogExpiry => true
  | .stationTimeout _ => true
  | .openTimeExpiry _ => true
  | .placeTimeout => true
  | .characterReceive _ _ _ => true
  | .sampleFrameComplete _ _ _ _ _ _ _ _ _ _ => true
  | .loopFrame _ _ => true
  | .lineBreak => true
  | .lineBreakEnd => true
  | .trkReadyChange _ => true
  | .staleExpiry => true
  | .lostExpiry => true
  | .reacquireDue => true
  | .reacquireSent => true
  | .read _ _ _ _ => true
  | .write _ table _ _ _ _ => wfOtherTable table
  | .writeOrigin _ _ _ _ _ => true
  | .writeParam _ _ _ _ _ => true
  | .applySettings _ _ _ _ => true
  | .trkLoopSet _ _ _ _ => true
  | .trkLoopClear _ _ _ _ => true
  | .writeAxis _ _ _ _ _ => true
  | .writeTerm _ _ _ _ _ => true
  | .writeZone _ _ _ _ _ => true
  | .writeCourse _ _ _ _ _ => true
  | .probe _ _ _ => true
  | .scan _ _ _ _ _ _ => true
  | .planAppend _ _ => true
  | .planFlush _ _ => true
  | .skip _ _ => true
  | .modeGuard _ => true
  | .modeLay _ => true
  | .modeStandby _ => true
  | .modeHold _ => true
  | .resume _ => true
  | .recover _ => true
  | .suspend _ _ => true
  | .restore _ _ => true
  | .clearFaults _ => true
  | .stationRetry _ _ => true
  | .stationDiscard _ _ => true
  | .restart _ => true
  | .ringReset _ => true
  | .unknownOp _ op _ _ _ _ => wfUnknownCode op
  | .tableMemoryError part word bit second => wfBit part word bit && wfSecondBit bit second

end Sys2Proof
end

