-- ==== Sys2Proof/Tests/Slice0.lean ====
section
/-! SUPPORT. The model's own tests: the well-formedness checks, small steps whose results are worked out by hand from spec/, and,
for every statement with hypotheses, a witness that meets them, clause by clause, at a boundary value where a clause has one. A
hypothesis that only names a value (`l = …`, `valid ↔ …`) is met by taking it so and is left out, or stands with its truth value. -/

namespace Sys2Proof.Tests

open Sys2Proof Sys2Proof.Machine

set_option Elab.async false

/-! ### States -/

/-- Both ports SYNCED; origins at addresses 2, 3 and 4 with levels 0, 1 and 2. -/
def live : State :=
  let s := State.reset
  { s with
    ring := { s.ring with up := { s.ring.up with sync := .synced }, down := { s.ring.down with sync := .synced } }
    mem := { cells := [(0, 1), (1, 2), (16, 1), (17, 3), (18, 1), (32, 1), (33, 4), (34, 2)] ++ paramCells, flips := [] } }

def w0 : Sender := { src := 2, tag := 1, level := 0 }
def w1 : Sender := { src := 3, tag := 1, level := 1 }
def w2 : Sender := { src := 4, tag := 1, level := 2 }

def inMode (m : Mode) (s : State) : State := s.setCtl { s.ctl with mode := m, holdN := m.held }
def tracked (t : TrackState) (s : State) : State := s.setLine { s.line with state := t }
def withPart (n : Nat) (d : Part) (s : State) : State := storePart n d s
def withEntry (i : Nat) (a : Byte) (r : Role) (s : State) : State :=
  s.setAxis { s.axis with index := s.axis.index.setIfInBounds i (some { addr := a, role := r }) }

/-- A queue that is full. -/
def full : PortTx := { queue := List.replicate 64 (fillCell 1), line := none }

/-- What `Heard` asks for, as a computation. -/
def heardB (s : State) (who : Sender) (level : Nat) : Bool :=
  decide ((s.ring.rx .up).sync = .synced) && decide (s.ring.ownAddr ≠ 0) && decide (s.mgmt.replies.length ≤ 14) &&
    (List.range 8).all (fun i => wordFlips s.mem.flips (2 * i) == [] && wordFlips s.mem.flips (2 * i + 1) == [] &&
      !partMarked s i) && decide (who.level.toNat ≤ 2) &&
    (match originOf s who.src with | some l => decide (level = max l who.level.toNat) | none => false)

theorem heard_of {s : State} {who : Sender} {level : Nat} (h : heardB s who level = true) : Heard s who level := by
  simp only [heardB, Bool.and_eq_true, decide_eq_true_eq, List.all_eq_true, List.mem_range, beq_iff_eq,
    Bool.not_eq_true'] at h
  obtain ⟨⟨⟨⟨⟨h1, h2⟩, h3⟩, h4⟩, h5⟩, h6⟩ := h
  refine ⟨h1, h2, h3, fun i hi => ⟨(h4 i hi).1.1, (h4 i hi).1.2, (h4 i hi).2⟩, h5, ?_⟩
  cases ho : originOf s who.src with
  | none => simp [ho] at h6
  | some l => exact ⟨l, rfl, by simpa [ho] using h6⟩

/-- Several senders heard, several memories canonical, several states with every part clean, by one computation each. -/
theorem heard_all {l : List (State × Sender × Nat)} (h : l.all (fun x => heardB x.1 x.2.1 x.2.2) = true) :
    ∀ x ∈ l, Heard x.1 x.2.1 x.2.2 := fun x hx => heard_of (List.all_eq_true.mp h x hx)

def canonicalB (s : State) : Bool := Memory.wf s.mem.cells && setWf s.mem.flips

theorem canonical_all {l : List State} (h : l.all canonicalB = true) : ∀ s ∈ l, MemoryCanonical s := fun s hs => by
  simpa [canonicalB, MemoryCanonical] using List.all_eq_true.mp h s hs

def cleanB (s : State) : Bool := s.mem.flips == [] && s.mgmt.unreadable == [] && s.guard.poisoned == []

theorem clean_all {l : List State} (h : l.all cleanB = true) : ∀ s ∈ l, TableClean s ∧ ∀ n, PartClean s n := fun s hs => by
  have h := List.all_eq_true.mp h s hs
  simp only [cleanB, Bool.and_eq_true, beq_iff_eq] at h
  obtain ⟨⟨h1, h2⟩, h3⟩ := h
  exact ⟨⟨h1, h2, h3⟩, fun n => ⟨by rw [h1]; rfl, by rw [h1]; rfl, by simp [partMarked, h2, h3]⟩⟩

/-- Two flipped bits of a part, as a computation. -/
def twoBitsB (s : State) (n : Nat) : Bool :=
  !partMarked s n && (wordFlips s.mem.flips (2 * n)).length == 2 && wordFlips s.mem.flips (2 * n + 1) == []

theorem twoBits_all {l : List (State × Nat)} (h : l.all (fun x => twoBitsB x.1 x.2) = true) : ∀ x ∈ l, TwoBits x.1 x.2 :=
  fun x hx => by
    have h := List.all_eq_true.mp h x hx
    simp only [twoBitsB, Bool.and_eq_true, beq_iff_eq, Bool.not_eq_true'] at h
    obtain ⟨⟨h1, h2⟩, h3⟩ := h
    exact ⟨h1, List.length_eq_two.mp h2, h3⟩

/-! ### Well-formedness: each check refuses an ill-formed command -/

theorem test_wf_train_return :
    WellFormed (.outboundTrainArrival 0 0 1 0 0 0) = false ∧ WellFormed (.outboundTrainArrival 0 0 2 0 0 0) = true := by decide
theorem test_wf_write_table : WellFormed (.write w0 5 0 0 0 0) = false ∧ WellFormed (.write w0 7 0 0 0 0) = true := by decide
theorem test_wf_unknown_op :
    WellFormed (.unknownOp w0 14 0 0 0 0) = false ∧ WellFormed (.unknownOp w0 15 0 0 0 0) = true := by decide
theorem test_wf_memory_error :
    WellFormed (.tableMemoryError 4814 0 0 none) = false ∧ WellFormed (.tableMemoryError 0 2 0 none) = false ∧
    WellFormed (.tableMemoryError 0 0 72 none) = false ∧ WellFormed (.tableMemoryError 4813 1 71 none) = true := by decide
theorem test_wf_second_bit :
    WellFormed (.tableMemoryError 0 0 5 (some 5)) = false ∧ WellFormed (.tableMemoryError 0 0 5 (some 72)) = false ∧
    WellFormed (.tableMemoryError 0 0 5 (some 71)) = true := by decide

/-- The table gives its rows no bits. -/
theorem test_decode_none : decodeTableWord 0 0 = none ∧ decodeTableWord 256 1 = none := by decide
theorem test_fetch_unchanged : State.withFetchWord live 8 3 = live := by decide +kernel

/-! ### Small steps, worked out by hand from spec/ -/

/-- R134: the CRC-32 register after the 72 bits of the text "123456789" gives the check value of this CRC, 0xCBF43926. -/
theorem test_crc32 : ~~~ (crc32Run 0x393837363534333231 72) = 0xCBF43926#32 := by decide +kernel

/-- R90: the CRC-16 of polynomial 0x1021 with initial value 0xFFFF gives 0x29B1 for "123456789". -/
theorem test_crc16 : crc16 [0x31, 0x32, 0x33, 0x34, 0x35, 0x36, 0x37, 0x38, 0x39] = 0x29B1#16 := by decide +kernel

/-- R100: a 16-byte frame of 11-bit characters at 115,200 bit/s takes 1,528 µs. -/
theorem test_frame_time : charsTime 16 { Params.initial with rate := 0, parity := 1 } = 1528 := by decide

/-- R106: the smallest box of a zone is 15 µm; R27: 255 is followed by 1; 00_scope 4.2: 18,000 is kept, 18,001 wraps. -/
theorem test_small_rules : effectiveExtent false 0 = 15 ∧ effectiveExtent true 1 = 8191 ∧ nextNumber 255 = 1 ∧
    nextNumber 0 = 1 ∧ wrapYaw 18000 = 18000 ∧ wrapYaw 18001 = -17999 := by decide

/-- The worked cases of section 7.3: −30,000 against 10,000 is LT and HI, the mask 0x0102 on 0x0305 has a bit clear and one set. -/
theorem test_conditions : cmpFlags 35536 10000 = { n := false, z := false, v := true, c := false } ∧
    condition 7 35536 10000 = true ∧ condition 10 35536 10000 = true ∧ condition 6 35536 10000 = false ∧
    condition 1 0x0305 0x0102 = true ∧ condition 3 0x0305 0x0102 = true := by decide

/-- R9, R14: a reissued record enters after every lower lay number and before every higher one. -/
theorem test_insert : (insertByLay ⟨5, 0, false, 0, 1⟩ [⟨3, 0, false, 0, 2⟩, ⟨8, 0, false, 0, 3⟩]).map (·.lay) = [3, 5, 8] := by
  decide

/-- The next state of a command satisfies a test. -/
def gives (i : Instr) (s : State) (f : State → Bool) : Bool := match exec i s with | .next t => f t | _ => false

/-- R181: MODE LAY from STANDBY is refused, and MODE HOLD from GUARD enters HOLD. -/
theorem test_modes :
    gives (.modeLay w1) live (fun t => t.ctl.mode == .standby && t.mgmt.replies.map (·.code) == [.refusedMode]) = true ∧
    gives (.modeHold w1) (inMode .guard live) (fun t => t.ctl.mode == .hold && t.ctl.ret == some .guard && t.ctl.holdN) = true := by
  decide +kernel

/-- Every row of the opcode table runs on a part in operation: none faults, none is refused. -/
theorem test_every_row_runs :
    ([.powerOnReset 1 2 true true, .cellReceive .up (fillCell 3), .lineActivityTimeout .down, .cellTransmit .up,
      .outboundTrainArrival 127 2 0 7 1000 0, .outboundEndArrival 127 2 0 0, .coarseSet 10 2 0 5 6 0 0 0,
      .fineSet 11 2 0 ⟨0, true⟩ 0, .stationSet 12 2 0 0 0, .fbkCapture 127 10 0 1 2 3 4 5 6 0, .feedOneDone 20 1 true 0,
      .cutDone 21 1 true 0, .ejectDone 21 1 false 0, .glueDone 22 1 true 0, .loadDone 23 1 true 0, .deliverDone 23 1 true 0,
      .handoverDone 24 1 false 0, .dropDone 24 1 false 0, .openDone 25 1 false 0, .returnEndArrival 127 2 0 0,
      .trainWatchdogExpiry, .stationTimeout .saw, .openTimeExpiry 1, .placeTimeout, .characterReceive 0xB6 false true,
      .sampleFrameComplete 1 2 3 4 5 6 200 1 0 false, .loopFrame 0 false, .lineBreak, .lineBreakEnd, .trkReadyChange true,
      .staleExpiry, .lostExpiry, .reacquireDue, .reacquireSent, .read w2 1 0 0, .write w0 7 0 0 0 0, .writeOrigin w0 0 3 7 0x027E01,
      .writeParam w1 0 0 1 9, .applySettings w1 0 1 5, .trkLoopSet w1 0 0 0, .trkLoopClear w1 0 0 0, .writeAxis w1 0 3 0 0,
      .writeTerm w1 0 3 0 0, .writeZone w1 0 3 0 0, .writeCourse w1 0 3 0 0, .probe w2 5 3, .scan w2 5 0 64 1 1,
      .planAppend w1 0, .planFlush w1 1, .skip w1 0, .modeGuard w1, .modeLay w1, .modeStandby w1, .modeHold w1, .resume w1,
      .recover w0, .suspend w1 3, .restore w1 3, .clearFaults w1, .stationRetry w1 0, .stationDiscard w1 0, .restart w1,
      .ringReset w0, .unknownOp w2 99 0 0 0 0, .tableMemoryError 4813 1 71 none] : List Instr).all
      (fun i => WellFormed i && gives i live (fun _ => true)) = true := by decide +kernel

/-- R53: 30,000 less 500. -/
theorem test_descend : (({ Lay.initial with phase := .descend, oz := 30000 } : Lay).descend 500 0).oz = 29500 := by decide

/-! ### Witnesses: steps, resets, ports -/

theorem witness_front_command : (live.setPending [.lineBreak, .staleExpiry]).pending = .lineBreak :: [.staleExpiry] := rfl

/-- A plan of two waiting records and a bound one. -/
def planned : State := live.setPlan { live.plan with
  queue := [⟨5, 22, false, 2, 0⟩, ⟨7, 44, true, 3, 3⟩], bound := [⟨6, 22, 1, 1, ⟨1, 2, 3, 4⟩⟩], highest := 7
  refs := (live.plan.refs.setIfInBounds 22 2).setIfInBounds 44 1 }

def ticketAt (num : Half) (lay : Nat) (pos : Station) (st : TicketState) : Ticket :=
  { num := num, lay := lay, course := 22, strict := true, cut := true, glue := 3, length := 5000, reissue := 1, pos := pos, state := st
    reject := false, spoilt := false, purge := false, measured := none, glueTime := none, slow := false }

def inFlight (c : Cmd) : InFlight :=
  { cmd := c, num := 255, param := 3, ticket := 6, issued := 0, timeout := 100, timer := true }

/-- A released block at the gripper with room for one more as-laid record, and a block that the shuttle delivers. -/
def crewed : State :=
  ((planned.setPlan { planned.plan with
    bound := planned.plan.bound ++ [⟨8, 44, 0, 2, ⟨1, 2, 3, 4⟩⟩], refs := planned.plan.refs.setIfInBounds 44 2 }).setTrack
    { live.track with
      tickets := [ticketAt 1 6 .gripper .releasing, ticketAt 2 8 .shuttle .delivering]
      gripper := { lastNum := 255, inflight := some (inFlight .openJaws), stall := .none }
      shuttle := { lastNum := 255, inflight := some { inFlight .deliver with ticket := 8 }, stall := .none } }).setLay
    { live.lay with phase := .release, asLaid := List.replicate 63 (asLaidRecord (ticketAt 1 6 .gripper .held) false live.lay) }

theorem crewed_flights (st : Station) : (crewed.track.station st).inflight =
    match st with
    | .gripper => some (inFlight .openJaws)
    | .shuttle => some { inFlight .deliver with ticket := 8 }
    | _ => none := by cases st <;> rfl

theorem crewed_sound : TrackSound crewed where
  bound := rfl
  nine := by decide
  room st := by cases st <;> decide +kernel
  acting st fl h := by
    rw [crewed_flights] at h
    cases st <;> cases h
    · exact ⟨rfl, ticketAt 2 8 .shuttle .delivering, List.mem_cons_of_mem _ (List.mem_singleton_self _), rfl, rfl, rfl⟩
    · exact ⟨rfl, ticketAt 1 6 .gripper .releasing, List.mem_cons_self, rfl, rfl, rfl⟩
  ahead st fl dst h hd := by
    rw [crewed_flights] at h
    cases st <;> cases h <;> cases hd
    decide +kernel
  releasing k hk h := by
    rcases List.mem_pair.mp hk with rfl | rfl
    · exact ⟨inFlight .openJaws, rfl, rfl⟩
    · cases h
  held k hk h := by rcases List.mem_pair.mp hk with rfl | rfl <;> cases h
  laid := by decide +kernel
  due h := by cases h
  opening fl _ := ⟨rfl, by decide +kernel⟩

/-- A line found at space at the power-on reset, its break due. -/
def spaced : State := live.setLine { live.line with breakDue := some 0 }

/-- The loop test, one frame on the line and another behind it. -/
def looping : State := (live.setParams { live.params with trkLoop := true }).setLine { live.line with
  running := true, lastDue := some 0, sending := some { bytes := reacquireFrame none, begun := 0, fed := 0 }
  waiting := some (reacquireFrame (some ⟨1, 2, 3, 4⟩)) }

/-- Tickets apart, a break awaited or none, in the loop test too. -/
theorem witness_idle :
    (live.pending = [] ∧ live.clock.sub < 999 ∧
      (live.setClock { live.clock with sub := 999 }).pending = [] ∧ 999 ≤ (live.setClock { live.clock with sub := 999 }).clock.sub) ∧
    (crewed.pending = [] ∧ BreakAwaited crewed ∧ crewed.track.tickets.Pairwise (fun a b => a.num ≠ b.num)) ∧
    (spaced.pending = [] ∧ BreakAwaited spaced ∧ spaced.line.breakDue ≠ none ∧
      spaced.track.tickets = [] ∧ passed spaced spaced.line.breakDue = true) ∧
    (looping.pending = [] ∧ BreakAwaited looping ∧ looping.params.trkLoop = true ∧ looping.track.tickets = [] ∧
      looping.line.sending ≠ none) := by
  unfold BreakAwaited; decide +kernel

def aSample (tm : Word) : Sample :=
  { seq := 4, x := 0, y := 0, z := 0, w := 0, lat := 0, ta := tm, tm := tm, quality := 64, status := 1, used := false, reanchor := false }

/-- TRK_READY active, VALID, a sample at the origin at time 0. -/
def following : State := tracked .valid ((live.setPins { live.pins with trkReady := true }).setLine { live.line with
  cur := some (aSample 0), staleAt := some 4000, lostAt := some 50000 })

/-- A state without a cause, in LAY. -/
def quietly (s : State) : State := s.setCtl { s.ctl with mode := .lay, holdN := false, conditions := ⟨false, false, false, false⟩ }

theorem watched_of {s : State} (h : s.ctl.conditions = conditionsNow s ∧ s.ctl.conditions = ⟨false, false, false, false⟩ ∧
    s.guard.poisoned = [] ∧ s.ctl.recovery = false ∧ s.ctl.mode ≠ .hold ∧ s.ctl.ret = none) : Watched s where
  causes := h.1
  calm _ := h.2.1
  zones n hn := by rw [h.2.2.1] at hn; cases hn
  recovery hr := by rw [h.2.2.2.1] at hr; cases hr
  back hb := absurd hb h.2.2.2.2.1
  away _ := h.2.2.2.2.2

theorem witness_lawful_step : Lawful 16 live ∧ (∃ t, step live = .next t) ∧ Watched (quietly following) ∧
    (∃ t, step (quietly following) = .next t) ∧ (BreakAwaited spaced ∧ ∃ t, step spaced = .next t) :=
  ⟨⟨by unfold HoldLine; decide, by decide, by unfold QueuesBounded; decide, canonical_all (l := [live]) (by decide +kernel) _ List.mem_cons_self⟩,
   ⟨_, rfl⟩, watched_of (by decide +kernel), ⟨_, rfl⟩, by unfold BreakAwaited; decide +kernel, _, rfl⟩

theorem witness_plan_order : PlanOrdered crewed.plan ∧ RefsCounted crewed.plan ∧ TrackSound crewed ∧ ∃ t, step crewed = .next t :=
  ⟨⟨by unfold layRising; decide, by decide, by decide⟩, by unfold RefsCounted; decide +kernel, crewed_sound, _, rfl⟩

/-- A bad cell: the CRC of a FILL cell with its lowest bit inverted. -/
def badCell : Cell := { fillCell 9 with crc := (fillCell 9).crc ^^^ 1 }

def hunting : State := live.setRing { live.ring with up := { live.ring.up with sync := .hunting, goodRun := 7 } }

theorem witness_sync_state :
    (Synced .up live ∧ isGood badCell = false ∧ (live.ring.rx .up).badRun < 3 ∧ HasPlace .down live) ∧
    ¬ HasPlace .down (live.setRing { live.ring with txDown := full }) ∧
    (isGood (fillCell 9) = true ∧ (fillCell 9).kind ≠ 0x20) ∧
    (Synced .up (live.setRing { live.ring with up := { live.ring.up with badRun := 3 } }) ∧ isGood badCell = false) ∧
    (¬ Synced .down State.reset ∧ (State.reset.ring.rx .down).goodRun < 7) ∧
    (¬ Synced .up hunting ∧ 7 ≤ (hunting.ring.rx .up).goodRun) := by
  simp only [Synced, HasPlace]; decide +kernel

/-- A cell of a kind that no port reads. -/
def strange : Cell := goodCell 5 6 0x7E 1 99

/-- At UP an FBK cell, a returning TRAIN and an MGT cell for node 5 (the part's address is 1), at DOWN a TRAIN, SET and MGT cell. -/
theorem witness_unread_cell :
    (Synced .up live ∧ Synced .down live ∧ isGood strange = true ∧ strange.kind ≠ 0x01 ∧ strange.kind ≠ 0x02 ∧ strange.kind ≠ 0x0F ∧
      strange.kind ≠ 0x10 ∧ strange.kind ≠ 0x11 ∧ strange.kind ≠ 0x20 ∧ HasPlace .down live) ∧
    (isGood (goodCell 5 6 0x11 0 0) = true ∧ isGood (goodCell 5 6 0x01 1 0) = true ∧ (goodCell 5 6 0x01 1 0).flags.getLsbD 0 = true ∧
      isGood (goodCell 5 6 0x20 0 0) = true ∧ (goodCell 5 6 0x20 0 0).dst ≠ live.ring.ownAddr ∧ isGood (goodCell 5 6 0x10 0 0) = true) ∧
    ¬ HasPlace .down (live.setRing { live.ring with txDown := full }) ∧
    (isGood (fillCell 9) = true ∧ (fillCell 9).kind = 0x0F ∧ (live.ring.tx .down).queue = []) ∧
    ((live.setRing { live.ring with txDown := full }).ring.tx .down).queue ≠ [] := by
  simp only [Synced, HasPlace]; decide +kernel

theorem witness_silence : (live.ring.rx .up).activity = some 0 ∧
    1000 ≤ ((live.setClock { live.clock with us := 1000 }).clock.us - 0).toNat ∧ Synced .up live ∧
    ¬ Synced .up hunting ∧ (live.clock.us - 0).toNat < 1000 := by
  simp only [Synced]; decide +kernel

theorem witness_transmit : ((live.setRing { live.ring with txDown := full }).ring.tx .down).queue =
      fillCell 1 :: List.replicate 63 (fillCell 1) ∧ (live.ring.tx .up).queue = [] := ⟨rfl, rfl⟩

/-! ### Witnesses: trains, setpoints, feedback -/

/-- FINE_X at entry 2 and the flipper at entry 3, in LAY. -/
def axes : State := inMode .lay (withEntry 3 13 .flipper (withEntry 2 12 .fineX live))

theorem witness_train : Synced .up live ∧ HasPlace .down live ∧ (0xFE : Byte).getLsbD 0 = false ∧ TableClean live :=
  ⟨rfl, by unfold HasPlace; decide, by decide, rfl, rfl, rfl⟩

/-- The state of the worked cases 4.9, 4.10 (O_z, T_z and M_z) and 4.11: SETTLE or another phase, VALID, LAY. -/
def worked (p : Phase) (g : Option Target) : State :=
  let fine := fun (i a : Nat) (r : Role) (stroke step : Nat) (s : State) =>
    withPart (13 + i) (packPart [(1, 1), (1, a), (1, i + 1), (1, 0), (4, stroke), (4, step)]) (withEntry i (BitVec.ofNat 8 a) r s)
  let s := fine 1 21 .fineX 150000 400 (fine 2 22 .fineY 150000 400 (fine 3 23 .fineZ 150000 400 (fine 4 24 .fineW 1500 40 (quietly following))))
  let seen := fun (i : Nat) (v : Int) (f : Vector Feedback 24) => f.setIfInBounds i { Feedback.initial with seen := true, actual := BitVec.ofInt 32 v }
  ((((s.setAxis { s.axis with feedback := seen 1 11520 (seen 4 (-160) s.axis.feedback) }).setLine { s.line with
    cur := some { aSample 4999900 with x := 12438200, z := 3080000, w := 120, ta := 5000300, lat := 400 }
    prev := some { aSample 4998900 with x := 12438155, z := 3080012 } }).setStab { s.stab with c := ⟨11200, 0, 0, -140⟩ }).setLay
    { s.lay with phase := p, oz := if p = .approach then 4500 else 0, target := g }).setClock { s.clock with us := 5000520 }

def bed : Target := { x := 12450000, y := 0, z := 3210000, w := 35950 }

theorem witness_stabilizer :
    (Synced .up (worked .settle (some bed)) ∧ (worked .settle (some bed)).line.state = .valid ∧
      (worked .settle (some bed)).ctl.mode.held = false ∧ (worked .settle (some bed)).line.cur.isSome = true ∧
      (worked .settle (some bed)).line.prev.isSome = true ∧ (worked .settle (some bed)).params.holdTerm = 255) ∧
    TableClean (worked .settle (some bed)) ∧ Watched (worked .settle (some bed)) ∧ Watched (worked .approach none) ∧
    (entryOfRole .fineX (worked .settle (some bed)) = some 1 ∧ (worked .approach none).lay.target = none ∧
      live.ctl.mode.held = true ∧ (tracked .stale axes).line.state ≠ .valid ∧ live.line.state = .none ∧ (tracked .lost live).line.state = .lost) := by
  refine ⟨?_, clean_all (l := [_]) ?_ _ List.mem_cons_self |>.1, watched_of ?_, watched_of ?_, ?_⟩ <;> (try simp only [Synced]) <;> decide +kernel

/-- The results of the worked cases of sections 4.9 to 4.11, in SETTLE and, for Z, in APPROACH. -/
theorem test_stabilizer :
    gives (.outboundTrainArrival 127 2 0 7 1000 0) (worked .settle (some bed)) (fun t =>
      t.stab.c.x == 11600 && t.stab.cPrev.x == 11200 && t.stab.err.x == some 253 && t.stab.e.x == some 11705 &&
      t.stab.e.w == some (-170) && t.stab.c.w == -170 && t.stab.err.w == some (-10)) = true ∧
    gives (.outboundTrainArrival 127 2 0 7 1000 0) (worked .approach (some bed)) (fun t =>
      t.stab.e.z == some 134525 && t.stab.pNow.map (·.z) == some 3079993) = true := by decide +kernel

theorem witness_end : Synced .up axes ∧ HasPlace .down axes ∧ axes.lay.phase ≠ .settle ∧
    entryOfRole .fineX axes = some 2 ∧ slotOf axes.axis.slot .fineX = false ∧ axes.ctl.mode = .lay ∧
    live.ctl.mode ≠ .lay := by
  simp only [Synced, HasPlace]; decide +kernel

/-- SETTLE with the gate open by every condition of R56 but the course, a HELD ticket of course 22 at the gripper. -/
def settling : State :=
  let s := worked .settle (some bed)
  let f : Feedback := { Feedback.initial with seen := true, stamp := some 5 }
  ((((s.setStab { s.stab with err := ⟨some 500, some (-500), some 0, some 10⟩, used := some (4, 64) }).setAxis { s.axis with
    slot := ⟨true, true, true, true⟩, feedback := Vector.replicate 24 f }).setRing { s.ring with lastCycle := some 7 }).setTrack
    { s.track with tickets := [ticketAt 1 6 .gripper .held] }).setLay { s.lay with gate := 7, gateDue := true, timer := some 0 }

/-- The gate's conditions, as O14 spells them. -/
def openAt (s : State) : Bool :=
  s.line.state == .valid && s.ctl.mode == .lay &&
    [Role.fineX, .fineY, .fineZ, .fineW].all (fun r => match entryOfRole r s, s.ring.lastCycle with
      | some i, some last => (match (feedbackOf s i).stamp with | some m => (last - m).toNat ≤ 2 | none => false)
      | _, _ => false) &&
    s.stab.err == ⟨some 500, some (-500), some 0, some 10⟩ && s.params.tolX == 500 && s.params.tolY == 500 && s.params.tolW == 10 &&
    !s.guard.outcome.noRelease && s.axis.slot == ⟨true, true, true, true⟩ && decide (s.lay.asLaid.length < 64)

/-- The course names no term (255), or term 31, UNKNOWN and unknown-as FALSE: the gate is closed. -/
theorem witness_gate :
    (Synced .up settling ∧ settling.lay.phase = .settle ∧ settling.ctl.mode.held = false ∧ settling.lay.gateDue = true ∧
      heldTicket settling = some (ticketAt 1 6 .gripper .held)) ∧
    (settling.setTrack live.track).track.tickets = [] ∧ (inMode .hold settling).ctl.mode.held = true ∧
    (openAt settling = true ∧ field (peekPart (withPart 241 (packPart [(1, 1), (1, 255)]) settling) 241) 1 1 = 255 ∧
      settling.params.releaseK = 8 ∧ min 255 (settling.lay.gate + 1) = 8) ∧
    (field (peekPart (withPart 241 (packPart [(1, 1), (1, 31)]) settling) 241) 1 1 = 31 ∧ termHeld settling 31 = ⟨.unknown, false⟩) ∧
    TableClean settling := by
  refine ⟨?_, rfl, rfl, ?_, ?_, clean_all (l := [_]) ?_ _ List.mem_cons_self |>.1⟩ <;> (try simp only [Synced]) <;> decide +kernel

/-- In SETTLE, the gate due or not, the X slot empty, the part of the course of the HELD ticket without an error. -/
theorem witness_end_settle : Synced .up settling ∧ HasPlace .down settling ∧ settling.lay.phase = .settle ∧
    (settling.setLay { settling.lay with gateDue := false }).lay.gateDue = false ∧
    (∀ k, heldTicket settling = some k → PartClean settling (197 + 2 * k.course)) := by
  refine ⟨rfl, by unfold HasPlace; decide, rfl, rfl, fun k _ => (clean_all (l := [settling]) (by decide +kernel) _ List.mem_cons_self).2 _⟩

/-- R160 in SETTLE: the empty slot of X, entry 1, is counted and latched, and the slots are cleared. -/
theorem test_end_settle :
    gives (.outboundEndArrival 127 2 0 0) (settling.setAxis { settling.axis with slot := ⟨false, true, true, true⟩ }) (fun t =>
      t.axis.missing == 1 && t.axis.slot == ⟨false, false, false, false⟩ && t.lay.gate == 0 &&
        t.ctl.faults == (settling.ctl.latch .missingSlot 1 0).faults) = true := by decide +kernel

/-- The eighth open gate of `settling` captures and asks for OPEN; a course with term 31 closes the gate. -/
theorem test_gate :
    gives (.outboundEndArrival 127 2 0 0) (withPart 241 (packPart [(1, 1), (1, 255)]) settling) (fun t =>
      t.lay.gate == 8 && t.lay.openPending && t.lay.capture == some ⟨500, -500, 0, 10, 64⟩) = true ∧
    gives (.outboundEndArrival 127 2 0 0) (withPart 241 (packPart [(1, 1), (1, 31)]) settling) (fun t =>
      t.lay.gate == 0 && !t.lay.openPending) = true := by decide +kernel

/-- The gripper at entry 10, its timeout 100 ms. -/
def asking : State :=
  let s := settling.setLay { settling.lay with openPending := true }
  withPart 23 (packPart [(1, 1), (1, 30), (1, 11), (1, 0), (4, 100)]) (withEntry 10 30 .gripper s)

theorem fitted_of {s : State} {st : Station} {i : Nat} (h : TableClean s) (he : entryOfRole (stationRole st) s = some i) :
    Fitted s st (axisRec (peekPart s (13 + i))).a :=
  ⟨i, he, ⟨by rw [h.flips]; rfl, by rw [h.flips]; rfl, by simp [partMarked, h.unreadable, h.poisoned]⟩, rfl⟩

theorem witness_open_request :
    (asking.ctl.mode = .lay ∧ asking.line.state = .valid ∧ asking.lay.phase = .settle ∧ asking.lay.openPending = true ∧
      heldTicket asking = some (ticketAt 1 6 .gripper .held) ∧ (asking.track.station .gripper).inflight = none ∧
      (asking.track.station .gripper).stall = .none) ∧
    Fitted asking .gripper (axisRec (peekPart asking (13 + 10))).a ∧ (axisRec (peekPart asking (13 + 10))).a = 100 ∧
    (settling.lay.openPending = false ∧ entryOfRole .gripper settling = none) :=
  ⟨by decide +kernel, fitted_of (i := 10) (clean_all (l := [asking]) (by decide +kernel) _ List.mem_cons_self).1 (by decide +kernel),
   by decide +kernel, by decide +kernel⟩

def appending : State := live.setRing { live.ring with append := true, txUp := { full with queue := full.queue.take 56 } }

theorem witness_return_end : Synced .down appending ∧ appending.ring.txUp.queue.length ≤ 56 ∧ appending.ring.append = true ∧
    Synced .down live ∧ live.ring.txUp.queue.length ≤ 56 ∧ live.ring.append = false := by
  simp only [Synced]; decide +kernel

def watched (us : Word) : State := (live.setRing { live.ring with watchdog := some 750 }).setClock { live.clock with us := us }

theorem witness_watchdog : (watched 750).ring.watchdog = some 750 ∧ ((watched 750).clock.us - 750).toNat < 2147483648 ∧
    2147483648 ≤ ((watched 749).clock.us - 750).toNat ∧ (watched 750).ctl.mode = .standby ∧
    (inMode .hold (watched 750)).ctl.mode = .hold ∧ (inMode .lay (watched 750)).ctl.mode = .lay ∧
    (watched 750).ctl.faults = 0 ∧ (inMode .lay (watched 750)).ctl.mode ≠ .standby := by decide +kernel

/-- A COARSE entry 0 at address 10 with step 100 and slow step 20, in GUARD. -/
def boom : State := inMode .guard (withPart 13 (packPart [(1, 1), (1, 10), (1, 1), (1, 0), (4, 100), (4, 20)]) (withEntry 0 10 .coarse live))

def coarseCell (p : Word) : Cell := goodCell 10 4 0x10 0 (setPayload p 7 0 0)

theorem witness_hold_form :
    (Synced .up boom ∧ isGood (coarseCell 9) = true ∧ entryOfAddr 10 boom = some (0, { addr := 10, role := .coarse }) ∧
      HasPlace .down (inMode .hold boom) ∧ (inMode .hold boom).ctl.mode.held = true) ∧
    (axisUnreadable (markUnreadable 13 boom) 0 = true) ∧
    (boom.ctl.mode.held = false ∧ axisUnreadable boom 0 = false ∧
      (readPart (axisPart 0) (arrived .up (boom.setMem { boom.mem with flips := [1872, 1943] }))).1 = none) ∧
    ¬ HasPlace .down (inMode .hold (boom.setRing { boom.ring with txDown := full })) ∧ PartClean (inMode .hold boom) (axisPart 0) := by
  simp only [Synced, HasPlace, PartClean]; decide +kernel

/-- R149, R177: in HOLD too the entry is read at a coarse SET cell; one bit in error is corrected, two latch TABLE_ECC. -/
theorem test_hold_reads :
    gives (.coarseSet 10 4 0 9 7 0 0 (coarseCell 9).crc) (inMode .hold (boom.setMem { boom.mem with flips := [1872] })) (fun t =>
      t.mgmt.corrected == 1 && t.ring.txDown.queue.map (·.payload) == [setPayload 9 0 1 0]) = true ∧
    gives (.coarseSet 10 4 0 9 7 0 0 (coarseCell 9).crc) (inMode .hold (boom.setMem { boom.mem with flips := [1872, 1943] })) (fun t =>
      t.ctl.has .tableEcc && t.mgmt.unreadable == [13] && t.ring.txDown.queue.map (·.payload) == [setPayload 9 0 1 0]) = true := by
  decide +kernel

theorem witness_coarse_step :
    Synced .up boom ∧ HasPlace .down boom ∧ isGood (coarseCell 101) = true ∧
    entryOfAddr 10 boom = some (0, { addr := 10, role := .coarse }) ∧ boom.ctl.mode.held = false ∧
    PartClean boom (axisPart 0) ∧ (axisRec (peekPart boom (axisPart 0))).a = 100 ∧ boom.guard.outcome.slow = false ∧
    (boom.setAxis { boom.axis with lastFwd := boom.axis.lastFwd.setIfInBounds 0 (some 1) }).axis.lastFwd[0]?.join = some 1 ∧
    boom.axis.lastFwd[0]?.join = none ∧ (feedbackOf boom 0).seen = false ∧
    (feedbackOf (boom.setAxis { boom.axis with
      feedback := boom.axis.feedback.setIfInBounds 0 { Feedback.initial with seen := true, actual := 1 } }) 0).seen = true := by
  simp only [Synced, HasPlace, PartClean]; decide +kernel

/-- R191: a coarse cell that is rewritten carries no received flag; a limited one carries CONDITIONED alone. -/
theorem test_coarse_flags :
    gives (.coarseSet 10 4 0 150 7 0xFF 3 (goodCell 10 4 0x10 0 (setPayload 150 7 0xFF 3)).crc)
      (boom.setAxis { boom.axis with lastFwd := boom.axis.lastFwd.setIfInBounds 0 (some 1) })
      (fun t => t.ring.txDown.queue == [goodCell 10 4 0x10 0 (setPayload 101 0 2 3)]) = true := by decide +kernel

/-- Within the train whose TRAIN cell arrived, or with none open. -/
def riding (opened : Bool) : State :=
  (axes.setAxis { axes.axis with trainOpen := opened }).setStab { axes.stab with c := ⟨30, 0, 0, 0⟩, cPrev := ⟨10, 0, 0, 0⟩ }

theorem witness_fine_set :
    (Synced .up axes ∧ HasPlace .down axes ∧ isGood (goodCell 12 4 0x10 0 5) = true ∧
      entryOfAddr 12 axes = some (2, { addr := 12, role := .fineX }) ∧ axisUnreadable axes 2 = false ∧
      axisUnreadable (markUnreadable 15 axes) 2 = true) ∧
    (Synced .up (riding true) ∧ HasPlace .down (riding true) ∧
      entryOfAddr 12 (riding true) = some (2, { addr := 12, role := .fineX }) ∧ axisUnreadable (riding true) 2 = false ∧
      (riding true).axis.trainOpen = true ∧ (riding false).axis.trainOpen = false) := by
  simp only [Synced, HasPlace]; decide +kernel

/-- The velocities, in bytes 4 to 7 of the payload, of the cells that have left after a fine SET cell. -/
def velocitySent (trainSeen : Bool) (s : State) : Option (List Word) :=
  match exec (.fineSet 12 4 0 ⟨0, trainSeen⟩ (goodCell 12 4 0x10 0 0).crc) s with
  | .next t => some (t.ring.txDown.queue.map (fun c => c.payload.extractLsb' 32 32))
  | _ => none

/-- R82: the velocity is 0 after the END, in a cycle whose TRAIN cell was not received, and in the next cell after such a one. -/
theorem test_velocity :
    velocitySent true (riding true) = some [20] ∧ velocitySent true (riding false) = some [0] ∧
    velocitySent false (riding true) = some [0] ∧ velocitySent true (noteCycle false (riding true)) = some [0] ∧
    velocitySent true (beginTrain 5 0 (riding false)) = some [20] := by decide +kernel

/-- A ticket, and its station's command in flight. -/
def busyWith (c : Cmd) (pos : Station) (st : TicketState) (s : State) : State :=
  s.setTrack ({ s.track with tickets := [ticketAt 1 6 pos st] }.setStation c.station { lastNum := 255, inflight := some (inFlight c), stall := .none })

theorem witness_station_set :
    Synced .up axes ∧ HasPlace .down axes ∧ isGood (goodCell 13 4 0x10 0 5) = true ∧
    entryOfAddr 13 axes = some (3, { addr := 13, role := .flipper }) ∧ axisUnreadable axes 3 = false ∧
    ((busyWith .handover .flipper .handingOver axes).track.station .flipper).inflight = some (inFlight .handover) ∧
    (axes.track.station .flipper).inflight = none ∧ entryOfAddr 14 axes = none ∧
    axisUnreadable (markUnreadable 16 axes) 3 = true ∧
    entryOfAddr 15 (withEntry 23 15 .sensor axes) = some (23, { addr := 15, role := .sensor }) := by
  simp only [Synced, HasPlace]; decide +kernel

/-- The flipper of `axes` with its command in flight or none, not stalled or stalled. -/
def flipping (fl : Option InFlight) (c : Stall) : State :=
  axes.setTrack { axes.track with flipper := { lastNum := 255, inflight := fl, stall := c } }

/-- The statuses 2 (DONE), 3 (FAULT) and 7 (FAULT, a block present), with the echo 255 of the command in flight or another;
with nothing in flight anywhere and no ticket a block present disagrees. -/
theorem witness_feedback :
    (Synced .down axes ∧ HasPlace .up axes ∧ entryOfAddr 12 axes = some (2, { addr := 12, role := .fineX }) ∧
      axisUnreadable axes 2 = false ∧ Role.fineX.station = none ∧ entryOfAddr 11 axes = none ∧
      axisUnreadable (markUnreadable 15 axes) 2 = true) ∧
    (entryOfAddr 13 axes = some (3, { addr := 13, role := .flipper }) ∧ axisUnreadable axes 3 = false ∧
      Role.flipper = stationRole .flipper) ∧
    ((∀ x, x ≠ Station.flipper → ((flipping none .none).track.station x).inflight = none) ∧
      ((flipping none .none).track.station .flipper).inflight = none ∧
      ((flipping none .none).track.station .flipper).stall = .none ∧ (flipping none .none).track.tickets = []) ∧
    (((flipping (some (inFlight .handover)) .timeout).track.station .flipper).inflight = some (inFlight .handover) ∧
      (inFlight .handover).num = (0xFFFF : Half).toNat % 256 ∧ (0xFFFF : Half).toNat % 256 ≠ (0xFFFE : Half).toNat % 256 ∧
      ((flipping (some (inFlight .handover)) .timeout).track.station .flipper).stall = .timeout) ∧
    ((3 : Half).toNat % 4 = 3 ∧ (7 : Half).toNat % 4 = 3 ∧ (2 : Half).toNat % 4 = 2 ∧ (7 : Half).getLsbD 2 = true ∧
      (3 : Half).getLsbD 2 = false) ∧
    (∀ j < 32, (termRec (peekPart axes (37 + j))).axis ≠ 3) := by
  simp only [Synced, HasPlace]
  exact ⟨by decide +kernel, by decide +kernel, ⟨fun x _ => by cases x <;> rfl, rfl, rfl, rfl⟩,
    by decide +kernel, by decide +kernel, by decide +kernel⟩

/-- R29, R28, R44: a FAULT of the number in flight stalls, one of an older number does not; a block seen on a free flipper is a
mismatch. -/
theorem test_station_report :
    gives (.fbkCapture 127 13 0 0 3 0x00FF 0 0 0 0) (flipping (some (inFlight .handover)) .timeout)
      (fun t => t.track.flipper.stall == .fault && t.track.flipper.inflight == some { inFlight .handover with timer := false }) = true ∧
    gives (.fbkCapture 127 13 0 0 3 0x00FE 0 0 0 0) (flipping (some (inFlight .handover)) .timeout)
      (fun t => t.track == (flipping (some (inFlight .handover)) .timeout).track) = true ∧
    gives (.fbkCapture 127 13 0 0 7 0x00FE 0 0 0 0) (flipping none .none) (fun t => t.track.flipper.stall == .mismatch) = true := by
  decide +kernel

/-! ### Witnesses: the brick track -/

/-- A station of each role, at address 20 + its code, with a timeout of 100 ms. -/
def stations : State :=
  allStations.foldl (fun s st =>
    withPart (13 + stationCode st) (packPart [(1, 1), (1, 20 + stationCode st), (1, 6 + stationCode st), (1, 0), (4, 100)])
      (withEntry (stationCode st) (BitVec.ofNat 8 (20 + stationCode st)) (stationRole st) s)) live

theorem seen_of (s : State) (src : Byte) (role : Role) (i : Nat) (e : AxisIdx)
    (h : (s.ring.rx .down).sync = .synced ∧ entryOfAddr src s = some (i, e) ∧ e.role = role ∧ axisUnreadable s i = false) :
    Seen s src role i := ⟨h.1, ⟨e, h.2.1, h.2.2.1⟩, h.2.2.2⟩

theorem awaits_of (s : State) (cmd : Cmd) (echo : Byte) (k : Ticket) (fl : InFlight)
    (h : (s.track.station cmd.station).inflight = some fl ∧ fl.cmd = cmd ∧ fl.num = echo.toNat ∧
      s.track.find fl.ticket = some k ∧ (s.track.station cmd.station).stall ≠ .fault) : Awaits s cmd echo k :=
  ⟨⟨fl, h.1, h.2.1, h.2.2.1, h.2.2.2.1⟩, h.2.2.2.2⟩

/-- A command in flight at its station, its DONE due under number 255. -/
def due (c : Cmd) (pos : Station) (st : TicketState) : State := busyWith c pos st stations

/-- The report of every command finds its station and its command in flight. -/
theorem due_reports (c : Cmd) (pos : Station) (st : TicketState) :
    Seen (due c pos st) (BitVec.ofNat 8 (20 + stationCode c.station)) (stationRole c.station) (stationCode c.station) ∧
      Awaits (due c pos st) c 255 (ticketAt 1 6 pos st) :=
  ⟨seen_of _ _ _ _ { addr := BitVec.ofNat 8 (20 + stationCode c.station), role := stationRole c.station } (by
      show (stations.ring.rx .down).sync = _ ∧ entryOfAddr _ stations = _ ∧ _ ∧ axisUnreadable stations _ = _
      cases c <;> decide +kernel),
    awaits_of _ _ _ _ (inFlight c) (by cases c <;> exact ⟨rfl, rfl, rfl, rfl, Stall.noConfusion⟩)⟩

theorem witness_done_moves :
    (Seen (due .feedOne .feed .feeding) 20 .feed 0 ∧ Awaits (due .feedOne .feed .feeding) .feedOne 255 (ticketAt 1 6 .feed .feeding)) ∧
    (Seen (due .glue .saw .gluing) 22 .glue 2 ∧ Awaits (due .glue .saw .gluing) .glue 255 (ticketAt 1 6 .saw .gluing)) ∧
    (Seen (due .load .glue .loading) 23 .shuttle 3 ∧ Awaits (due .load .glue .loading) .load 255 (ticketAt 1 6 .glue .loading)) ∧
    (Seen (due .deliver .shuttle .delivering) 23 .shuttle 3 ∧
      Awaits (due .deliver .shuttle .delivering) .deliver 255 (ticketAt 1 6 .shuttle .delivering)) :=
  ⟨due_reports .feedOne .feed .feeding, due_reports .glue .saw .gluing, due_reports .load .glue .loading,
   due_reports .deliver .shuttle .delivering⟩

/-- The mode after an event, for the clauses on the mode that a HANDOVER DONE leaves. -/
def modeAfter (i : Instr) (s : State) : Option Mode := match exec i s with | .next t => some t.ctl.mode | _ => none

def handing : State := due .handover .flipper .handingOver

theorem witness_handover :
    (Seen handing 24 .flipper 4 ∧ Awaits handing .handover 255 (ticketAt 1 6 .flipper .handingOver)) ∧ handing.lay.phase = .idle ∧
    modeAfter (.handoverDone 24 255 false 0) (quietly (tracked .valid handing)) = some .lay ∧
    modeAfter (.handoverDone 24 255 false 0) handing = some .standby :=
  ⟨due_reports .handover .flipper .handingOver, by decide +kernel⟩

/-- A phase of a placement with a HELD ticket, in LAY and VALID, E and C as given. -/
def placing (p : Phase) (oz : Nat) (reach : Bool) (e : Int) : State :=
  let s := quietly (tracked .valid (busyWith .openJaws .gripper .held live))
  (s.setLay { s.lay with phase := p, oz := oz }).setStab { s.stab with e := ⟨some e, some 0, some 0, some 0⟩, reach := some reach }

/-- Convergence at the tolerance of 500 µm, and the ends of DESCEND and LIFT at their steps of 500 and 1,000 µm (R52, R53, R60). -/
theorem witness_phases :
    ((placing .idle 0 true 0).ctl.mode = .lay ∧ (placing .idle 0 true 0).line.state = .valid ∧
      (placing .idle 0 true 0).track.tickets = [ticketAt 1 6 .gripper .held]) ∧
    ((placing .approach 0 true 500).stab.e = ⟨some 500, some 0, some 0, some 0⟩ ∧ (placing .approach 0 true 500).params.tolX = 500 ∧
      ((500 : Int) - (placing .approach 0 true 500).stab.c.x).natAbs = 500) ∧
    ((placing .descend 501 true 0).params.descendStep < 501 ∧ 500 ≤ (placing .descend 500 true 0).params.descendStep) ∧
    ((placing .lift 28999 true 0).lay.oz + live.params.liftStep < live.params.hover ∧
      live.params.hover ≤ (placing .lift 29000 true 0).lay.oz + live.params.liftStep) ∧
    ((placing .settle 0 false 0).stab.reach ≠ some true ∧ (placing .release 0 true 0).lay.phase = .release ∧ live.ctl.mode ≠ .lay) := by
  decide +kernel

def sawing : State := due .cut .feed .cutting

/-- Measured 51,000 µm for 5,000 tenths of a millimetre is within 1,000 µm; 51,001 is not (R33). -/
theorem witness_cut :
    (Seen sawing 21 .saw 1 ∧ Awaits sawing .cut 255 (ticketAt 1 6 .feed .cutting)) ∧
    ((51000#32).toInt - (ticketAt 1 6 .feed .cutting).length * 10).natAbs ≤ sawing.params.lengthTol ∧
    sawing.params.lengthTol < ((51001#32).toInt - (ticketAt 1 6 .feed .cutting).length * 10).natAbs :=
  ⟨due_reports .cut .feed .cutting, by decide +kernel⟩

def bound6 (s : State) : State := s.setPlan planned.plan

theorem witness_drop :
    (Seen (due .eject .saw .atSaw) 21 .saw 1 ∧ Awaits (due .eject .saw .atSaw) .eject 255 (ticketAt 1 6 .saw .atSaw)) ∧
    (Seen (due .drop .flipper .atFlipper) 24 .flipper 4 ∧ Awaits (due .drop .flipper .atFlipper) .drop 255 (ticketAt 1 6 .flipper .atFlipper)) ∧
    boundOf 6 (bound6 (due .eject .saw .atSaw)) = some ⟨6, 22, 1, 1, ⟨1, 2, 3, 4⟩⟩ ∧ boundOf 6 (due .drop .flipper .atFlipper) = none :=
  ⟨due_reports .eject .saw .atSaw, due_reports .drop .flipper .atFlipper, by decide +kernel⟩

/-- A record at the head of the queue, in slot 0, of course 22, which is present with extents of 15 µm. -/
def heading (course : Part) (dx : Nat) : State :=
  let s := live.setPlan { live.plan with queue := [⟨5, 22, false, 2, 0⟩, ⟨7, 44, true, 3, 3⟩] }
  withPart 709 (packPart [(4, 5), (1, 22), (1, 5), (3, dx), (3, 0), (2, 0), (2, 5000)]) (withPart 241 course s)

def present : Part := packPart [(1, 1), (1, 255)]

/-- A KEEP_OUT box from (0, 0, 0) to (15, 15, 15) in zone 63. -/
def fenced (s : State) : State := withPart 195 (packPart [(1, 0x03), (1, 255)]) s

def admits (s : State) : Bool := match admitHead s with | (.bound .., _) => true | (.none, _) => false

/-- The head FAILED, its slot or its course in error, its course absent, its offset at and past the extent, its target in a zone, a
poisoned zone, and free. -/
theorem witness_admission :
    live.plan.queue = [] ∧ (heading present 0).plan.queue.head? = some ⟨5, 22, false, 2, 0⟩ ∧
    ((heading present 0).setPlan { live.plan with queue := [⟨7, 44, true, 3, 3⟩] }).plan.queue.head? = some ⟨7, 44, true, 3, 3⟩ ∧
    (∀ x ∈ [((heading present 0).setMem { (heading present 0).mem with flips := [102096, 102167] }, 709 + 0)], TwoBits x.1 x.2) ∧
    partMarked (markUnreadable 242 (heading present 0)) (197 + 2 * 22 + 1) = true ∧
    (∀ s ∈ [heading 0 0, heading present 15, heading present 16, fenced (heading present 15)], TableClean s ∧ ∀ n, PartClean s n) ∧
    ((courseRec (peekPart (heading 0 0) 241) (peekPart (heading 0 0) 242)).present = false ∧
      (courseRec (peekPart (heading present 0) 241) (peekPart (heading present 0) 242)).present = true ∧
      (planRec (peekPart (heading present 15) 709)).dx = 15 ∧ (planRec (peekPart (heading present 16) 709)).dx = 16 ∧
      admits (heading present 15) = true ∧ admits (heading present 16) = false ∧ admits (fenced (heading present 15)) = false) ∧
    ((heading present 0).setGuard { live.guard with poisoned := [196] }).guard.poisoned = [196] ∧
    layRising (heading present 0).plan.queue := by
  refine ⟨rfl, rfl, rfl, twoBits_all ?_, ?_, clean_all ?_, ?_, rfl, ?_⟩ <;> (try unfold layRising) <;> decide +kernel

def opening : State := (due .openJaws .gripper .releasing).setLay { Lay.initial with
  phase := .release, capture := some { x := 40000, y := -3, z := 0, w := 18000, quality := 200 } }

theorem witness_open :
    Seen opening 25 .gripper 5 ∧ Awaits opening .openJaws 255 (ticketAt 1 6 .gripper .releasing) ∧
    opening.lay.capture = some { x := 40000, y := -3, z := 0, w := 18000, quality := 200 } ∧
    boundOf 6 opening = none ∧ boundOf 6 (bound6 opening) = some ⟨6, 22, 1, 1, ⟨1, 2, 3, 4⟩⟩ :=
  ⟨seen_of _ _ _ _ { addr := 25, role := .gripper } (by decide +kernel), awaits_of _ _ _ _ (inFlight .openJaws) (by decide +kernel),
   rfl, rfl, rfl⟩

def atMs (ms : Word) (s : State) : State := s.setClock { s.clock with ms := ms }

/-- Tickets on an idle track, in LAY. -/
def lined (l : List Ticket) (s : State) : State := quietly (s.setTrack { live.track with tickets := l })

def spoiled (k : Ticket) : Ticket := { k with spoilt := true }
def gluedAt (g : Word) (k : Ticket) : Ticket := { k with glueTime := some g }

theorem mayIssue_of {s : State} {c : Cmd} {pos : Station} (h : mayIssue c pos s = true) : MayIssue s c pos := (mayIssue_iff c pos s).mp h

/-- Every station is fitted, and every command may be issued on an idle track; none with its station stalled, or in GUARD a HANDOVER. -/
theorem witness_issue (c : Cmd) (pos : Station) :
    MayIssue (lined [] stations) c pos ∧ Fitted (lined [] stations) c.station (axisRec (peekPart (lined [] stations) (13 + stationCode c.station))).a ∧
    ¬ MayIssue (inMode .guard (lined [] stations)) .handover .flipper ∧ entryOfRole .feed live = none := by
  have hc : TableClean (lined [] stations) := (clean_all (l := [lined [] stations]) (by decide +kernel) _ List.mem_cons_self).1
  refine ⟨mayIssue_of (by cases c <;> cases pos <;> rfl), fitted_of hc (by cases c <;> decide +kernel), fun h => ?_, by decide⟩
  rcases h.mode with h | h
  · cases h
  · exact h.2.2 rfl

/-- The tickets that make each command due (R32 to R38). -/
theorem witness_commands_due :
    (standsFree (lined [] stations) .feed ∧ (lined [] stations).track.tickets.length < 9 ∧ admits (lined [] (heading present 15)) = true ∧
      admits (lined [] live) = false) ∧
    (standsFirst (lined [{ ticketAt 1 6 .saw .atSaw with reject := true }] stations) .saw { ticketAt 1 6 .saw .atSaw with reject := true } ∧
      standsFirst (lined [{ ticketAt 1 6 .feed .atFeed with purge := true }] stations) .feed { ticketAt 1 6 .feed .atFeed with purge := true } ∧
      standsFirst (lined [ticketAt 1 6 .feed .atFeed] stations) .feed (ticketAt 1 6 .feed .atFeed) ∧
      standsFree (lined [ticketAt 1 6 .feed .atFeed] stations) .saw) ∧
    (standsFirst (lined [ticketAt 1 6 .saw .atSaw] stations) .saw (ticketAt 1 6 .saw .atSaw) ∧
      standsFree (lined [ticketAt 1 6 .saw .atSaw] stations) .glue) ∧
    (standsFirst (lined [ticketAt 1 6 .shuttle .onShuttle] stations) .shuttle (ticketAt 1 6 .shuttle .onShuttle) ∧
      standsFirst (lined [ticketAt 1 6 .glue .atGlue] stations) .glue (ticketAt 1 6 .glue .atGlue)) ∧
    (standsFirst (lined [spoiled (ticketAt 1 6 .flipper .atFlipper)] stations) .flipper (spoiled (ticketAt 1 6 .flipper .atFlipper)) ∧
      standsFirst (lined [gluedAt 0 (ticketAt 1 6 .flipper .atFlipper)] stations) .flipper (gluedAt 0 (ticketAt 1 6 .flipper .atFlipper)) ∧
      live.params.reserve ≤ live.params.openTime - ((lined [] (atMs 240000 stations)).clock.ms - 0).toNat ∧
      (lined [] stations).lay.phase = .idle) := by
  simp only [standsFree, standsFirst]; decide +kernel

theorem witness_command_timer :
    (live.track.station .saw).inflight = none ∧ (sawing.track.station .saw).inflight = some (inFlight .cut) ∧
    (inFlight .cut).timer = true ∧
    ((atMs 100 sawing).clock.ms - ((inFlight .cut).issued + BitVec.ofNat 32 (inFlight .cut).timeout)).toNat < 2147483648 ∧
    2147483648 ≤ ((atMs 99 sawing).clock.ms - ((inFlight .cut).issued + BitVec.ofNat 32 (inFlight .cut).timeout)).toNat ∧
    (sawing.track.station .saw).stall = .none ∧ live.ctl.mode.held = true ∧
    ((sawing.setTrack { sawing.track with saw := { sawing.track.saw with stall := .mismatch } }).track.station .saw).stall ≠ .none := by
  decide +kernel

/-- A glued ticket held at the gripper, in SETTLE. -/
def glued : State := settling.setTrack { settling.track with tickets := [gluedAt 0 (ticketAt 1 6 .gripper .held)] }

/-- The open time is 300,000 ms, the reserve 60,000 ms: at 240,001 ms a block at the flipper is late. -/
theorem witness_placement_timers :
    (glued.track.tickets.filter (fun x => x.num = 1) = [gluedAt 0 (ticketAt 1 6 .gripper .held)] ∧
      glued.track.find 6 = some (gluedAt 0 (ticketAt 1 6 .gripper .held)) ∧
      glued.params.openTime ≤ ((atMs 300000 glued).clock.ms - 0).toNat ∧
      ((atMs 299999 glued).clock.ms - 0).toNat < glued.params.openTime ∧ (ticketAt 1 6 .feed .cutting).glueTime = none ∧
      glued.track.tickets.Pairwise (fun a b => a.lay ≠ b.lay)) ∧
    (standsFirst (lined [gluedAt 0 (ticketAt 1 6 .flipper .atFlipper)] live) .flipper (gluedAt 0 (ticketAt 1 6 .flipper .atFlipper)) ∧
      live.params.openTime - ((atMs 240001 live).clock.ms - 0).toNat < live.params.reserve ∧
      live.params.reserve ≤ live.params.openTime - ((atMs 240000 live).clock.ms - 0).toNat ∧ standsFree live .flipper) ∧
    (glued.lay.timer = some 0 ∧ glued.lay.phase = .settle ∧ (glued.clock.ms - 0).toNat < 2147483648 ∧
      heldTicket glued = some (gluedAt 0 (ticketAt 1 6 .gripper .held)) ∧ live.lay.timer = none ∧ live.lay.phase ≠ .settle) := by
  simp only [standsFree, standsFirst]; decide +kernel

/-! ### Witnesses: the tracker line -/

def asm (st : AsmState) (body : List Byte) (s : State) : State :=
  s.setLine { s.line with asm := { state := st, parityBad := false, body := body, crcHigh := none } }

def withParity (p : Nat) (s : State) : State := s.setParams { s.params with parity := p }
def looped (s : State) : State := s.setParams { s.params with trkLoop := true }

theorem witness_character :
    ((false = true) ↔ live.params.parity = 1 ∧ oddOnes 0xB6 ≠ true ∨ 2 ≤ live.params.parity ∧ oddOnes 0xB6 = true) ∧
    ((true = true) ↔ (withParity 2 live).params.parity = 1 ∧ oddOnes 0xB6 ≠ true ∨
      2 ≤ (withParity 2 live).params.parity ∧ oddOnes 0xB6 = true) ∧
    live.params.trkLoop = false ∧ (looped live).params.trkLoop = true ∧ live.line.inBreak = false ∧
    live.line.asm.state = .hunt ∧ (live.setLine { live.line with inBreak := true }).line.inBreak = true ∧
    (asm .length [] live).line.asm.state = .length ∧ (asm .body [] live).line.asm.state = .body ∧
    (asm .check [] live).line.asm.state = .check ∧ (asm .check [] live).line.asm.crcHigh = none := by decide +kernel

theorem witness_sample_ignored :
    live.params.trkLoop = false ∧ live.line.inBreak = false ∧ live.line.asm.state = .hunt ∧ live.params.parity = 0 ∧
    (withParity 1 live).params.parity ≠ 0 ∧ crc16 (20 :: sampleBody 1 2 3 4 5 6 7 8) ≠ 0 ∧ live.pins.trkReady = false ∧
    (63 : Byte).toNat < live.params.minQuality ∧ 36000 ≤ (36000 : Half).toNat ∧ (0xFE : Byte).getLsbD 0 = false := by
  decide +kernel

def atUs (us : Word) (s : State) : State := s.setClock { s.clock with us := us }

/-- The jump limit is 20,000 µm: 20,000 is no jump, 20,001 is one (R93). -/
theorem witness_sample_judged :
    following.params.trkLoop = false ∧ following.line.inBreak = false ∧ following.line.asm.state = .hunt ∧
    following.pins.trkReady = true ∧ (1 : Byte).getLsbD 0 = true ∧ following.params.minQuality ≤ (64 : Byte).toNat ∧
    (35999 : Half).toNat < 36000 ∧ following.line.state = .valid ∧ following.line.cur = some (aSample 0) ∧
    following.params.jumpLimit = 20000 ∧
    (predict (aSample 0) (velocity (aSample 0) following.line.prev) (max 0 (min 20000 ((0#32 - (aSample 0).tm).toInt))).toNat).x = 0 ∧
    following.line.rejectRun < 2 ∧ (following.setLine { following.line with rejectRun := 2 }).line.rejectRun = 2 ∧
    (following.clock.us - (0 + BitVec.ofNat 32 following.params.staleAge)).toNat ≥ 2147483648 ∧
    (following.clock.us - (0 + BitVec.ofNat 32 following.params.lostAge)).toNat ≥ 2147483648 ∧
    ((0 : Word) - ((0 - BitVec.ofNat 32 5000) + BitVec.ofNat 32 following.params.staleAge)).toNat < 2147483648 ∧
    ((atUs 5 (following.setParams { following.params with lostAge := 1000 })).clock.us -
      ((5 - BitVec.ofNat 32 5000) + 1000)).toNat < 2147483648 := by decide +kernel

theorem witness_loop_frame :
    (looped (live.setLine { live.line with sending := some { bytes := reacquireFrame none, begun := 0, fed := 0 } })).line.sending =
      some { bytes := reacquireFrame none, begun := 0, fed := 0 } ∧
    (List.replicate 12 (0 : Byte)).length = 12 ∧
    reacquireFrame none = 0xB7 :: 12 :: (List.replicate 12 0 ++ bytes16 (crc16 (12 :: List.replicate 12 0))) ∧
    (looped live).line.asm.state = .hunt ∧ (looped live).params.trkLoop = true ∧ live.params.parity = 0 ∧
    (withParity 1 live).params.parity ≠ 0 ∧ live.params.trkLoop = false ∧ live.line.sending = none := by decide +kernel

theorem witness_break_and_ready :
    (looped live).params.trkLoop = true ∧ live.params.trkLoop = false ∧ live.line.inBreak = false ∧ live.line.state ≠ .lost ∧
    (tracked .lost live).line.state = .lost ∧ live.pins.trkReady = false ∧ following.pins.trkReady = true ∧
    following.line.state ≠ .lost ∧ following.ctl.mode.held = true ∧ (inMode .lay following).ctl.mode.held = false := by
  decide +kernel

theorem witness_tracker_expiries :
    following.line.staleAt = some 4000 ∧ ((atUs 4000 following).clock.us - 4000).toNat < 2147483648 ∧
    following.line.state = .valid ∧ 2147483648 ≤ ((atUs 3999 following).clock.us - 4000).toNat ∧
    following.line.lostAt = some 50000 ∧ ((atUs 50000 following).clock.us - 50000).toNat < 2147483648 ∧
    2147483648 ≤ ((atUs 49999 following).clock.us - 50000).toNat ∧ live.line.staleAt = none ∧ live.line.lostAt = none := by
  decide +kernel

/-- LOST since time 0, the transmitter running. -/
def seeking (n : Nat) : State := live.setLine { live.line with
  state := .lost, running := true, lastDue := some 0
  sending := if n = 0 then none else some { bytes := reacquireFrame none, begun := 0, fed := 0 }
  waiting := if n = 2 then some (reacquireFrame (some ⟨1, 2, 3, 4⟩)) else none }

theorem witness_reacquire :
    (seeking 0).line.lastDue = some 0 ∧ (seeking 0).stab.pNow = none ∧ (seeking 0).line.running = true ∧
    ((atMs 100 (seeking 0)).clock.ms - (0 + 100)).toNat < 2147483648 ∧
    2147483648 ≤ ((atMs 99 (seeking 0)).clock.ms - (0 + 100)).toNat ∧ (seeking 0).line.sending = none ∧
    (seeking 1).line.sending = some { bytes := reacquireFrame none, begun := 0, fed := 0 } ∧
    (seeking 2).line.waiting ≠ none ∧ (seeking 2).params.trkLoop = false ∧ live.line.running = false ∧
    ((seeking 0).setStab { live.stab with pNow := some ⟨1, -2, 3, 4⟩ }).stab.pNow = some ⟨1, -2, 3, 4⟩ ∧
    charsTime 16 (seeking 1).params = 174 := by decide +kernel

theorem witness_sent_frame : (seeking 2).params.trkLoop = false ∧
    (seeking 2).line.sending = some { bytes := reacquireFrame none, begun := 0, fed := 0 } ∧
    charsTime 16 (seeking 2).params ≤ ((atUs 174 (seeking 2)).clock.us - 0).toNat ∧
    ((atUs 173 (seeking 2)).clock.us - 0).toNat < charsTime 16 (seeking 2).params ∧ (seeking 0).line.sending = none := by
  decide +kernel

/-- The frame of `looping`, of which the looped receiver has taken some characters. -/
def loopTaken (n : Nat) (us : Word) : State := (looping.setLine { looping.line with
  sending := some { bytes := reacquireFrame none, begun := 0, fed := n }
  asm := { state := if n = 0 then .hunt else if n = 1 then .length else if n < 14 then .body else .check, parityBad := false
           body := (List.replicate 12 0).take (n - 2), crcHigh := if n = 15 then (reacquireFrame none)[14]? else none } }).setClock
  { looping.clock with us := us }

/-- The looped receiver has taken none, two, 15 or all of the characters, before the frame's 174 µs are over and at them. -/
theorem witness_loop_sent :
    (reacquireFrame none = 0xB7 :: 12 :: (List.replicate 12 (0 : Byte) ++ bytes16 (crc16 (12 :: List.replicate 12 (0 : Byte)))) ∧
      (List.replicate 12 (0 : Byte)).length = 12 ∧ (loopTaken 0 174).params.trkLoop = true ∧ looping.line.waiting ≠ none) ∧
    (charsTime 16 (loopTaken 0 174).params ≤ ((loopTaken 0 174).clock.us - 0).toNat ∧
      (loopTaken 0 174).line.asm = { state := .hunt, parityBad := false, body := [], crcHigh := none }) ∧
    ((loopTaken 15 174).line.asm.state = .check ∧ (loopTaken 15 174).line.asm.crcHigh = (reacquireFrame none)[14]? ∧
      (loopTaken 15 174).line.asm.body = List.replicate 12 0) ∧
    (loopTaken 16 174).line.sending = some { bytes := reacquireFrame none, begun := 0, fed := 16 } ∧
    (163 * baudOf (loopTaken 2 163).params.rate / (charBits (loopTaken 2 163).params.parity * 1000000) = 15 ∧
      ((loopTaken 2 163).clock.us - 0).toNat = 163 ∧ (loopTaken 2 163).line.asm.state = .body) := by decide +kernel

/-- R101: the looped receiver counts the loop frame at the last character, and has 15 of them a character time before. -/
theorem test_loop_sent :
    gives .reacquireSent (loopTaken 15 174) (fun t => t.line.count.loopFrames == 1 && t.line.count.reacquireSent == 1) = true ∧
    gives .reacquireSent (loopTaken 16 174) (fun t => t.line.count.loopFrames == 0 && t.line.count.reacquireSent == 1) = true ∧
    loopCatchUp (loopTaken 2 163) = loopTaken 15 163 := by decide +kernel

/-! ### Witnesses: tables -/

theorem heard_live : ∀ x ∈ [(live, w0, 0), (live, w1, 1), (live, w2, 2), (live, { w0 with level := 2 }, 2)], Heard x.1 x.2.1 x.2.2 :=
  heard_all (by decide +kernel)

theorem live_clean : TableClean live ∧ ∀ n, PartClean live n := clean_all (l := [live]) (by decide +kernel) _ List.mem_cons_self

theorem witness_read : (∀ x ∈ [(live, w2, 2), (planned, w2, 2)], Heard x.1 x.2.1 x.2.2) ∧ (∀ s ∈ [live, planned], TableClean s ∧ ∀ n, PartClean s n) ∧
    ((7 : Half).toNat < 8 ∧ (4 : BitVec 3).toNat < 5 ∧ (23 : Half).toNat < 24 ∧ (31 : Half).toNat < 32 ∧ (63 : Half).toNat < 64 ∧
      (1 : BitVec 3).toNat < 2 ∧ (255 : Half).toNat < 256 ∧ planned.plan.queue[(1 : Half).toNat]? = some ⟨7, 44, true, 3, 3⟩ ∧
      planned.plan.queue.length ≤ (2 : Half).toNat) :=
  ⟨heard_all (by decide +kernel), clean_all (by decide +kernel), by decide +kernel⟩

theorem witness_read_counters : (23 : Half).toNat < 24 ∧ 2 ≤ (2 : Half).toNat := by decide

/-- Some bits of table memory flipped; 1872 and 1943 are bits 0 and 71 of the low word of axis entry 0 (part 13, word 26). -/
def flipped (l : List Nat) : State := live.setMem { live.mem with flips := l }

theorem witness_ecc :
    (∀ x ∈ [(flipped [1943], w2, 2), (flipped [1872, 1943], w2, 2), (markUnreadable 36 live, w2, 2)], Heard x.1 x.2.1 x.2.2) ∧
    (∀ s ∈ [flipped [1943], flipped [1872, 1943]], MemoryCanonical s) ∧
    (partMarked (flipped [1943]) 13 = false ∧ wordFlips (flipped [1943]).mem.flips 26 = [71] ∧ wordFlips (flipped [1943]).mem.flips 27 = [] ∧
      wordFlips (flipped [1872, 1943]).mem.flips 26 = [0, 71] ∧ wordFlips (flipped [1872, 1943]).mem.flips 27 = [] ∧
      (markUnreadable 36 live).mgmt.unreadable.contains 36 = true) :=
  ⟨heard_all (by decide +kernel), canonical_all (by decide +kernel), by decide +kernel⟩

/-- The scrub at a part, bits 3 and 70 of its low word flipped. -/
def scrubbing (n : Nat) (s : State) : State :=
  (s.setMem { s.mem with flips := [144 * n + 3, 144 * n + 70] }).setMgmt { s.mgmt with scrub := n }

/-- Each owner's first and last part: origin, PARAM, axis, term, zone, course, PLAN; slot 0 is used by `planned`, slot 4,104 is free. -/
theorem witness_owners :
    (∀ x ∈ [0, 7, 8, 12, 13, 36, 37, 68, 69, 196, 197, 708, 709, 4813].map fun n => (scrubbing n planned, n), TwoBits x.1 x.2) ∧
    (∀ s ∈ [scrubbing 13 planned, scrubbing 4813 planned], MemoryCanonical s) ∧
    (∃ q ∈ planned.plan.queue, q.slot = 0) ∧ (planned.plan.queue.all (·.slot != 4104) && planned.plan.bound.all (·.slot != 4104)) = true ∧
    ((scrubbing 37 (inMode .lay planned)).mgmt.scrub = 37 ∧ (inMode .lay planned).ctl.mode ≠ .standby ∧ (0 : Nat) < 32) :=
  ⟨twoBits_all (by decide +kernel), canonical_all (by decide +kernel), ⟨_, List.mem_cons_self .., rfl⟩, by decide +kernel, by decide +kernel⟩

/-- R178: the last PLAN slot is read, then ORIGIN 0, and with it the pass is counted. -/
theorem test_scrub_pass :
    (scrubStep (live.setMgmt { live.mgmt with scrub := 4813 })).mgmt.passes = 0 ∧
    (scrubStep (scrubStep (live.setMgmt { live.mgmt with scrub := 4813 }))).mgmt.passes = 1 := by decide +kernel

theorem witness_unknown_operation : 15 ≤ (15 : Byte).toNat ∧ 7 ≤ (7 : BitVec 4).toNat := by decide

/-- Replies that wait. -/
def waiting (n : Nat) : State := live.setMgmt { live.mgmt with
  replies := List.replicate n { dst := 3, tag := 0, op := 1, code := .ok, status := 0, second := false, data := 0 } }

/-- A PROBE with 15 replies waiting and a RESET with 16; a sender of no origin, and one that asks for level 3. -/
theorem witness_unheard :
    (Synced .up (waiting 15) ∧ (waiting 15).ring.ownAddr ≠ 0 ∧ asks (.probe w0 5 0) = some (w0, 3, 2) ∧
      16 < (waiting 15).mgmt.replies.length + 2 ∧ (waiting 14).mgmt.replies.length + 2 ≤ 16 ∧
      asks (.ringReset w0) = some (w0, 14, 0) ∧ (waiting 16).mgmt.replies.length + 0 ≤ 16 ∧
      asks (.unknownOp w0 15 0 0 0 0) = some (w0, 15, 1)) ∧
    TableClean (waiting 14) ∧ originOf (waiting 14) 9 = none ∧ (originOf (waiting 14) w0.src).isSome = true ∧
    2 < ({ w0 with level := 3 } : Sender).level.toNat := by
  refine ⟨by simp only [Synced]; decide +kernel, (clean_all (l := [waiting 14]) (by decide +kernel) _ List.mem_cons_self).1, ?_⟩
  decide +kernel

/-- R166: a PROBE that would make a seventeenth reply is dropped; R163: without an origin both its replies are REFUSED_LEVEL. -/
theorem test_unheard :
    gives (.probe w0 5 0) (waiting 15) (fun t => t.mgmt.dropped == 1 && t.mgmt.replies.length == 15) = true ∧
    gives (.probe { w0 with src := 9 } 5 0) live (fun t => t.mgmt.replies.map (·.code) == [.refusedLevel, .refusedLevel]) = true ∧
    gives (.restart { w0 with level := 3 }) live (fun t => t.mgmt.replies.map (·.code) == [.badValue]) = true := by decide +kernel

theorem witness_probe : (255 : Half).toNat < 256 ∧ (63 : Half).toNat < 64 ∧ 64 ≤ (64 : Half).toNat ∧ 256 ≤ (256 : Half).toNat := by decide

/-- Zone 0 present with DPL 2 and no term, zone 63 present with DPL 0, term 31 and suspended. -/
def zoned : State :=
  let s := withPart 69 (packPart [(1, 0x23), (1, 255)]) (withPart 195 (packPart [(1, 0x03), (1, 31)]) live)
  s.setGuard { s.guard with suspended := [63] }

theorem zoned_clean : ∀ s ∈ [zoned, boom, tracked .valid zoned], TableClean s ∧ ∀ n, PartClean s n := clean_all (by decide +kernel)

theorem witness_scan : (∀ x ∈ [(zoned, w2, 2), (boom, w2, 2)], Heard x.1 x.2.1 x.2.2) ∧
    (24 ≤ (24 : Half).toNat ∧ (23 : Half).toNat < 24 ∧ 256 < (257 : Half).toNat ∧ (256 : Half).toNat ≤ 256 ∧ (4 : Byte).toNat ≤ 4 ∧
      (2 : Nat) < (3 : Byte).toNat ∧ (63 : Half).toNat < 64 ∧ zoned.guard.suspended.contains (63 : Half).toNat = true ∧
      (axisRec (peekPart boom (13 + (0 : Half).toNat))).present = 1 ∧ 3 = min (24 - 1) ((3 : Half).toNat + ((1 : Half).toNat - 1))) ∧
    (field (peekPart boom 13) 0 1 = 1 ∧ field (peekPart boom 14) 0 1 = 0 ∧ (peekPart zoned 69).getLsbD 0 = true ∧
      (peekPart zoned 71).getLsbD 0 = false ∧ 63 ∈ zoned.guard.suspended ∧ 62 ∉ zoned.guard.suspended) :=
  ⟨heard_all (by decide +kernel), by decide +kernel, by decide +kernel⟩

/-- Scans of the zones: upward from 62 for a suspended one, downward from 2 for a present one, upward from 1 for one that is poisoned,
and of the axes for an absent entry, in four of which the second is the last examined. -/
theorem test_scan :
    gives (.scan w2 5 62 4 1 3) zoned (fun t => t.mgmt.replies.map (·.data) == [packPart [(1, 1), (1, 0), (2, 63), (2, 2)]]) = true ∧
    gives (.scan w2 5 2 8 0xFF 1) zoned (fun t => t.mgmt.replies.map (·.data) == [packPart [(1, 1), (1, 0), (2, 0), (2, 5)]]) = true ∧
    gives (.scan w2 5 1 2 1 4) zoned (fun t => t.mgmt.replies.map (·.data) == [packPart [(1, 0), (1, 0), (2, 2), (2, 0)]]) = true ∧
    gives (.scan w2 3 0 4 1 2) boom (fun t => t.mgmt.replies.map (·.data) == [packPart [(1, 1), (1, 0), (2, 1), (2, 2)]]) = true := by
  decide +kernel

/-- The merged part of a full mask is the data written. -/
theorem merged_full (s : State) (n : Nat) (d : Part) : mergedWith s n d 0xFFFF = d := by
  unfold mergedWith mergePart
  rw [show maskBits (0xFFFF : Half) = BitVec.allOnes 128 by decide +kernel]
  simp only [BitVec.not_allOnes, BitVec.and_zero, BitVec.zero_or, BitVec.and_allOnes]

/-- Address 126 with level 2 is valid beside the others; level 3 is not; entry 0 is the one entry of level 0 (R162). -/
theorem witness_write_origin : (∀ x ∈ [(live, w0, 0), (live, w1, 1)], Heard x.1 x.2.1 x.2.2) ∧ (∀ s ∈ [live], MemoryCanonical s) ∧
    ((7 : Half).toNat < 8 ∧ originRec 0x027E01 = { present := 1, addr := 126, level := 2 } ∧ (originRec 0x037E01).level = 3 ∧
      (originRec (peekPart live 0)).present = 1 ∧ (originRec (peekPart live 0)).level = 0 ∧
      (originRec (peekPart live 1)).addr = 3 ∧ 8 ≤ (8 : Half).toNat) :=
  ⟨heard_all (by decide +kernel), canonical_all (by decide +kernel), by decide +kernel⟩

theorem witness_write_param : (4 : BitVec 3).toNat < 5 ∧ (if (4 : BitVec 3) = 4 then 0 else 1) < 1 ∧
    1 ≤ (if (3 : BitVec 3) = 4 then 0 else 1) ∧ (0x0 : Part).getLsbD 16 = false ∧ (0xFFFF : Half) ≠ 0 := by decide

/-- Rate 5 in place of 3, the ages at their defaults (R86). -/
theorem witness_line_settings :
    (∀ x ∈ [(live, w1, 1), (looped (seeking 0), w1, 1)], Heard x.1 x.2.1 x.2.2) ∧
    (live.params.trkLoop = false ∧ (mergedWith live 11 (5 ||| 0x10000) (1 ||| 4)).getLsbD 17 = false ∧
      (min 5 (field (mergedWith live 11 (5 ||| 0x10000) (1 ||| 4)) 0 1)) = 5 ∧
      min 5 (field (mergedWith live 11 (0 ||| 0x10000) (0 ||| 4)) 0 1) = live.params.rate ∧ live.params.rate = 3 ∧
      (looped (seeking 0)).line.state = .lost ∧ (looped (seeking 0)).params.trkLoop = true ∧
      (inMode .lay (looped (seeking 0))).ctl.mode ≠ .standby ∧ (looped (seeking 0)).line.running = true ∧
      (looped (seeking 0)).ctl.mode = .standby ∧ live.line.state ≠ .lost) :=
  ⟨heard_all (by decide +kernel), by decide +kernel⟩

/-- A COARSE entry of step 100 and slow step 20 at address 126, and an entry that is not present (R150). -/
theorem witness_write_axis : (∀ x ∈ [(live, w1, 1), (live, w2, 2), (inMode .guard live, w1, 1)], Heard x.1 x.2.1 x.2.2) ∧
    ((∀ j < 24, axisUnreadable live j = false) ∧ (23 : Half).toNat < 24 ∧ live.ctl.mode = .standby ∧ (axisRec 0).present = 0 ∧
      axisRec (packPart [(1, 1), (1, 126), (1, 1), (1, 0), (4, 100), (4, 20)]) =
        { present := 1, addr := 126, role := 1, a := 100, b := 20 } ∧ roleOfCode 1 = some .coarse ∧
      (126 : Nat) ≠ live.ring.ownAddr.toNat ∧ (∀ j < 24, live.axis.index[j]?.join = none) ∧
      (inMode .guard live).ctl.mode ≠ .standby ∧ 1 < (axisRec 2).present ∧ 24 ≤ (24 : Half).toNat ∧
      live.axis.index[0]?.join ≠ some { addr := 126, role := .coarse }) :=
  ⟨heard_all (by decide +kernel), by decide +kernel⟩

/-- The reply code of a full WRITE to entry 0. -/
def axisCode (s : State) (d : Part) : Option (List ReplyCode) := match exec (.writeAxis w1 0 0 0xFFFF d) s with
  | .next t => some (t.mgmt.replies.map (·.code))
  | _ => none

/-- Entry 7 a FINE_X at address 50, with C_x at −300; eight COARSE entries at addresses 30 to 37, from entry 10 on. -/
def fineTaken : State := (withEntry 7 50 .fineX live).setStab { live.stab with c := ⟨-300, 0, 0, 0⟩ }
def coarseTaken : State := (List.range 8).foldl (fun s j => withEntry (10 + j) (BitVec.ofNat 8 (30 + j)) .coarse s) live

/-- R150: an address taken, a role taken, the own address, a ninth COARSE, a slow step above the step, a stroke below |C|; and the
same stroke at |C|, an eighth COARSE. -/
theorem test_axis_invalid :
    (axisCode fineTaken (packPart [(1, 1), (1, 50), (1, 1), (1, 0), (4, 100), (4, 20)]) = some [.badValue] ∧
      axisCode fineTaken (packPart [(1, 1), (1, 51), (1, 2), (1, 0), (4, 1000), (4, 20)]) = some [.badValue] ∧
      axisCode live (packPart [(1, 1), (1, 1), (1, 1), (1, 0), (4, 100), (4, 20)]) = some [.badValue] ∧
      axisCode coarseTaken (packPart [(1, 1), (1, 50), (1, 1), (1, 0), (4, 100), (4, 20)]) = some [.badValue] ∧
      axisCode live (packPart [(1, 1), (1, 50), (1, 1), (1, 0), (4, 100), (4, 101)]) = some [.badValue]) ∧
    (axisCode (fineTaken.setAxis live.axis) (packPart [(1, 1), (1, 50), (1, 2), (1, 0), (4, 299), (4, 20)]) = some [.badValue] ∧
      axisCode (fineTaken.setAxis live.axis) (packPart [(1, 1), (1, 50), (1, 2), (1, 0), (4, 300), (4, 20)]) = some [.ok] ∧
      axisCode (coarseTaken.setAxis { coarseTaken.axis with index := coarseTaken.axis.index.setIfInBounds 17 none })
        (packPart [(1, 1), (1, 50), (1, 1), (1, 0), (4, 100), (4, 20)]) = some [.ok]) := by decide +kernel

/-- Zone 63 of `zoned` names term 31 with DPL 0 and zone 0 names none; condition 13 is the last (R124). -/
theorem witness_write_term : (∀ x ∈ [(zoned, w1, 1), (zoned, w0, 0)], Heard x.1 x.2.1 x.2.2) ∧ (∀ s ∈ [zoned], MemoryCanonical s) ∧
    ((31 : Half).toNat < 32 ∧
      termRec (packPart [(1, 1), (1, 0), (1, 23), (1, 0), (1, 13), (1, 1)]) =
        { present := 1, kind := 0, axis := 23, aux := 0, cond := 13, unknownAs := 1, operand := 0 } ∧
      (peekPart zoned (69 + 2 * 63)).getLsbD 0 = true ∧ field (peekPart zoned (69 + 2 * 63)) 1 1 = 31 ∧
      ((peekPart zoned (69 + 2 * 63)).extractLsb' 4 2).toNat = 0 ∧ zoned.params.holdTerm ≠ 31 ∧
      (termRec (packPart [(1, 1), (1, 0), (1, 24)])).axis = 24) :=
  ⟨heard_all (by decide +kernel), canonical_all (by decide +kernel), by decide +kernel⟩

/-- An axis entry 0 with a feedback two or three trains old, and a tracker word two trains old. -/
def sourced (age : Word) : State :=
  let f : Feedback := { Feedback.initial with seen := true, status := 0x0305, aux3 := 35536, stamp := some (7 - age) }
  let s := boom.setAxis { boom.axis with feedback := boom.axis.feedback.setIfInBounds 0 f }
  (s.setRing { s.ring with lastCycle := some 7 }).setTerms { s.terms with tracker := some { word := 0x01C8, stamp := some 5 } }

/-- Terms on the status word, the auxiliary word 3 and the tracker word of `sourced`; a stamp three trains old is not fresh (R127). -/
theorem test_term_value :
    termValue { present := 1, kind := 0, axis := 0, aux := 0, cond := 1, unknownAs := 0, operand := 0x0102 } (sourced 2) = .isTrue ∧
    termValue { present := 1, kind := 1, axis := 0, aux := 3, cond := 6, unknownAs := 0, operand := 10000 } (sourced 2) = .isFalse ∧
    termValue { present := 1, kind := 1, axis := 0, aux := 3, cond := 10, unknownAs := 0, operand := 10000 } (sourced 2) = .isTrue ∧
    termValue { present := 1, kind := 0, axis := 0, aux := 0, cond := 1, unknownAs := 0, operand := 0x0102 } (sourced 3) = .unknown ∧
    termValue { present := 1, kind := 2, axis := 0, aux := 0, cond := 4, unknownAs := 0, operand := 0x01C8 } (sourced 3) = .isTrue := by
  decide +kernel

/-- Zone 0 of `zoned` has DPL 2, zone 63 DPL 0; a written DPL 1 lies under level 2 (R107, R108). -/
theorem witness_write_zone : (∀ x ∈ [(zoned, w2, 2)], Heard x.1 x.2.1 x.2.2) ∧
    (((True : Prop) ↔ (peekPart zoned 69).getLsbD 0 = true → 2 ≤ ((peekPart zoned 69).extractLsb' 4 2).toNat) ∧
      ((False : Prop) ↔ (peekPart zoned 195).getLsbD 0 = true → 2 ≤ ((peekPart zoned 195).extractLsb' 4 2).toNat)) ∧
    (((True : Prop) ↔ ((0xFF29 : Part).extractLsb' 4 2).toNat ≤ 2 ∧ (field 0xFF29 1 1 ≤ 31 ∨ field 0xFF29 1 1 = 255) ∧
        ((0xFF29 : Part).extractLsb' 1 3).toNat ≤ 4 ∧ ((0xFF29 : Part).getLsbD 0 = true → ((0xFF29 : Part).extractLsb' 1 3).toNat ≠ 0)) ∧
      ((False : Prop) ↔ ((0x2029 : Part).extractLsb' 4 2).toNat ≤ 2 ∧ (field 0x2029 1 1 ≤ 31 ∨ field 0x2029 1 1 = 255) ∧
        ((0x2029 : Part).extractLsb' 1 3).toNat ≤ 4 ∧ ((0x2029 : Part).getLsbD 0 = true → ((0x2029 : Part).extractLsb' 1 3).toNat ≠ 0))) ∧
    ((True : Prop) ↔ 2 ≤ ((0xFF29 : Part).extractLsb' 4 2).toNat) ∧ ((False : Prop) ↔ 2 ≤ ((0xFF19 : Part).extractLsb' 4 2).toNat) :=
  ⟨heard_all (by decide +kernel), by decide +kernel⟩

/-- Parts of zone 0 of `zoned` poisoned, the cause with them. -/
def poisoned (l : List Nat) : State := (zoned.setGuard { zoned.guard with poisoned := l }).setCtl
  { zoned.ctl with conditions := { zoned.ctl.conditions with zoneEcc := true } }

/-- Part 0 poisoned, part 1 alone, both: the level 0 test, and part 1 written blind or beside a part 0 of DPL 2. -/
theorem witness_poisoned_zone :
    (∀ x ∈ [(poisoned [69], w0, 0), (poisoned [69, 70], w1, 1), (poisoned [70], w2, 2)], Heard x.1 x.2.1 x.2.2) ∧
    (∀ s ∈ [poisoned [69], poisoned [70], poisoned [69, 70]], MemoryCanonical s) ∧
    (69 ∈ (poisoned [69]).guard.poisoned ∧ 70 ∉ (poisoned [69]).guard.poisoned ∧ 70 ∈ (poisoned [69, 70]).guard.poisoned ∧
      69 ∉ (poisoned [70]).guard.poisoned) ∧
    PartClean (poisoned [69]) 70 ∧ PartClean (poisoned [70]) 69 ∧
    ((0x7FFF : Half) ≠ 0xFFFF ∧ ((peekPart (poisoned [70]) 69).extractLsb' 4 2).toNat = 2 ∧ field 0xFF29 1 1 = 255 ∧
      32 ≤ field 0x2029 1 1 ∧ field 0x2029 1 1 ≠ 255 ∧ ((0xFF19 : Part).extractLsb' 4 2).toNat = 1) := by
  unfold PartClean
  exact ⟨heard_all (by decide +kernel), canonical_all (by decide +kernel), by decide +kernel⟩

/-- R120: a full rewrite by level 0 ends the poison and the cause, a partial one is a MEMORY_ERROR; level 1 is refused. -/
theorem test_poisoned_zone :
    gives (.writeZone w0 0 0 0xFFFF 0xFF29) (poisoned [69]) (fun t =>
      t.guard.poisoned == [] && !t.ctl.conditions.zoneEcc && t.mgmt.replies.map (·.code) == [.ok]) = true ∧
    gives (.writeZone w0 0 0 0x7FFF 0xFF29) (poisoned [69]) (fun t =>
      t.guard.poisoned == [69] && t.ctl.has .zoneEcc && t.mgmt.replies.map (·.code) == [.memoryError]) = true ∧
    gives (.writeZone w1 0 0 0xFFFF 0xFF29) (poisoned [69]) (fun t => t.mgmt.replies.map (·.code) == [.refusedLevel]) = true := by
  decide +kernel

/-- Course 22 is present and named by two records; course 0 is not (R4). -/
def built : State := withPart 241 (packPart [(1, 1), (1, 31)]) planned

theorem witness_write_course : (∀ x ∈ [(built, w1, 1), (built, w2, 2)], Heard x.1 x.2.1 x.2.2) ∧
    (∀ s ∈ [built, markUnreadable 242 built], MemoryCanonical s) ∧ (∀ s ∈ [built], TableClean s ∧ ∀ n, PartClean s n) ∧
    (((True : Prop) ↔ 0 < refCount built 22 ∧ (peekPart built 241).getLsbD 0 = true ∧ (0x0010 : Half) &&& 0xFFF1 ≠ 0) ∧
      ((False : Prop) ↔ 0 < refCount built 22 ∧ (peekPart built 241).getLsbD 0 = true ∧ (0x0002 : Half) &&& 0xFFF1 ≠ 0)) ∧
    (((True : Prop) ↔ field 0x1F01 1 1 ≤ 31 ∨ field 0x1F01 1 1 = 255) ∧ ((False : Prop) ↔ field 0x2001 1 1 ≤ 31 ∨ field 0x2001 1 1 = 255)) :=
  ⟨heard_all (by decide +kernel), canonical_all (by decide +kernel), clean_all (by decide +kernel), by decide +kernel⟩

/-- A part of a course by its marking: unreadable, or clean beside an unreadable one. -/
theorem witness_unreadable_course :
    (∀ x ∈ [(markUnreadable 242 built, w1, 1), (markUnreadable 709 live, w1, 1)], Heard x.1 x.2.1 x.2.2) ∧
    ((markUnreadable 242 built).mgmt.unreadable.contains 242 = true ∧ (markUnreadable 242 built).mgmt.unreadable.contains 241 = false ∧
      0 < refCount (markUnreadable 242 built) 22 ∧ refCount (markUnreadable 242 live) 22 = 0 ∧ (0x7FFF : Half) ≠ 0xFFFF) ∧
    PartClean (markUnreadable 242 built) 241 := by
  unfold PartClean
  exact ⟨heard_all (by decide +kernel), by decide +kernel⟩

/-- R5: with its other part alone in error a partial write to part 0 is a MEMORY_ERROR; a full one stores, when no record names it. -/
theorem test_unreadable_course :
    gives (.writeCourse w1 0 22 0x7FFF 1) (markUnreadable 242 built) (fun t => t.mgmt.replies.map (·.code) == [.memoryError]) = true ∧
    gives (.writeCourse w1 0 22 0xFFFF 1) (markUnreadable 242 live) (fun t => t.mgmt.replies.map (·.code) == [.ok]) = true := by
  decide +kernel

/-! ### Witnesses: plan, modes, zones, stations, resets -/

def planBody (lay length : Nat) : Part := packPart [(4, lay), (1, 255), (1, 5), (3, 0), (3, 0), (2, 35999), (2, length)]

/-- A queue of 4,096 records. -/
def deep : State := live.setPlan { live.plan with
  queue := (List.range 4096).map fun n => { lay := n + 1, course := 0, failed := false, reissue := 0, slot := n }, highest := 4096 }

theorem witness_append : (∀ x ∈ [(planned, w1, 1), (planned, w2, 2)], Heard x.1 x.2.1 x.2.2) ∧ Heard deep w1 1 ∧
    (planRec (planBody 8 40000) =
        { lay := 8, course := 255, order := 1, cut := 1, glue := 0, dx := 0, dy := 0, yaw := 35999, length := 40000 } ∧
      ((False : Prop) ↔ (8 : Nat) ≤ planned.plan.highest ∨ (∃ q ∈ planned.plan.queue, 8 ≤ q.lay) ∨ ∃ b ∈ planned.plan.bound, b.lay = 8) ∧
      ((True : Prop) ↔ (7 : Nat) ≤ planned.plan.highest ∨ (∃ q ∈ planned.plan.queue, 7 ≤ q.lay) ∨ ∃ b ∈ planned.plan.bound, b.lay = 7) ∧
      (planRec (planBody 8 40001)).length = 40001 ∧ planned.plan.queue.length < 4096) ∧
    4096 ≤ deep.plan.queue.length ∧ deep.plan.highest < 4097 ∧ (∀ q ∈ deep.plan.queue, q.lay < 4097) ∧ deep.plan.bound = [] :=
  ⟨heard_all (by decide +kernel), heard_of rfl, by decide +kernel, by simp [deep, State.setPlan], by decide +kernel,
   fun q hq => by simp [deep, State.setPlan] at hq; obtain ⟨a, ha, rfl⟩ := hq; simp; omega, rfl⟩

theorem witness_flush_and_skip : layRising planned.plan.queue ∧ layRising live.plan.queue ∧ live.plan.queue = [] ∧
    (0xFFFFFFFF : Word) ≠ 0 ∧ (∃ b ∈ planned.plan.bound, b.lay = (6 : Word).toNat) ∧
    (∀ b ∈ planned.plan.bound, b.lay ≠ (7 : Word).toNat) ∧ (∀ q ∈ planned.plan.queue, q.lay ≠ (8 : Word).toNat) ∧
    (∀ b ∈ planned.plan.bound, b.lay ≠ (8 : Word).toNat) ∧
    planned.plan.queue.head? = some ⟨5, 22, false, 2, 0⟩ ∧ (⟨7, 44, true, 3, 3⟩ : QueueEntry) ∈ planned.plan.queue := by
  unfold layRising; decide +kernel

/-- A VALID tracker, every role present, the COARSE entry seen, every part clean. -/
def equipped : State :=
  let s := [(0, Role.coarse), (1, .fineX), (2, .fineY), (3, .fineZ), (4, .fineW), (5, .feed), (6, .saw), (7, .glue), (8, .shuttle),
    (9, .flipper), (10, .gripper)].foldl (fun s c => withEntry c.1 (BitVec.ofNat 8 (20 + c.1)) c.2 s) (tracked .valid live)
  s.setAxis { s.axis with feedback := s.axis.feedback.setIfInBounds 0 { Feedback.initial with seen := true } }

/-- An entry of a role, as a computation over the 24 indices. -/
def entryOfRoleB (s : State) (r : Role) : Bool :=
  (List.range 24).any fun i => match s.axis.index[i]?.join with | some k => k.role == r && !axisUnreadable s i | none => false

/-- `equipped` with a standing violation, an active cause (R183). -/
def violated : State := equipped.setGuard { equipped.guard with outcome := ⟨true, false, false, some 0⟩ }

theorem witness_modes : (∀ x ∈ [(equipped, w1, 1), (live, w1, 1), (violated, w1, 1)], Heard x.1 x.2.1 x.2.2) ∧
    (equipped.ctl.mode = .standby ∧ equipped.line.state = .valid ∧
      equipped.axis.index[0]?.join = some { addr := 20, role := .coarse } ∧ axisUnreadable equipped 0 = false ∧
      ([Role.fineX, .fineY, .fineZ, .fineW, .feed, .saw, .glue, .shuttle, .flipper, .gripper].all (entryOfRoleB equipped)) = true ∧
      (∀ i < 24, 0 < i → (equipped.axis.index[i]?.join).map (·.role) ≠ some .coarse) ∧ (feedbackOf equipped 0).seen = true ∧
      equipped.ctl.recovery = false ∧ equipped.guard.outcome.violation = false ∧ equipped.guard.poisoned = [] ∧ termCause equipped = false ∧
      live.line.state ≠ .valid) ∧
    ((inMode .guard equipped).ctl.mode = .guard ∧ (inMode .lay equipped).ctl.mode = .lay ∧ (inMode .hold equipped).ctl.mode.held = true ∧
      violated.guard.outcome.violation = true ∧ modeAfter (.modeGuard w1) violated = some .hold ∧
      modeAfter (.modeGuard w1) equipped = some .guard) :=
  ⟨heard_all (by decide +kernel), by decide +kernel, by decide +kernel⟩

def heldFor (m : Mode) (c : Conditions) : State := live.setCtl { live.ctl with mode := .hold, ret := some m, conditions := c }

theorem witness_hold_resume_recover :
    (∀ x ∈ [(inMode .guard live, w1, 1), (live, w1, 1), (live, w2, 2), (heldFor .lay ⟨false, false, false, false⟩, w1, 1),
      (heldFor .guard ⟨true, false, false, false⟩, w0, 0)], Heard x.1 x.2.1 x.2.2) ∧
    ((inMode .lay live).ctl.mode = .lay ∧ live.ctl.mode = .standby ∧
      (heldFor .lay ⟨false, false, false, false⟩).ctl.mode = .hold ∧ (heldFor .lay ⟨false, false, false, false⟩).ctl.ret = some .lay ∧
      (heldFor .guard ⟨true, true, false, false⟩).ctl.conditions ≠ ⟨true, false, false, false⟩) :=
  ⟨heard_all (by decide +kernel), by decide +kernel⟩

/-- All zone parts clean, VALID; zone 0 of `zoned` is a present KEEP_OUT without a term, box (0, 0, 0) to (15, 15, 15). -/
theorem witness_evaluation : (TableClean (tracked .valid zoned) ∧ ∀ n, PartClean (tracked .valid zoned) n) ∧
    ((tracked .valid zoned).line.state = .valid ∧ termCause (tracked .valid zoned) = false ∧
      (peekPart zoned 69).getLsbD 0 = true ∧ ((peekPart zoned 69).extractLsb' 1 3).toNat = 1 ∧ field (peekPart zoned 69) 1 1 = 255 ∧
      0 ∉ zoned.guard.suspended ∧ (zoneRec (peekPart zoned 69) (peekPart zoned 70)).box = ⟨⟨0, 0, 0, 0⟩, ⟨15, 15, 15, 0⟩⟩ ∧
      (inMode .lay zoned).ctl.mode.held = false ∧ zoned.ctl.recovery = false ∧ zoned.guard.run < 9 ∧
      (zoned.setGuard { zoned.guard with run := 9 }).guard.run = 9 ∧
      (zoned.setCtl { zoned.ctl with recovery := true }).ctl.recovery = true) :=
  ⟨zoned_clean _ (List.mem_cons_of_mem _ (List.mem_cons_of_mem _ List.mem_cons_self)), by decide +kernel⟩

def poisoned195 : State := zoned.setGuard { zoned.guard with poisoned := [195] }

theorem witness_suspend :
    (∀ x ∈ [(zoned, w2, 2), (zoned, w0, 0), (zoned, w1, 1), (poisoned195, w0, 0), (poisoned195, w2, 2)], Heard x.1 x.2.1 x.2.2) ∧
    (64 ≤ (64 : Half).toNat ∧ (63 : Half).toNat < 64 ∧ (peekPart zoned (69 + 2 * 1)).getLsbD 0 = false ∧
      (peekPart zoned (69 + 2 * 63)).getLsbD 0 = true ∧ ((peekPart zoned (69 + 2 * 63)).extractLsb' 4 2).toNat < 2 ∧
      2 ≤ ((peekPart zoned (69 + 2 * 0)).extractLsb' 4 2).toNat ∧ poisoned195.guard.poisoned.contains (69 + 2 * 63) = true) :=
  ⟨heard_all (by decide +kernel), by decide +kernel⟩

def stalledAs (c : Stall) (s : State) : State := s.setTrack { s.track with flipper := { s.track.flipper with stall := c } }

/-- Entry 4 of `stations` is the flipper's; entry 20 a second one, read when entry 4 is unreadable. -/
theorem witness_retry :
    (∀ x ∈ [(handing, w1, 1), (handing, w2, 2), (stalledAs .mismatch stations, w1, 1)], Heard x.1 x.2.1 x.2.2) ∧
    (6 ≤ (6 : Half).toNat ∧ stationOfCode (4 : Half).toNat = some .flipper ∧
      (handing.track.station .flipper).stall = .none ∧ ((stalledAs .timeout handing).track.station .flipper).stall = .timeout ∧
      (handing.track.station .flipper).inflight = some (inFlight .handover) ∧ (handing.track.station .flipper).lastNum = 255 ∧
      ((stalledAs .fault stations).track.station .flipper).inflight = none ∧
      ((stalledAs .mismatch stations).track.station .flipper).stall = .mismatch) ∧
    (stations.axis.index[4]?.join = some { addr := 24, role := .flipper } ∧ axisUnreadable stations 4 = false ∧
      axisUnreadable (markUnreadable 17 stations) 4 = true ∧ (∀ j < 4, (stations.axis.index[j]?.join).map (·.role) ≠ some .flipper) ∧
      axisUnreadable (markUnreadable 17 (withEntry 20 40 .flipper stations)) 20 = false ∧
      (withEntry 20 40 .flipper stations).axis.index[20]?.join = some { addr := 40, role := .flipper } ∧
      (feedbackOf stations 4).seen = false ∧ stations.track.tickets = [] ∧
      (feedbackOf (stations.setAxis { stations.axis with
        feedback := stations.axis.feedback.setIfInBounds 4 { Feedback.initial with seen := true } }) 4).seen = true ∧
      (∀ j < 24, (live.axis.index[j]?.join).map (·.role) ≠ some .flipper)) :=
  ⟨heard_all (by decide +kernel), by decide +kernel, by decide +kernel⟩

/-- R45: a MISMATCH at the flipper is judged on the readable entry 20, though entry 4 was seen with a block there. -/
theorem test_retry_report :
    gives (.stationRetry w1 4)
      (markUnreadable 17 (withEntry 20 40 .flipper ((stalledAs .mismatch stations).setAxis { stations.axis with
        feedback := (stations.axis.feedback.setIfInBounds 4 { Feedback.initial with seen := true, status := 4 }).setIfInBounds 20
          { Feedback.initial with seen := true } })))
      (fun t => t.mgmt.replies.map (·.code) == [.ok]) = true := by decide +kernel

/-- Two unreadable FLIPPER entries, 4 and 20, that of index 20 captured last, with no block seen; entry 4 saw one. -/
def twoReports (recent : List Nat) : State :=
  markUnreadable 33 (markUnreadable 17 (withEntry 20 40 .flipper ((stalledAs .mismatch stations).setAxis { stations.axis with
    recent := recent
    feedback := (stations.axis.feedback.setIfInBounds 4 { Feedback.initial with seen := true, status := 4 }).setIfInBounds 20
      { Feedback.initial with seen := true } })))

theorem witness_retry_unreadable : Heard (twoReports [20, 4]) w1 1 ∧
    ((twoReports [20, 4]).track.station .flipper).stall = .mismatch ∧
    (∀ j < 24, ((twoReports [20, 4]).axis.index[j]?.join).map (·.role) = some .flipper → axisUnreadable (twoReports [20, 4]) j = true) ∧
    ((twoReports [20, 4]).axis.index[20]?.join).map (·.role) = some .flipper ∧
    (feedbackOf (twoReports [20, 4]) 20).seen = true ∧ (twoReports [20, 4]).axis.recent = [] ++ 20 :: [4] ∧
    (∀ j ∈ (twoReports []).axis.recent, (feedbackOf (twoReports []) j).seen = false) :=
  ⟨heard_of (by decide +kernel), by decide +kernel⟩

/-- R45: of the two the report captured last decides, and with none captured the sensor does not agree. -/
theorem test_retry_latest :
    gives (.stationRetry w1 4) (twoReports [20, 4]) (fun t => t.mgmt.replies.map (·.code) == [.ok]) = true ∧
    gives (.stationRetry w1 4) (twoReports [4, 20]) (fun t => t.mgmt.replies.map (·.code) == [.refusedBusy]) = true ∧
    gives (.stationRetry w1 4) (twoReports []) (fun t => t.mgmt.replies.map (·.code) == [.refusedBusy]) = true := by decide +kernel

/-- A ticket at the gripper: `standing` with nothing in flight, `handing` as the subject of a HANDOVER. -/
def standing (st : TicketState) (p : Phase) : State :=
  let s := busyWith .openJaws .gripper st (bound6 live)
  (s.setTrack { s.track with gripper := StationRec.initial }).setLay { s.lay with phase := p }

theorem witness_discard :
    (∀ x ∈ [(standing .held .idle, w1, 1), (live, w1, 1), (live, w2, 2)], Heard x.1 x.2.1 x.2.2) ∧
    (6 ≤ (6 : Half).toNat ∧ stationOfCode (5 : Half).toNat = some .gripper ∧ (live.track.station .gripper).inflight = none ∧
      (live.track.station .gripper).stall = .none ∧ (∀ k ∈ live.track.tickets, k.pos ≠ .gripper) ∧
      ((stalledAs .mismatch live).track.station .flipper).stall ≠ .none) ∧
    ((standing .held .idle).track.tickets.find? (fun t => t.pos = .gripper) = some (ticketAt 1 6 .gripper .held) ∧
      (∀ x ∈ allStations, ((standing .held .idle).track.station x).inflight = none) ∧
      boundOf 6 (standing .held .idle) = some ⟨6, 22, 1, 1, ⟨1, 2, 3, 4⟩⟩ ∧ (standing .held .settle).lay.phase = .settle ∧
      (standing .releasing .release).track.tickets = [ticketAt 1 6 .gripper .releasing]) ∧
    ((handing.track.station .flipper).inflight = some (inFlight .handover) ∧
      handing.track.find (inFlight .handover).ticket = some (ticketAt 1 6 .flipper .handingOver) ∧
      (busyWith .deliver .gripper .held live).track.tickets.find? (fun t => t.pos = .gripper) = some (ticketAt 1 6 .gripper .held) ∧
      ((busyWith .deliver .gripper .held live).track.station .shuttle).inflight = some (inFlight .deliver) ∧
      (inFlight .deliver).ticket = (ticketAt 1 6 .gripper .held).lay) :=
  ⟨heard_all (by decide +kernel), by decide +kernel, by decide +kernel, by decide +kernel⟩

/-- A restart finds two live tickets and their bound records, in the loop test with the transmitter running, or out of it. -/
theorem witness_resets :
    (∀ x ∈ [(crewed, w0, 0), (crewed, w1, 1), (crewed, w2, 2)], Heard x.1 x.2.1 x.2.2) ∧ (∀ s ∈ [live, crewed], MemoryCanonical s) ∧
    PlanOrdered crewed.plan ∧ crewed.params.trkLoop = false ∧ (looped (seeking 0)).params.trkLoop = true ∧ (looped (seeking 0)).line.running = true :=
  ⟨heard_all (by decide +kernel), canonical_all (by decide +kernel), witness_plan_order.1, by decide +kernel⟩

/-- R175: a restart puts both bound records back at the places of their lay numbers. -/
theorem test_restart_reissues :
    gives (.restart w1) crewed (fun t => t.plan.queue.map (·.lay) == [5, 6, 7, 8] && t.plan.bound == []) = true := by decide +kernel

theorem witness_memory_error : (∀ s ∈ [flipped [1872, 1943]], MemoryCanonical s) ∧ 4813 < 4814 ∧ 1 < 2 ∧ 71 < 72 ∧ (71 : Nat) ≠ 0 :=
  ⟨canonical_all (by decide +kernel), by decide⟩

end Sys2Proof.Tests
end

section
/-! SUPPORT. The reference counts of the courses (R3) under the operations of the plan store: the list of the courses that its
records name, and how each operation changes that list and the counts together. -/

namespace Sys2Proof.Machine

variable {s t : State} {p q : Plan}

/-- The courses that the records of the plan store name, one for each record. -/
def Plan.courses (p : Plan) : List Nat := p.queue.map (·.course) ++ p.bound.map (·.course)

/-- R3, as a count in the list of the courses named. -/
theorem refsCounted_iff (p : Plan) : RefsCounted p ↔ ∀ c < 256, p.refs[c]?.getD 0 = p.courses.count c := by
  have h : ∀ c, p.courses.count c =
      (p.queue.filter (fun q => q.course == c)).length + (p.bound.filter (fun b => b.course == c)).length := by
    intro c
    rw [Plan.courses, List.count_append, List.count_eq_countP, List.count_eq_countP, List.countP_map, List.countP_map,
      List.countP_eq_length_filter, List.countP_eq_length_filter]
    rfl
  simp only [RefsCounted, h]

theorem refs_changeRef (p : Plan) (c d : Nat) (f : Nat → Nat) : (p.changeRef c f).refs[d]?.getD 0 =
    if c = d ∧ c < 256 then f (p.refs[c]?.getD 0) else p.refs[d]?.getD 0 := by
  simp only [Plan.changeRef, Vector.getElem?_setIfInBounds]
  by_cases hcd : c = d
  · subst hcd
    by_cases hc : c < 256 <;> simp [hc]
  · simp [hcd]

theorem refs_addRef (p : Plan) (c : Nat) {d : Nat} (hd : d < 256) :
    (p.addRef c).refs[d]?.getD 0 = p.refs[d]?.getD 0 + [c].count d := by
  rw [Plan.addRef, refs_changeRef]
  by_cases h : c = d <;> simp [h, hd]

theorem refs_dropRef (p : Plan) (c : Nat) {d : Nat} (hd : d < 256) :
    (p.dropRef c).refs[d]?.getD 0 = p.refs[d]?.getD 0 - [c].count d := by
  rw [Plan.dropRef, refs_changeRef]
  by_cases h : c = d <;> simp [h, hd]

theorem refs_dropRefs (p : Plan) (l : List QueueEntry) {d : Nat} (hd : d < 256) :
    (p.dropRefs l).refs[d]?.getD 0 = p.refs[d]?.getD 0 - (l.map (·.course)).count d := by
  induction l generalizing p with
  | nil => rfl
  | cons e l ih =>
    have h : (p.dropRefs (e :: l)).refs[d]?.getD 0 = ((p.dropRef e.course).dropRefs l).refs[d]?.getD 0 := rfl
    rw [h, ih, refs_dropRef p _ hd, List.map_cons, List.count_cons, List.count_cons, List.count_nil]
    omega

/-- Records that move within the plan store leave the counts right. -/
theorem RefsCounted.of_perm (h : RefsCounted p) (hr : q.refs = p.refs) (hp : q.courses.Perm p.courses) : RefsCounted q :=
  (refsCounted_iff q).2 fun c hc => by rw [hr, hp.count_eq]; exact (refsCounted_iff p).1 h c hc

/-- One record more, counted. -/
theorem RefsCounted.addRef (h : RefsCounted p) (c : Nat) (hr : q.refs = (p.addRef c).refs)
    (hp : q.courses.Perm (c :: p.courses)) : RefsCounted q :=
  (refsCounted_iff q).2 fun d hd => by
    rw [hr, hp.count_eq, refs_addRef p c hd, (refsCounted_iff p).1 h d hd, List.count_cons, List.count_cons,
      List.count_nil, Nat.zero_add]

/-- Records that have left, counted. -/
theorem RefsCounted.dropRefs (h : RefsCounted p) (l : List QueueEntry) (hr : q.refs = (p.dropRefs l).refs)
    (hp : p.courses.Perm (l.map (·.course) ++ q.courses)) : RefsCounted q :=
  (refsCounted_iff q).2 fun d hd => by
    rw [hr, refs_dropRefs p l hd, (refsCounted_iff p).1 h d hd, hp.count_eq, List.count_append]
    omega

/-- Of a list with distinct keys, the element of one key taken out and put at the front. -/
theorem perm_cons_filter_ne {α : Type} (key : α → Nat) {l : List α} {e : α} (hl : l.Pairwise fun a b => key a ≠ key b)
    (he : e ∈ l) : l.Perm (e :: l.filter (fun x => key x != key e)) := by
  induction l with
  | nil => cases he
  | cons a l ih =>
    obtain ⟨ha, hl⟩ := List.pairwise_cons.1 hl
    rcases List.mem_cons.1 he with rfl | he
    · have : l.filter (fun x => key x != key e) = l := List.filter_eq_self.2 fun x hx => by simpa using (ha x hx).symm
      simp [this]
    · rw [List.filter_cons_of_pos (by simpa using ha e he)]
      exact ((ih hl he).cons a).trans (List.Perm.swap e a _)

theorem perm_insertByLay (e : QueueEntry) (l : List QueueEntry) : (insertByLay e l).Perm (e :: l) := by
  induction l with
  | nil => exact List.Perm.refl _
  | cons q l ih =>
    unfold insertByLay
    split
    · exact List.Perm.refl _
    · exact (ih.cons q).trans (List.Perm.swap e q l)

theorem PlanOrdered.queue_apart (h : PlanOrdered p) : p.queue.Pairwise fun a b => a.lay ≠ b.lay :=
  h.rising.imp fun hab => Nat.ne_of_lt hab

/-! ### The operations of the plan store -/

theorem refs_planAccept (d : Part) (h : RefsCounted s.plan) : RefsCounted (planAccept d s).plan :=
  h.addRef (planRec d).course rfl (by
    simp only [Plan.courses, planAccept, storePart, State.setMem_plan, State.setPlan_plan, addRef_queue, addRef_bound,
      List.map_append, List.map_cons, List.map_nil, List.append_assoc, List.singleton_append]
    exact List.perm_middle)

theorem refs_planFlushFrom (l : Nat) (h : RefsCounted s.plan) : RefsCounted (planFlushFrom l s).plan := by
  refine h.dropRefs (s.plan.queue.filter (fun q => l ≤ q.lay)) rfl ?_
  have hq : s.plan.queue.Perm (s.plan.queue.filter (fun q => l ≤ q.lay) ++ s.plan.queue.filter (fun q => q.lay < l)) := by
    have h := (List.filter_append_perm (fun q : QueueEntry => decide (l ≤ q.lay)) s.plan.queue).symm
    simp only [← decide_not, Nat.not_le] at h
    exact h
  simp only [Plan.courses, planFlushFrom, State.setPlan_plan, dropRefs_queue, dropRefs_bound]
  rw [← List.append_assoc, ← List.map_append]
  exact (hq.map _).append_right _

theorem refs_planRemove {e : QueueEntry} (ho : PlanOrdered s.plan) (he : e ∈ s.plan.queue) (h : RefsCounted s.plan) :
    RefsCounted (planRemove e s).plan :=
  h.dropRefs [e] rfl (((perm_cons_filter_ne (·.lay) ho.queue_apart he).map (·.course)).append_right _)

theorem mem_of_boundOf {l : Nat} {b : BoundEntry} (hb : boundOf l s = some b) : b ∈ s.plan.bound ∧ b.lay = l :=
  ⟨List.mem_of_find?_eq_some hb, by simpa using List.find?_some hb⟩

theorem refs_planLaid (l : Nat) (ho : PlanOrdered s.plan) (h : RefsCounted s.plan) : RefsCounted (planLaid l s).plan := by
  unfold planLaid
  split
  · exact h
  · rename_i b hb
    obtain ⟨hmem, rfl⟩ := mem_of_boundOf hb
    refine h.dropRefs [{ lay := b.lay, course := b.course, failed := false, reissue := 0, slot := 0 }] rfl ?_
    exact (((perm_cons_filter_ne (·.lay) ho.once hmem).map (·.course)).append_left _).trans List.perm_middle

theorem refs_reissue (l : Nat) (c : Bool) (ho : PlanOrdered s.plan) (h : RefsCounted s.plan) :
    RefsCounted (reissue l c s).plan := by
  unfold reissue
  split
  · exact h
  · rename_i b hb
    obtain ⟨hmem, rfl⟩ := mem_of_boundOf hb
    refine h.of_perm rfl ?_
    have hq := (perm_insertByLay (reissueEntry s.params.reissueLimit c b) s.plan.queue).map (·.course)
    have hb := (perm_cons_filter_ne (·.lay) ho.once hmem).map (·.course)
    exact (hq.append_right _).trans (List.perm_middle.symm.trans (hb.symm.append_left _))

theorem refs_bindHead {e : QueueEntry} (g : Target) (ho : PlanOrdered s.plan) (he : e ∈ s.plan.queue)
    (h : RefsCounted s.plan) : RefsCounted (bindHead e g s).plan := by
  refine h.of_perm rfl ?_
  have hq := (perm_cons_filter_ne (·.lay) ho.queue_apart he).map (·.course)
  simp only [Plan.courses, bindHead, State.setPlan_plan, List.map_append, List.map_cons, List.map_nil]
  rw [← List.append_assoc]
  exact (List.perm_append_singleton _ _).trans (hq.symm.append_right _)

theorem refs_reissueAll (ho : PlanOrdered s.plan) (h : RefsCounted s.plan) : RefsCounted (reissueAll s).plan := by
  unfold reissueAll
  generalize s.track.tickets.map (·.lay) = l
  induction l generalizing s with
  | nil => exact h
  | cons a l ih => exact ih (ordered_reissue _ _ ho) (refs_reissue _ _ ho h)

end Sys2Proof.Machine
end

section
/-! SUPPORT. The laws of the brick track (R23 to R26, R66), cut into what the track owes alone (`Track.Sound`) and what the lay
controller owes beside the command in flight at the GRIPPER (`Lay.Fits`), and the moves that keep them: marks, an issue, an
admission, a completion, a departure. -/

namespace Sys2Proof.Machine

variable {s t : State} {l m : Lay} {x y : Track}

/-! ### The lay controller's share -/

/-- R58, R66: an OPEN request is pending in SETTLE only, with room for the as-laid record that it will form. -/
def Lay.Due (l : Lay) : Prop := l.openPending = true → l.phase = .settle ∧ l.asLaid.length < 64

/-- A change of the lay controller that ends no release: no as-laid record is added, a release stays one, and a pending request
stays in its place. -/
structure Lay.Moves (l m : Lay) : Prop where
  laid : m.asLaid.length ≤ l.asLaid.length
  release : l.phase = .release → m.phase = .release
  due : l.Due → m.Due

/-- What the lay controller owes, `b` saying that a command is in flight at the GRIPPER (R66). -/
structure Lay.Fits (l : Lay) (b : Bool) : Prop where
  laid : l.asLaid.length ≤ 64
  due : l.Due
  opening : b = true → l.phase = .release ∧ l.asLaid.length < 64

theorem Lay.Moves.refl (l : Lay) : l.Moves l := ⟨le_rfl, id, id⟩

theorem Lay.Moves.trans {n : Lay} (h : l.Moves m) (h' : m.Moves n) : l.Moves n :=
  ⟨h'.laid.trans h.laid, h'.release ∘ h.release, h'.due ∘ h.due⟩

/-- A move keeps the lay controller's share, also when the GRIPPER's command is taken back. -/
theorem Lay.Fits.moves {b c : Bool} (h : l.Fits b) (hm : l.Moves m) (hc : c = true → b = true) : m.Fits c :=
  ⟨hm.laid.trans h.laid, hm.due h.due,
    fun e => ⟨hm.release (h.opening (hc e)).1, hm.laid.trans_lt (h.opening (hc e)).2⟩⟩

/-- R59: with OPEN in flight no request is pending, so the release that ends leaves none. -/
theorem Lay.Fits.endRelease (h : l.Fits true) (k : Ticket) (u : Bool) : (l.endRelease k u).Fits false := by
  obtain ⟨hp, hl⟩ := h.opening rfl
  refine ⟨by simpa [Lay.endRelease] using hl, fun hd => ?_, by simp⟩
  have := (h.due hd).1
  simp [hp] at this

/-- R58: the request that is granted was due. -/
theorem Lay.Fits.enterRelease {b : Bool} (h : l.Fits b) (hl : l.asLaid.length < 64) : l.enterRelease.Fits true :=
  ⟨h.laid, fun hd => by simp [Lay.enterRelease] at hd, fun _ => ⟨rfl, hl⟩⟩

/-- A new phase other than RELEASE's end, with no request pending. -/
theorem Lay.Moves.of_cleared (ha : m.asLaid = l.asLaid) (hp : m.openPending = false)
    (hr : l.phase = .release → m.phase = .release) : l.Moves m :=
  ⟨ha ▸ le_rfl, hr, fun _ hd => by simp [hp] at hd⟩

/-- A change that leaves phase, request and as-laid queue alone. -/
theorem Lay.Moves.of_eq (ha : m.asLaid = l.asLaid) (hp : m.openPending = l.openPending) (hq : m.phase = l.phase) :
    l.Moves m := ⟨ha ▸ le_rfl, fun h => hq.trans h, fun h hd => by rw [hq, ha]; exact h (hp ▸ hd)⟩

theorem Lay.Moves.of_leave (ha : m.asLaid = l.asLaid) (hp : m.openPending = l.openPending) (hs : l.phase ≠ .settle)
    (hr : l.phase ≠ .release) : l.Moves m :=
  ⟨ha ▸ le_rfl, fun h => absurd h hr, fun h hd => absurd (h (hp ▸ hd)).1 hs⟩

theorem moves_leaveBed (l : Lay) (h : Nat) : l.Moves (l.leaveBed h) := by
  unfold Lay.leaveBed
  split
  · exact .of_cleared rfl rfl fun e => by simp_all
  · exact .of_cleared rfl rfl fun e => by simp_all
  · exact .refl l

theorem moves_onMode (l : Lay) (a b : Mode) (h : Nat) : l.Moves (l.onMode a b h) := by
  unfold Lay.onMode
  split
  · exact .of_eq rfl rfl rfl
  · split
    · exact moves_leaveBed l h
    · exact .refl l

theorem moves_closeGate (l : Lay) : l.Moves l.closeGate := .of_cleared rfl rfl id

theorem moves_countSettle (l : Lay) : l.Moves l.countSettle := by
  unfold Lay.countSettle
  split
  · exact .of_eq rfl rfl rfl
  · exact .refl l

theorem moves_descend (a : Nat) (w : Word) (h : l.phase = .descend) : l.Moves (l.descend a w) := by
  unfold Lay.descend
  split
  · exact .of_cleared rfl rfl fun e => by simp_all
  · exact .of_eq rfl rfl rfl

theorem moves_lift (a b : Nat) (h : l.phase = .lift) : l.Moves (l.lift a b) := by
  unfold Lay.lift
  split
  · exact .of_leave rfl rfl (by simp [h]) (by simp [h])
  · exact .of_eq rfl rfl rfl

/-- R56, R57: the gate opens in SETTLE, with room for the record. -/
theorem moves_openGate (k : Nat) (st : Stab) (hp : l.phase = .settle) (hl : l.asLaid.length < 64) :
    l.Moves (l.openGate k st) := by
  unfold Lay.openGate
  dsimp only
  split
  · exact ⟨le_rfl, id, fun _ _ => ⟨hp, hl⟩⟩
  · exact .of_eq rfl rfl rfl

theorem moves_discardHeld (l : Lay) : l.Moves l.discardHeld := by
  unfold Lay.discardHeld
  split
  · exact .of_leave rfl rfl (by simp_all) (by simp_all)
  · exact .of_leave rfl rfl (by simp_all) (by simp_all)
  · exact .of_cleared rfl rfl fun e => by simp_all
  · exact .of_cleared rfl rfl fun e => by simp_all
  · exact .refl l
  · exact .refl l

/-! ### The track's share -/

/-- The command in flight at a station and the lay number it is for. -/
def Track.job (x : Track) (st : Station) : Option (Cmd × Nat) := (x.station st).inflight.map fun fl => (fl.cmd, fl.ticket)

/-- What the track owes alone (R23 to R26). -/
structure Track.Sound (x : Track) : Prop where
  apart : (x.tickets.map (·.lay)).Nodup
  nine : x.tickets.length ≤ 9
  room : ∀ st, (x.at st).length ≤ capacity st
  acting : ∀ st c n, x.job st = some (c, n) → c.station = st ∧ ∃ k ∈ x.tickets, k.lay = n ∧ Acting c k
  ahead : ∀ st c n dst, x.job st = some (c, n) → bringsTo c = some dst → (x.at dst).length < capacity dst
  releasing : ∀ k ∈ x.tickets, k.state = .releasing → ∃ c, x.job .gripper = some (c, k.lay)
  held : ∀ k ∈ x.tickets, k.state = .held → k.pos = .gripper

theorem job_some {st : Station} {c : Cmd} {n : Nat} :
    x.job st = some (c, n) ↔ ∃ fl, (x.station st).inflight = some fl ∧ fl.cmd = c ∧ fl.ticket = n := by
  simp [Track.job, Prod.ext_iff]

/-- The laws of the track, share by share. -/
theorem trackSound_iff (ho : PlanOrdered s.plan) : TrackSound s ↔
    s.track.tickets.map (·.lay) = s.plan.bound.map (·.lay) ∧ s.track.Sound ∧ s.lay.Fits (s.track.job .gripper).isSome := by
  constructor
  · intro h
    refine ⟨h.bound, ⟨?_, h.nine, h.room, ?_, ?_, ?_, h.held⟩, h.laid, h.due, ?_⟩
    · exact h.bound ▸ List.pairwise_map.2 ho.once
    · intro st c n hj
      obtain ⟨fl, hfl, rfl, rfl⟩ := job_some.1 hj
      exact h.acting st fl hfl
    · intro st c n dst hj hd
      obtain ⟨fl, hfl, rfl, rfl⟩ := job_some.1 hj
      exact h.ahead st fl dst hfl hd
    · intro k hk hs
      obtain ⟨fl, hfl, hn⟩ := h.releasing k hk hs
      exact ⟨fl.cmd, job_some.2 ⟨fl, hfl, rfl, hn⟩⟩
    · intro hb
      obtain ⟨⟨c, n⟩, hj⟩ := Option.isSome_iff_exists.1 hb
      obtain ⟨fl, hfl, _⟩ := job_some.1 hj
      exact h.opening fl hfl
  · rintro ⟨hb, h, hl⟩
    refine ⟨hb, h.nine, h.room, fun st fl hfl => ?_, fun st fl dst hfl => ?_, fun k hk hs => ?_, h.held, hl.laid, hl.due,
      fun fl hfl => ?_⟩
    · exact h.acting st _ _ (job_some.2 ⟨fl, hfl, rfl, rfl⟩)
    · exact h.ahead st _ _ dst (job_some.2 ⟨fl, hfl, rfl, rfl⟩)
    · obtain ⟨c, hc⟩ := h.releasing k hk hs
      obtain ⟨fl, hfl, _, hn⟩ := job_some.1 hc
      exact ⟨fl, hfl, hn⟩
    · exact hl.opening (Option.isSome_iff_exists.2 ⟨_, job_some.2 ⟨fl, hfl, rfl, rfl⟩⟩)

/-! ### Records of the stations -/

@[simp] theorem tickets_setStation (x : Track) (st : Station) (r : StationRec) : (x.setStation st r).tickets = x.tickets := by
  cases st <;> rfl

@[simp] theorem counter_setStation (x : Track) (st : Station) (r : StationRec) : (x.setStation st r).counter = x.counter := by
  cases st <;> rfl

@[simp] theorem station_setStation_same (x : Track) (st : Station) (r : StationRec) : (x.setStation st r).station st = r := by
  cases st <;> rfl

theorem station_setStation_ne (x : Track) {st st' : Station} (r : StationRec) (h : st' ≠ st) :
    (x.setStation st r).station st' = x.station st' := by
  cases st <;> cases st' <;> first | rfl | exact absurd rfl h

theorem job_setStation (x : Track) (st st' : Station) (r : StationRec) : (x.setStation st r).job st' =
    if st' = st then r.inflight.map (fun fl => (fl.cmd, fl.ticket)) else x.job st' := by
  by_cases h : st' = st
  · subst h; simp [Track.job]
  · simp [Track.job, station_setStation_ne x r h, h]

@[simp] theorem at_setStation (x : Track) (st st' : Station) (r : StationRec) : (x.setStation st r).at st' = x.at st' := by
  simp [Track.at]

/-- A new record with the same command in flight for the same ticket changes no command. -/
theorem job_setStation_keep (x : Track) (st : Station) {r : StationRec}
    (h : r.inflight.map (fun fl => (fl.cmd, fl.ticket)) = x.job st) : (x.setStation st r).job = x.job := by
  funext st'
  rw [job_setStation, h]
  split <;> simp_all

/-! ### Commands and their tickets -/

/-- The place and the state of a ticket tell the station whose command acts on it. -/
theorem acting_station {c c' : Cmd} {k : Ticket} (h : Acting c k) (h' : Acting c' k) : c.station = c'.station := by
  have hs : ∀ d, Acting d k → match k.state with
      | .feeding => d.station = .feed
      | .cutting | .atSaw | .atFeed => d.station = .saw
      | .gluing => d.station = .glue
      | .loading | .delivering => d.station = .shuttle
      | .handingOver | .atFlipper => d.station = .flipper
      | .releasing => d.station = .gripper
      | .atGlue | .onShuttle | .held => False := by
    intro d hd
    cases d
    case eject =>
      rcases hd with hd | hd <;> obtain ⟨_, hk, _⟩ := hd <;> simp only [hk] <;> rfl
    case drop => obtain ⟨_, hk, _⟩ := hd; simp only [hk]; rfl
    all_goals obtain ⟨_, hk⟩ := hd; simp only [hk]; rfl
  have h1 := hs c h
  have h2 := hs c' h'
  cases hk : k.state <;> simp only [hk] at h1 h2 <;> exact h1.trans h2.symm

/-- Two commands in flight at different stations bring their tickets to different ones. -/
theorem bringsTo_station {c c' : Cmd} {dst : Station} (h : bringsTo c = some dst) (h' : bringsTo c' = some dst) :
    c.station = c'.station := by
  cases c <;> cases c' <;> simp_all [bringsTo, Cmd.station] <;> subst h <;> cases h'

/-- Commands in flight at two stations are for two tickets. -/
theorem Track.Sound.job_apart (h : x.Sound) {st st' : Station} {c c' : Cmd} {n : Nat} (hj : x.job st = some (c, n))
    (hj' : x.job st' = some (c', n)) : st = st' := by
  obtain ⟨rfl, k, hk, rfl, ha⟩ := h.acting _ _ _ hj
  obtain ⟨rfl, k', hk', hn, ha'⟩ := h.acting _ _ _ hj'
  obtain rfl : k' = k := List.inj_on_of_nodup_map h.apart hk' hk hn
  exact acting_station ha ha'

/-! ### Tickets up to their order -/

/-- The number of tickets at a station, with one ticket apart. -/
theorem at_length_of_perm {k : Ticket} {r : List Ticket} (hx : x.tickets.Perm (k :: r)) (st : Station) :
    (x.at st).length = (r.filter (fun a => a.pos == st)).length + if k.pos = st then 1 else 0 := by
  rw [Track.at, (hx.filter _).length_eq]
  by_cases h : k.pos = st <;> simp [h]

theorem nodup_of_perm {k : Ticket} {r : List Ticket} (h : x.Sound) (hx : x.tickets.Perm (k :: r)) :
    (∀ a ∈ r, a.lay ≠ k.lay) ∧ (r.map (·.lay)).Nodup := by
  have hn := (hx.map (·.lay)).nodup_iff.1 h.apart
  rw [List.map_cons, List.nodup_cons] at hn
  exact ⟨fun a ha e => hn.1 (e ▸ List.mem_map_of_mem ha), hn.2⟩

/-- The commands of a station `st` and no other are for the ticket of lay number `n`. -/
def Track.Owns (x : Track) (st : Station) (n : Nat) : Prop := ∀ st' c m, x.job st' = some (c, m) → (st' = st ↔ m = n)

theorem Track.Sound.owns (h : x.Sound) {st : Station} {c : Cmd} {n : Nat} (hj : x.job st = some (c, n)) : x.Owns st n := by
  intro st' c' m hj'
  constructor
  · rintro rfl
    rw [hj] at hj'
    simp_all
  · rintro rfl
    exact h.job_apart hj' hj

/-- Where a ticket `k` has turned into `k'` by the issue or the completion of a command of station `st`. -/
structure Track.Turns (st : Station) (k k' : Ticket) (x y : Track) : Prop where
  rest : ∃ r, x.tickets.Perm (k :: r) ∧ y.tickets.Perm (k' :: r)
  lay : k'.lay = k.lay
  jobs : ∀ st', st' ≠ st → y.job st' = x.job st'
  owns : x.Owns st k.lay
  acts : ∀ c n, y.job st = some (c, n) → c.station = st ∧ n = k.lay ∧ Acting c k' ∧
    ∀ dst, bringsTo c = some dst → (y.at dst).length < capacity dst
  place : k'.pos = k.pos ∨ (y.at k'.pos).length ≤ capacity k'.pos ∧
    ∀ st' c n, st' ≠ st → x.job st' = some (c, n) → bringsTo c ≠ some k'.pos
  releasing : k'.state = .releasing → ∃ c, y.job .gripper = some (c, k.lay)
  held : k'.state = .held → k'.pos = .gripper

/-- An issue or a completion keeps what the track owes. -/
theorem Track.Sound.turns {st : Station} {k k' : Ticket} (h : x.Sound) (ht : x.Turns st k k' y) : y.Sound := by
  obtain ⟨r, hx, hy⟩ := ht.rest
  obtain ⟨hne, hnd⟩ := nodup_of_perm h hx
  have hmem : ∀ a ∈ r, a ∈ x.tickets := fun a ha => hx.mem_iff.2 (List.mem_cons_of_mem _ ha)
  have hat : ∀ st', st' ≠ k'.pos ∨ k'.pos = k.pos → (y.at st').length ≤ (x.at st').length := by
    intro st' hst
    rw [at_length_of_perm hx, at_length_of_perm hy]
    split <;> split <;> first | omega | (exfalso; simp_all)
  refine ⟨?_, ?_, fun st' => ?_, fun st' c n hj => ?_, fun st' c n dst hj hd => ?_, fun a ha hs => ?_, fun a ha hs => ?_⟩
  · rw [(hy.map _).nodup_iff, List.map_cons, List.nodup_cons]
    refine ⟨fun hm => ?_, hnd⟩
    obtain ⟨a, ha, e⟩ := List.mem_map.1 hm
    exact hne a ha (e.trans ht.lay)
  · have hlx := hx.length_eq
    have hly := hy.length_eq
    have := h.nine
    simp only [List.length_cons] at hlx hly
    omega
  · rcases ht.place with hp | ⟨hp, _⟩
    · exact (hat st' (.inr hp)).trans (h.room st')
    · by_cases e : st' = k'.pos
      · exact e ▸ hp
      · exact (hat st' (.inl e)).trans (h.room st')
  · by_cases e : st' = st
    · subst e
      obtain ⟨hc, rfl, ha, _⟩ := ht.acts c n hj
      exact ⟨hc, k', hy.mem_iff.2 List.mem_cons_self, ht.lay, ha⟩
    · rw [ht.jobs st' e] at hj
      obtain ⟨hc, a, ha, rfl, hac⟩ := h.acting st' c n hj
      have hak : a ≠ k := fun e' => e ((ht.owns st' c _ hj).2 (e' ▸ rfl))
      exact ⟨hc, a, hy.mem_iff.2 (List.mem_cons_of_mem _ (List.mem_of_ne_of_mem hak (hx.mem_iff.1 ha))), rfl, hac⟩
  · by_cases e : st' = st
    · subst e
      exact (ht.acts c n hj).2.2.2 dst hd
    · rw [ht.jobs st' e] at hj
      refine (hat dst ?_).trans_lt (h.ahead st' c n dst hj hd)
      rcases ht.place with hp | ⟨_, hp⟩
      · exact .inr hp
      · exact .inl fun e' => hp st' c n e hj (e' ▸ hd)
  · rcases List.mem_cons.1 (hy.mem_iff.1 ha) with rfl | ha
    · exact ht.lay ▸ ht.releasing hs
    · obtain ⟨c, hc⟩ := h.releasing a (hmem a ha) hs
      have e : Station.gripper ≠ st := fun e => hne a ha ((ht.owns _ c _ hc).1 e)
      exact ⟨c, (ht.jobs _ e).trans hc⟩
  · rcases List.mem_cons.1 (hy.mem_iff.1 ha) with rfl | ha
    · exact ht.held hs
    · exact h.held a (hmem a ha) hs

/-- A ticket that leaves the track takes with it the command of the one station whose command is for it. -/
theorem Track.Sound.leaves {st : Station} {k : Ticket} {r : List Ticket} (h : x.Sound) (hx : x.tickets.Perm (k :: r))
    (hy : y.tickets.Perm r) (ho : x.Owns st k.lay) (hs : y.job st = none) (hj : ∀ st', st' ≠ st → y.job st' = x.job st') :
    y.Sound := by
  obtain ⟨hne, hnd⟩ := nodup_of_perm h hx
  have hmem : ∀ a ∈ y.tickets, a ∈ x.tickets := fun a ha => hx.mem_iff.2 (List.mem_cons_of_mem _ (hy.mem_iff.1 ha))
  have hat : ∀ st', (y.at st').length ≤ (x.at st').length := by
    intro st'
    rw [at_length_of_perm hx, Track.at, (hy.filter _).length_eq]
    omega
  have hold : ∀ st' c n, y.job st' = some (c, n) → st' ≠ st ∧ x.job st' = some (c, n) := by
    intro st' c n hjy
    have e : st' ≠ st := fun e => by rw [e, hs] at hjy; cases hjy
    exact ⟨e, hj st' e ▸ hjy⟩
  refine ⟨?_, ?_, fun st' => (hat st').trans (h.room st'), fun st' c n hjy => ?_, fun st' c n dst hjy hd => ?_,
    fun a ha hs' => ?_, fun a ha hs' => h.held a (hmem a ha) hs'⟩
  · rw [(hy.map _).nodup_iff]
    exact hnd
  · have hlx := hx.length_eq
    have hly := hy.length_eq
    have := h.nine
    simp only [List.length_cons] at hlx
    omega
  · obtain ⟨e, hjx⟩ := hold st' c n hjy
    obtain ⟨hc, a, ha, rfl, hac⟩ := h.acting st' c n hjx
    have hak : a ≠ k := fun e' => e ((ho st' c _ hjx).2 (e' ▸ rfl))
    exact ⟨hc, a, hy.mem_iff.2 (List.mem_of_ne_of_mem hak (hx.mem_iff.1 ha)), rfl, hac⟩
  · exact (hat dst).trans_lt (h.ahead st' c n dst (hold st' c n hjy).2 hd)
  · obtain ⟨c, hc⟩ := h.releasing a (hmem a ha) hs'
    have e : Station.gripper ≠ st := fun e => hne a (hy.mem_iff.1 ha) ((ho _ c _ hc).1 e)
    exact ⟨c, (hj _ e).trans hc⟩

/-- R20, R32: a ticket that is admitted stands alone at FEED with FEED_ONE in flight. -/
theorem Track.Sound.joins {k : Ticket} (h : x.Sound) (hy : y.tickets = x.tickets ++ [k]) (hp : k.pos = .feed)
    (hs : k.state = .feeding) (hn : ∀ a ∈ x.tickets, a.lay ≠ k.lay) (hl : x.tickets.length < 9) (hf : x.at .feed = [])
    (hj : y.job .feed = some (.feedOne, k.lay))
    (ho : ∀ st, st ≠ .feed → y.job st = x.job st) : y.Sound := by
  have hat : ∀ st, st ≠ .feed → y.at st = x.at st := by
    intro st e
    simp [Track.at, hy, hp, Ne.symm e]
  have hold : ∀ st c n, st ≠ .feed → y.job st = some (c, n) → x.job st = some (c, n) := fun st c n e hjy => ho st e ▸ hjy
  have hmem : ∀ a ∈ y.tickets, a ∈ x.tickets ∨ a = k := fun a ha => by simpa [hy] using ha
  refine ⟨?_, ?_, fun st => ?_, fun st c n hjy => ?_, fun st c n dst hjy hd => ?_, fun a ha hs' => ?_, fun a ha hs' => ?_⟩
  · rw [hy, List.map_append, List.map_cons, List.map_nil]
    refine (List.perm_append_singleton _ _).nodup_iff.2 (List.nodup_cons.2 ⟨fun hm => ?_, h.apart⟩)
    obtain ⟨a, ha, e⟩ := List.mem_map.1 hm
    exact hn a ha e
  · simp only [hy, List.length_append, List.length_singleton]
    omega
  · by_cases e : st = .feed
    · subst e
      have hx' : x.tickets.filter (fun a => a.pos == .feed) = [] := hf
      simp [Track.at, hy, hp, hx', capacity]
    · exact hat st e ▸ h.room st
  · by_cases e : st = .feed
    · subst e
      obtain ⟨rfl, rfl⟩ : Cmd.feedOne = c ∧ k.lay = n := by simpa using hj.symm.trans hjy
      exact ⟨rfl, k, by simp [hy], rfl, hp, hs⟩
    · obtain ⟨hc, a, ha, hac⟩ := h.acting st c n (hold st c n e hjy)
      exact ⟨hc, a, by simp [hy, ha], hac⟩
  · by_cases e : st = .feed
    · subst e
      obtain ⟨rfl, rfl⟩ : Cmd.feedOne = c ∧ k.lay = n := by simpa using hj.symm.trans hjy
      cases hd
    · have e' : dst ≠ .feed := by rintro rfl; cases c <;> cases hd
      exact hat dst e' ▸ h.ahead st c n dst (hold st c n e hjy) hd
  · rcases hmem a ha with ha | rfl
    · obtain ⟨c, hc⟩ := h.releasing a ha hs'
      exact ⟨c, (ho _ (by decide)).trans hc⟩
    · simp [hs] at hs'
  · rcases hmem a ha with ha | rfl
    · exact h.held a ha hs'
    · simp [hs] at hs'

/-- What the track owes depends on the tickets and on the commands in flight alone. -/
theorem Track.Sound.of_eq (h : x.Sound) (ht : y.tickets = x.tickets) (hj : y.job = x.job) : y.Sound := by
  have hat : y.at = x.at := by funext st; rw [Track.at, Track.at, ht]
  refine ⟨ht ▸ h.apart, ht ▸ h.nine, hat ▸ h.room, ?_, ?_, ?_, ht ▸ h.held⟩
  · rw [ht, hj]; exact h.acting
  · rw [hat, hj]; exact h.ahead
  · rw [ht, hj]; exact h.releasing

/-! ### Marks -/

/-- A ticket keeps its lay number, its place and its state, and loses no mark. -/
structure Marked (k k' : Ticket) : Prop where
  lay : k'.lay = k.lay
  pos : k'.pos = k.pos
  state : k'.state = k.state
  reject : k.reject = true → k'.reject = true
  spoilt : k.spoilt = true → k'.spoilt = true
  purge : k.purge = true → k'.purge = true

theorem Marked.refl (k : Ticket) : Marked k k := ⟨rfl, rfl, rfl, id, id, id⟩

theorem Marked.trans {k k' k'' : Ticket} (h : Marked k k') (h' : Marked k' k'') : Marked k k'' :=
  ⟨h'.lay.trans h.lay, h'.pos.trans h.pos, h'.state.trans h.state, h'.reject ∘ h.reject, h'.spoilt ∘ h.spoilt,
    h'.purge ∘ h.purge⟩

/-- A mark takes no ticket from its command. -/
theorem Marked.acting {k k' : Ticket} {c : Cmd} (h : Marked k k') (ha : Acting c k) : Acting c k' := by
  have hr := h.reject
  have hs := h.spoilt
  have hp := h.purge
  cases c <;> simp only [Acting, h.pos, h.state] at ha ⊢ <;> grind

/-- Tickets marked in their places. -/
abbrev MarkedAll : List Ticket → List Ticket → Prop := List.Forall₂ Marked

theorem MarkedAll.refl (l : List Ticket) : MarkedAll l l := List.forall₂_same.2 fun k _ => Marked.refl k

theorem MarkedAll.of_map {l : List Ticket} {f : Ticket → Ticket} (h : ∀ k ∈ l, Marked k (f k)) : MarkedAll l (l.map f) :=
  List.forall₂_map_right_iff.2 (List.forall₂_same.2 h)

theorem MarkedAll.trans {l m n : List Ticket} (h : MarkedAll l m) (h' : MarkedAll m n) : MarkedAll l n := by
  induction h generalizing n with
  | nil => exact h'
  | cons ha _ ih =>
    obtain ⟨b, u, hb, hu, rfl⟩ := List.forall₂_cons_left_iff.1 h'
    exact .cons (ha.trans hb) (ih hu)

theorem MarkedAll.map_eq {β : Type} {l m : List Ticket} {f : Ticket → β} (h : MarkedAll l m)
    (hf : ∀ k k', Marked k k' → f k' = f k) : m.map f = l.map f := by
  induction h with
  | nil => rfl
  | cons ha _ ih => rw [List.map_cons, List.map_cons, hf _ _ ha, ih]

theorem MarkedAll.mem_left {l m : List Ticket} (h : MarkedAll l m) {k : Ticket} (hk : k ∈ l) : ∃ k' ∈ m, Marked k k' := by
  induction h with
  | nil => cases hk
  | cons ha _ ih =>
    rcases List.mem_cons.1 hk with rfl | hk
    · exact ⟨_, List.mem_cons_self, ha⟩
    · obtain ⟨k', hk', h⟩ := ih hk
      exact ⟨k', List.mem_cons_of_mem _ hk', h⟩

theorem MarkedAll.mem_right {l m : List Ticket} (h : MarkedAll l m) {k' : Ticket} (hk : k' ∈ m) : ∃ k ∈ l, Marked k k' := by
  induction h with
  | nil => cases hk
  | cons ha _ ih =>
    rcases List.mem_cons.1 hk with rfl | hk
    · exact ⟨_, List.mem_cons_self, ha⟩
    · obtain ⟨k, hk', h⟩ := ih hk
      exact ⟨k, List.mem_cons_of_mem _ hk', h⟩

/-- Marks keep what the track owes. -/
theorem Track.Sound.marked (h : x.Sound) (hm : MarkedAll x.tickets y.tickets) (hj : y.job = x.job) : y.Sound := by
  have hat : ∀ st, (y.at st).length = (x.at st).length := by
    have hc : ∀ (z : Track) st, (z.at st).length = (z.tickets.map (·.pos)).count st := by
      intro z st
      rw [List.count_eq_countP, List.countP_map, List.countP_eq_length_filter]
      rfl
    intro st
    rw [hc, hc, hm.map_eq fun _ _ e => e.pos]
  refine ⟨?_, hm.length_eq ▸ h.nine, fun st => hat st ▸ h.room st, ?_, ?_, fun k' hk hs => ?_, fun k' hk hs => ?_⟩
  · rw [hm.map_eq fun _ _ e => e.lay]; exact h.apart
  · intro st c n hjy
    obtain ⟨hc, k, hk, hn, ha⟩ := h.acting st c n (hj ▸ hjy)
    obtain ⟨k', hk', hkk⟩ := hm.mem_left hk
    exact ⟨hc, k', hk', hkk.lay.trans hn, hkk.acting ha⟩
  · intro st c n dst hjy hd
    exact hat dst ▸ h.ahead st c n dst (hj ▸ hjy) hd
  · obtain ⟨k, hk', hkk⟩ := hm.mem_right hk
    obtain ⟨c, hc⟩ := h.releasing k hk' (hkk.state ▸ hs)
    exact ⟨c, by rw [hj, hc, hkk.lay]⟩
  · obtain ⟨k, hk', hkk⟩ := hm.mem_right hk
    exact hkk.pos.trans (h.held k hk' (hkk.state ▸ hs))

/-- R42: a purge marks tickets in their places. -/
theorem marked_purgeAfter (n : Nat) (l : List Ticket) : MarkedAll l (purgeAfter n l) := by
  induction l with
  | nil => exact .nil
  | cons k l ih =>
    unfold purgeAfter
    split
    · refine .cons (Marked.refl k) (MarkedAll.of_map fun a _ => ?_)
      split
      · exact Marked.refl a
      · exact ⟨rfl, rfl, rfl, id, id, fun _ => rfl⟩
    · exact .cons (Marked.refl k) ih

theorem marked_update (x : Track) (n : Nat) {f : Ticket → Ticket} (hf : ∀ k, Marked k (f k)) :
    MarkedAll x.tickets (x.update n f).tickets := by
  refine MarkedAll.of_map fun a _ => ?_
  split
  · exact hf a
  · exact Marked.refl a

theorem marked_purgeFor (x : Track) (k : Ticket) : MarkedAll x.tickets (x.purgeFor k).tickets := by
  unfold Track.purgeFor
  split
  · exact marked_purgeAfter _ _
  · exact .refl _

theorem marked_markSpoilt (x : Track) (k : Ticket) : MarkedAll x.tickets (x.markSpoilt k).tickets := by
  unfold Track.markSpoilt
  split
  · exact .refl _
  · exact (marked_update x k.lay (f := fun a => { a with spoilt := true }) fun _ => ⟨rfl, rfl, rfl, id, fun _ => rfl, id⟩).trans
      (marked_purgeFor _ k)

theorem marked_markReject (x : Track) (k : Ticket) : MarkedAll x.tickets (x.markReject k).tickets := by
  unfold Track.markReject
  split
  · exact .refl _
  · exact (marked_update x k.lay (f := fun a => { a with reject := true }) fun _ => ⟨rfl, rfl, rfl, fun _ => rfl, id, id⟩).trans
      (marked_purgeFor _ k)

theorem job_purgeFor (x : Track) (k : Ticket) : (x.purgeFor k).job = x.job := by unfold Track.purgeFor; split <;> rfl
theorem job_update (x : Track) (n : Nat) (f : Ticket → Ticket) : (x.update n f).job = x.job := rfl
theorem job_remove (x : Track) (n : Nat) : (x.remove n).job = x.job := rfl

theorem job_markSpoilt (x : Track) (k : Ticket) : (x.markSpoilt k).job = x.job := by
  unfold Track.markSpoilt
  split
  · rfl
  · rw [job_purgeFor, job_update]

theorem job_markReject (x : Track) (k : Ticket) : (x.markReject k).job = x.job := by
  unfold Track.markReject
  split
  · rfl
  · rw [job_purgeFor, job_update]

/-! ### One ticket apart -/

theorem tickets_pairwise (h : x.Sound) : x.tickets.Pairwise fun a b => a.lay ≠ b.lay := List.pairwise_map.1 h.apart

theorem perm_remove {k : Ticket} (h : x.Sound) (hk : k ∈ x.tickets) :
    x.tickets.Perm (k :: (x.remove k.lay).tickets) := perm_cons_filter_ne Ticket.lay (tickets_pairwise h) hk

/-- The change of one ticket, up to the order of the tickets. -/
theorem perm_update {k : Ticket} (h : x.Sound) (hk : k ∈ x.tickets) (f : Ticket → Ticket) :
    (x.update k.lay f).tickets.Perm (f k :: (x.remove k.lay).tickets) := by
  refine ((perm_remove h hk).map _).trans ?_
  have hr : (x.remove k.lay).tickets.map (fun a => if a.lay == k.lay then f a else a) = (x.remove k.lay).tickets := by
    refine (List.map_congr_left fun a ha => ?_).trans (List.map_id _)
    have hne : a.lay ≠ k.lay := by simpa using (List.mem_filter.1 ha).2
    simp [hne]
  rw [List.map_cons, hr]
  simp

/-- The lay numbers outlast a change of one ticket that keeps its own. -/
theorem lays_update {k : Ticket} {f : Ticket → Ticket} (h : x.Sound) (hk : k ∈ x.tickets) (hf : (f k).lay = k.lay) :
    (x.update k.lay f).tickets.map (·.lay) = x.tickets.map (·.lay) := by
  rw [Track.update, List.map_map]
  refine List.map_congr_left fun a ha => ?_
  by_cases e : a.lay = k.lay
  · obtain rfl : a = k := List.inj_on_of_nodup_map h.apart ha hk e
    simp [hf]
  · simp [e]

theorem find_some {n : Nat} {k : Ticket} (h : x.find n = some k) : k ∈ x.tickets ∧ k.lay = n :=
  ⟨List.mem_of_find?_eq_some h, by simpa using List.find?_some h⟩

/-- The ticket of a command in flight is on the track and is acted on. -/
theorem Track.Sound.find_job (h : x.Sound) {st : Station} {c : Cmd} {n : Nat} (hj : x.job st = some (c, n)) :
    ∃ k, x.find n = some k ∧ Acting c k := by
  obtain ⟨_, k, hk, rfl, ha⟩ := h.acting st c n hj
  obtain ⟨k', hk'⟩ : ∃ k', x.find k.lay = some k' := Option.isSome_iff_exists.1 (List.find?_isSome.2 ⟨k, hk, by simp⟩)
  obtain ⟨hm, hl⟩ := find_some hk'
  obtain rfl : k' = k := List.inj_on_of_nodup_map h.apart hm hk hl
  exact ⟨k', hk', ha⟩

theorem first_mem {st : Station} {k : Ticket} (h : x.first st = some k) : k ∈ x.tickets ∧ k.pos = st := by
  rw [first_eq] at h
  exact ⟨List.mem_of_find?_eq_some h, by simpa using List.find?_some h⟩

theorem at_of_first_none {st : Station} (h : x.first st = none) : x.at st = [] := by
  rwa [Track.first, List.head?_eq_none_iff] at h

end Sys2Proof.Machine
end

section
/-! SUPPORT. The laws of the plan store and the brick track under the shared operations. `PlanSound a b` carries the three laws
of the statement through a step at once: `a` says that the reference counts were right before it, `b` that the track was
sound. -/

namespace Sys2Proof.Machine

variable {a b : Prop} {s t : State}

/-- R9; R3 if `a`; R23 and R66 if `b`. -/
structure PlanSound (a b : Prop) (s : State) : Prop where
  order : PlanOrdered s.plan
  refs : a → RefsCounted s.plan
  track : b → TrackSound s

/-- A move of the lay controller alone keeps the laws. -/
theorem PlanSound.moves (h : PlanSound a b s) (hp : t.plan = s.plan) (ht : t.track = s.track) (hm : s.lay.Moves t.lay) :
    PlanSound a b t := by
  have ho : PlanOrdered t.plan := hp ▸ h.order
  refine ⟨ho, fun ha => hp ▸ h.refs ha, fun hb => ?_⟩
  obtain ⟨h1, h2, h3⟩ := (trackSound_iff h.order).1 (h.track hb)
  exact (trackSound_iff ho).2 (by rw [hp, ht]; exact ⟨h1, h2, h3.moves hm id⟩)

/-- The laws speak of the plan store, the track and the lay controller alone. -/
theorem PlanSound.same (h : PlanSound a b s) (hp : t.plan = s.plan) (ht : t.track = s.track) (hl : t.lay = s.lay) :
    PlanSound a b t := h.moves hp ht (hl ▸ .refl _)

theorem sound_setLay {v : Lay} (h : PlanSound a b s) (hm : s.lay.Moves v) : PlanSound a b (s.setLay v) := h.moves rfl rfl hm

theorem sound_ite {p : Prop} [Decidable p] (hs : PlanSound a b s) (ht : PlanSound a b t) :
    PlanSound a b (if p then s else t) := by split <;> assumption

theorem sound_fold {α : Type} (f : State → α → State) (hf : ∀ t c, PlanSound a b t → PlanSound a b (f t c)) (l : List α)
    (h : PlanSound a b s) : PlanSound a b (l.foldl f s) := by
  induction l generalizing s with
  | nil => exact h
  | cons c l ih => exact ih (hf _ _ h)

theorem sound_setClock (v : Clock) (h : PlanSound a b s) : PlanSound a b (s.setClock v) := h.same rfl rfl rfl
theorem sound_setPins (v : Pins) (h : PlanSound a b s) : PlanSound a b (s.setPins v) := h.same rfl rfl rfl
theorem sound_setRing (v : Ring) (h : PlanSound a b s) : PlanSound a b (s.setRing v) := h.same rfl rfl rfl
theorem sound_setAxis (v : Axis) (h : PlanSound a b s) : PlanSound a b (s.setAxis v) := h.same rfl rfl rfl
theorem sound_setLine (v : Line) (h : PlanSound a b s) : PlanSound a b (s.setLine v) := h.same rfl rfl rfl
theorem sound_setStab (v : Stab) (h : PlanSound a b s) : PlanSound a b (s.setStab v) := h.same rfl rfl rfl
theorem sound_setGuard (v : Guard) (h : PlanSound a b s) : PlanSound a b (s.setGuard v) := h.same rfl rfl rfl
theorem sound_setTerms (v : Terms) (h : PlanSound a b s) : PlanSound a b (s.setTerms v) := h.same rfl rfl rfl
theorem sound_setMgmt (v : Mgmt) (h : PlanSound a b s) : PlanSound a b (s.setMgmt v) := h.same rfl rfl rfl
theorem sound_setMem (v : TableMem) (h : PlanSound a b s) : PlanSound a b (s.setMem v) := h.same rfl rfl rfl
theorem sound_setParams (v : Params) (h : PlanSound a b s) : PlanSound a b (s.setParams v) := h.same rfl rfl rfl
theorem sound_setCtl (v : Ctl) (h : PlanSound a b s) : PlanSound a b (s.setCtl v) := h.same rfl rfl rfl
theorem sound_setPending (v : List Instr) (h : PlanSound a b s) : PlanSound a b (s.setPending v) := h.same rfl rfl rfl

/-! ### Faults and modes -/

theorem sound_latch (k : FaultKind) (d : Nat) (h : PlanSound a b s) : PlanSound a b (latch k d s) := sound_setCtl _ h
theorem sound_takeCauses (h : PlanSound a b s) : PlanSound a b (takeCauses s) := sound_setCtl _ h
theorem sound_endRecovery (h : PlanSound a b s) : PlanSound a b (endRecovery s) := sound_setCtl _ (sound_setGuard _ h)

theorem sound_frameDue (d : Word) (h : PlanSound a b s) : PlanSound a b (frameDue d s) := by
  unfold frameDue; split <;> exact sound_setLine _ h

theorem sound_refreshTx (h : PlanSound a b s) : PlanSound a b (refreshTx s) :=
  sound_ite (sound_ite h (sound_frameDue _ (sound_setLine _ h))) (sound_setLine _ h)

theorem sound_setMode (m : Mode) (h : PlanSound a b s) : PlanSound a b (setMode m s) :=
  sound_refreshTx (sound_setCtl _ (sound_setLay h (moves_onMode _ _ _ _)))

theorem sound_enterHold (h : PlanSound a b s) : PlanSound a b (enterHold s) :=
  sound_takeCauses (sound_setMode _ (sound_endRecovery (sound_setCtl _ h)))

theorem sound_report (h : PlanSound a b s) : PlanSound a b (report s) :=
  sound_ite (sound_enterHold (sound_takeCauses h)) (sound_takeCauses h)

theorem sound_toStandby (h : PlanSound a b s) : PlanSound a b (toStandby s) :=
  sound_report (sound_setMode _ (sound_endRecovery (sound_setCtl _ h)))

theorem sound_raiseStarved (h : PlanSound a b s) : PlanSound a b (raiseStarved s) := by
  unfold raiseStarved
  split
  · exact h
  · exact sound_setCtl _ h
  · exact sound_enterHold (sound_setCtl _ h)
  · exact sound_enterHold (sound_setCtl _ h)

theorem sound_raiseRequest (h : PlanSound a b s) : PlanSound a b (raiseRequest s) := by
  unfold raiseRequest
  split
  · exact h
  · exact sound_setCtl _ h
  · exact sound_enterHold (sound_setCtl _ h)
  · exact sound_enterHold (sound_setCtl _ h)

theorem sound_enterLost (c : Nat) (h : PlanSound a b s) : PlanSound a b (enterLost c s) := by
  unfold enterLost
  split
  · exact h
  · exact sound_report (sound_refreshTx (sound_setLine _ h))
  · exact sound_report (sound_refreshTx (sound_setLine _ (sound_latch _ _ h)))
  · exact sound_report (sound_refreshTx (sound_setLine _ (sound_latch _ _ h)))

theorem sound_enterStale (h : PlanSound a b s) : PlanSound a b (enterStale s) := by
  unfold enterStale
  split
  · exact h
  · exact sound_report (sound_refreshTx (sound_setLine _ (sound_setLay h (moves_closeGate _))))

theorem sound_enterValid (h : PlanSound a b s) : PlanSound a b (enterValid s) :=
  sound_report (sound_refreshTx (sound_setLine _ h))

/-! ### Reads of table memory -/

theorem sound_storePart (n : Nat) (d : Part) (h : PlanSound a b s) : PlanSound a b (storePart n d s) := sound_setMem _ h
theorem sound_markUnreadable (n : Nat) (h : PlanSound a b s) : PlanSound a b (markUnreadable n s) := sound_setMgmt _ h
theorem sound_setHeld (i : Nat) (v : TermHeld) (h : PlanSound a b s) : PlanSound a b (setHeld i v s) := sound_setTerms _ h

theorem sound_uncorrectablePart (n : Nat) (h : PlanSound a b s) : PlanSound a b (uncorrectablePart n s).2 := by
  have hm := fun i => sound_latch .tableEcc i (sound_markUnreadable n h)
  unfold uncorrectablePart
  split
  · exact sound_report (sound_latch _ _ (sound_setGuard _ h))
  · exact sound_latch _ _ (sound_storePart _ _ h)
  · split
    · exact h
    · exact sound_storePart _ _ h
  · exact hm _
  · exact hm _
  · exact sound_report (sound_setHeld _ _ (hm _))
  · exact hm _

theorem sound_writeBack (w : Nat) (f : WordFinding) (h : PlanSound a b s) : PlanSound a b (writeBack w f s) := by
  unfold writeBack
  split
  · exact sound_setMem _ h
  · exact h

theorem sound_readPart (n : Nat) (h : PlanSound a b s) : PlanSound a b (readPart n s).2 := by
  have hc := fun f d => sound_setMgmt (countWords f d s).mgmt h
  unfold readPart
  dsimp only
  split
  · exact sound_uncorrectablePart _ (hc _ _)
  · have hw := fun f d => sound_writeBack (2 * n + 1) (wordFinding s.mem (2 * n + 1))
      (sound_writeBack (2 * n) (wordFinding s.mem (2 * n)) (hc f d))
    split
    · exact hw _ _
    · exact sound_uncorrectablePart _ (hw _ _)

theorem sound_readPart_of {n : Nat} {p : Option Part} (e : readPart n s = (p, t)) (h : PlanSound a b s) : PlanSound a b t := by
  have := sound_readPart n h
  rwa [e] at this

theorem sound_readAxis (i : Nat) (h : PlanSound a b s) : PlanSound a b (readAxis i s).2 := by
  unfold readAxis; split <;> exact sound_readPart_of (by assumption) h

theorem sound_readFine (r : Role) (h : PlanSound a b s) : PlanSound a b (readFine r s).2 := by
  unfold readFine
  split
  · exact h
  · have hr := sound_readAxis ‹Nat› h
    split <;> rename_i heq <;> rwa [heq] at hr

theorem sound_readFines (h : PlanSound a b s) : PlanSound a b (readFines s).2 :=
  sound_readFine _ (sound_readFine _ (sound_readFine _ (sound_readFine _ h)))

theorem sound_storeAccepted (n : Nat) (d : Part) (h : PlanSound a b s) : PlanSound a b (storeAccepted n d s) :=
  sound_setGuard _ (sound_setMgmt _ (sound_storePart _ _ h))

/-! ### Terms, zones, courses, stabilizer -/

theorem sound_noteTerm (i : Nat) (h : PlanSound a b s) : PlanSound a b (noteTerm i s) :=
  sound_report (sound_ite (sound_latch _ _ h) h)

theorem sound_evalTerm (i : Nat) (h : PlanSound a b s) : PlanSound a b (evalTerm i s) := by
  unfold evalTerm
  split
  · exact sound_noteTerm _ (sound_readPart_of (by assumption) h)
  · exact sound_noteTerm _ (sound_setHeld _ _ (sound_readPart_of (by assumption) h))

theorem sound_evalTerms (l : List Nat) (h : PlanSound a b s) : PlanSound a b (evalTerms l s) :=
  sound_fold _ (fun _ _ ht => sound_evalTerm _ ht) l h

theorem sound_scrubStep (h : PlanSound a b s) : PlanSound a b (scrubStep s) := by
  have hr := sound_readPart s.mgmt.scrub h
  unfold scrubStep
  dsimp only
  split
  · exact sound_setMgmt _ (sound_noteTerm _ hr)
  · exact sound_setMgmt _ hr

theorem sound_readZone (i : Nat) (h : PlanSound a b s) : PlanSound a b (readZone i s).2 := by
  have hr := sound_readPart (zonePart i 1) (sound_readPart (zonePart i 0) h)
  unfold readZone
  dsimp only
  split <;> exact hr

theorem sound_readZonesOf (l : List Nat) (h : PlanSound a b s) : PlanSound a b (readZonesOf l s).2 := by
  induction l generalizing s with
  | nil => exact h
  | cons i l ih => exact ih (sound_readZone i h)

theorem sound_readZones (h : PlanSound a b s) : PlanSound a b (readZones s).2 := sound_readZonesOf _ h

theorem sound_noteOutcome (o : Outcome) (h : PlanSound a b s) : PlanSound a b (noteOutcome o s) :=
  sound_ite (sound_ite (sound_setGuard _ h) (sound_ite (sound_setGuard _ h) (sound_endRecovery h)))
    (sound_ite (sound_latch _ _ h) h)

theorem sound_evaluateZones (h : PlanSound a b s) : PlanSound a b (evaluateZones s) := by
  unfold evaluateZones
  split
  · simp only [zoneEvaluate]
    exact sound_report (sound_noteOutcome _ (sound_setGuard _ (sound_readZones h)))
  · exact h

theorem sound_pointTest (g : Target) (h : PlanSound a b s) : PlanSound a b (pointTest g s).2 := by
  simp only [pointTest]
  exact sound_readZones h

theorem sound_readCourse (c : Nat) (h : PlanSound a b s) : PlanSound a b (readCourse c s).2 := by
  have hr := sound_readPart (coursePart c 1) (sound_readPart (coursePart c 0) h)
  unfold readCourse
  dsimp only
  split <;> exact hr

theorem sound_stabCompute (fr : Bool) (h : PlanSound a b s) : PlanSound a b (stabCompute fr s) := by
  have hr := sound_readFines h
  simp only [stabCompute]
  split
  · exact sound_setStab _ hr
  · exact sound_setLine _ (sound_setStab _ hr)

/-! ### Placement -/

theorem sound_approachIfHeld (h : PlanSound a b s) : PlanSound a b (approachIfHeld s) := by
  unfold approachIfHeld
  split
  · rename_i hi
    simp only [Bool.and_eq_true, beq_iff_eq] at hi
    exact sound_setLay h (.of_cleared rfl rfl (by simp [hi]))
  · exact h

theorem sound_placementBegins (l : Nat) (h : PlanSound a b s) : PlanSound a b (placementBegins l s) :=
  sound_approachIfHeld (sound_setLay h (.of_eq rfl rfl rfl))

theorem sound_offsetStep (h : PlanSound a b s) : PlanSound a b (offsetStep s) := by
  have hc := moves_countSettle s.lay
  unfold offsetStep
  dsimp only
  refine sound_ite ?_ (sound_setLay h hc)
  split
  · exact sound_setLay h (hc.trans (moves_descend _ _ ‹_›))
  · exact sound_setLay h (hc.trans (moves_lift _ _ ‹_›))
  · exact sound_setLay h hc

theorem sound_layVerdict (h : PlanSound a b s) : PlanSound a b (layVerdict s) := by
  unfold layVerdict
  refine sound_ite ?_ h
  split
  · rename_i hp
    exact sound_ite (sound_setLay h (.of_leave rfl rfl (by simp [hp]) (by simp [hp]))) h
  · rename_i hp
    exact sound_ite h (sound_setLay h (.of_cleared rfl rfl (by simp [hp])))
  · rename_i hp
    exact sound_ite h (sound_setLay h (.of_cleared rfl rfl (by simp [hp])))
  all_goals exact h

/-- R56, R66: a gate opens in SETTLE, and with room for the as-laid record. -/
theorem sound_settleGate {d : Bool} (h : PlanSound a b s)
    (hd : d = true → s.lay.phase = .settle ∧ s.lay.asLaid.length < 64) : PlanSound a b (settleGate d s) := by
  unfold settleGate
  cases d with
  | false => exact sound_setLay h (moves_closeGate _)
  | true => exact sound_setLay h (moves_openGate _ _ (hd rfl).1 (hd rfl).2)

/-- A read of a course part leaves the lay controller alone: it may latch a fault, and brings no hold. -/
theorem lay_readPart_course (c p : Nat) (s : State) : (readPart (coursePart c p) s).2.lay = s.lay := by
  have hw : ∀ w f (u : State), (writeBack w f u).lay = u.lay := by intro w f u; unfold writeBack; split <;> rfl
  have hu : ∀ u : State, (uncorrectablePart (coursePart c p) u).2.lay = u.lay := by
    intro u
    have hn : 197 ≤ coursePart c p := by unfold coursePart; omega
    unfold uncorrectablePart placeOf
    rw [if_neg (by omega), if_neg (by omega), if_neg (by omega), if_neg (by omega), if_neg (by omega)]
    by_cases hc : coursePart c p < 709
    · rw [if_pos hc]; rfl
    · rw [if_neg hc]
      show (if slotUsed u _ then (none, u) else (some 0, storePart _ 0 u)).2.lay = u.lay
      split <;> rfl
  unfold readPart
  dsimp only
  split
  · rw [hu]; rfl
  · split
    · rw [hw, hw]; rfl
    · rw [hu, hw, hw]; rfl

theorem sound_judgeGate (hp : s.lay.phase = .settle) (h : PlanSound a b s) : PlanSound a b (judgeGate s) := by
  unfold judgeGate
  split
  · exact sound_settleGate h (by simp)
  · rename_i k _
    have hl := lay_readPart_course k.course 0 s
    refine sound_settleGate (sound_readPart _ h) fun hg => ?_
    simp only [gateConditions, Bool.and_eq_true, decide_eq_true_eq] at hg
    exact ⟨hl ▸ hp, hg.2.1.2⟩

theorem sound_gateAtTrain (h : PlanSound a b s) : PlanSound a b (gateAtTrain s) :=
  sound_setLay (sound_ite (sound_settleGate h (by simp)) h) (.of_eq rfl rfl rfl)

theorem sound_gateAtEnd (h : PlanSound a b s) : PlanSound a b (gateAtEnd s) := by
  have hg : PlanSound a b (if gateJudged s then (if s.lay.gateDue then judgeGate s else settleGate false s) else s) := by
    split
    · rename_i hj
      simp only [gateJudged, Bool.and_eq_true, beq_iff_eq] at hj
      exact sound_ite (sound_judgeGate hj.1 h) (sound_settleGate h (by simp))
    · exact h
  exact sound_setLay hg (.of_eq rfl rfl rfl)

/-! ### The tracker line -/

theorem sound_countLine (f : LineCounters → LineCounters) (h : PlanSound a b s) : PlanSound a b (countLine f s) :=
  sound_setLine _ h

theorem sound_setAsm (v : Assembler) (h : PlanSound a b s) : PlanSound a b (setAsm v s) := sound_setLine _ h

theorem sound_abandonFrame (h : PlanSound a b s) : PlanSound a b (abandonFrame s) := by
  unfold abandonFrame
  split
  · exact h
  all_goals exact sound_setAsm _ (sound_countLine _ h)

theorem sound_stateOnAcceptance (h : PlanSound a b s) : PlanSound a b (stateOnAcceptance s) :=
  sound_ite (sound_enterLost _ h) (sound_ite (sound_enterStale h) (sound_enterValid h))

theorem sound_acceptSample (c : Sample) (r : Bool) (h : PlanSound a b s) : PlanSound a b (acceptSample c r s) :=
  sound_evalTerms _ (sound_setTerms _ (sound_stateOnAcceptance (sound_setLine _ h)))

theorem sound_judge (c : Sample) (h : PlanSound a b s) : PlanSound a b (judge c s) :=
  sound_ite (sound_countLine _ h)
    (sound_ite (sound_ite (sound_countLine _ (sound_setLine _ h)) (sound_acceptSample _ _ h)) (sound_acceptSample _ _ h))

theorem sound_completeFrame (l : List Byte) (p : Bool) (c : Half) (h : PlanSound a b s) :
    PlanSound a b (completeFrame l p c s) :=
  sound_ite (sound_countLine _ h)
    (sound_ite (sound_countLine _ h) (sound_ite (sound_countLine _ h) (sound_judge _ (sound_setLine _ h))))

theorem sound_takeByte (c : Byte) (f : Bool) (h : PlanSound a b s) : PlanSound a b (takeByte c f s) := by
  unfold takeByte
  dsimp only
  split
  · exact sound_ite (sound_setAsm _ h) h
  · exact sound_ite (sound_setAsm _ h) (sound_setAsm _ (sound_countLine _ h))
  · exact sound_setAsm _ h
  · split
    · exact sound_setAsm _ h
    · exact sound_completeFrame _ _ _ (sound_setAsm _ h)

theorem sound_takeBytes (l : List (Byte × Bool)) (h : PlanSound a b s) : PlanSound a b (takeBytes l s) :=
  sound_fold _ (fun _ _ ht => sound_takeByte _ _ ht) l h

theorem sound_receiveCharacter (d : Byte) (p c : Bool) (h : PlanSound a b s) :
    PlanSound a b (receiveCharacter d p c s) := by
  have hl := sound_setLine { s.line with breakDue := none } h
  exact sound_ite h (sound_ite hl (sound_ite (sound_takeByte _ _ hl) (sound_abandonFrame (sound_countLine _ hl))))

theorem sound_receiveFrame (l : List Byte) (c : Bool) (h : PlanSound a b s) : PlanSound a b (receiveFrame l c s) := by
  induction l generalizing s with
  | nil => exact h
  | cons d l ih =>
    cases l with
    | nil => exact sound_receiveCharacter _ _ _ h
    | cons e l => exact ih (sound_receiveCharacter _ _ _ h)

theorem sound_detectBreak (h : PlanSound a b s) : PlanSound a b (detectBreak s) :=
  sound_ite h (sound_enterLost _ (sound_countLine _ (sound_abandonFrame (sound_setLine _ h))))

theorem sound_setReady (c : Bool) (h : PlanSound a b s) : PlanSound a b (setReady c s) := by
  have hc := sound_countLine (fun c => { c with readyChanges := bump c.readyChanges })
    (sound_setPins { s.pins with trkReady := c } h)
  exact sound_ite h (sound_ite hc (sound_enterLost _ hc))

theorem sound_reachStale (h : PlanSound a b s) : PlanSound a b (reachStale s) := sound_ite (sound_enterStale h) h
theorem sound_reachLost (h : PlanSound a b s) : PlanSound a b (reachLost s) := sound_ite (sound_enterLost _ h) h

theorem sound_recomputeExpiries (h : PlanSound a b s) : PlanSound a b (recomputeExpiries s) := by
  unfold recomputeExpiries
  split
  · exact h
  · exact sound_reachLost (sound_reachStale (sound_setLine _ h))

theorem sound_reachReacquire (h : PlanSound a b s) : PlanSound a b (reachReacquire s) := sound_ite (sound_frameDue _ h) h

theorem sound_loopFeed (n : Nat) (x : Half) (c : Bool) (h : PlanSound a b s) : PlanSound a b (loopFeed n x c s) := by
  unfold loopFeed
  split
  · exact sound_takeBytes _ (sound_setLine _ h)
  · exact h

theorem sound_loopCatchUp (h : PlanSound a b s) : PlanSound a b (loopCatchUp s) := by
  unfold loopCatchUp
  split
  · exact sound_loopFeed _ _ _ h
  · exact h

theorem sound_reachSent (h : PlanSound a b s) : PlanSound a b (reachSent s) :=
  sound_ite (sound_setLine _ (sound_countLine _ (sound_loopFeed _ _ _ h))) h

theorem sound_settingsChanged (h : PlanSound a b s) : PlanSound a b (settingsChanged s) :=
  sound_setLine _ (sound_abandonFrame h)

theorem sound_loopSet (h : PlanSound a b s) : PlanSound a b (loopSet s) :=
  sound_enterLost _ (sound_frameDue _ (sound_setLine _ (sound_setLine _ (sound_abandonFrame h))))

theorem sound_loopCleared (h : PlanSound a b s) : PlanSound a b (loopCleared s) :=
  sound_refreshTx (sound_setLine _ (sound_abandonFrame h))

theorem sound_reachBreak (h : PlanSound a b s) : PlanSound a b (reachBreak s) := by
  unfold reachBreak
  split
  · exact sound_ite (sound_detectBreak (sound_setLine _ h)) h
  · exact h

theorem sound_reachWatchdog (h : PlanSound a b s) : PlanSound a b (reachWatchdog s) := by
  have hr := sound_setRing { s.ring with watchdog := none, expiries := bump s.ring.expiries } h
  exact sound_ite (sound_raiseStarved (sound_ite hr (sound_latch _ _ hr))) h

end Sys2Proof.Machine
end

section
/-! SUPPORT. The laws of the plan store and the brick track under the operations of the brick track itself: reports, timers, the
issue of commands with the admission, completions, discards, and the restart. -/

namespace Sys2Proof.Machine

variable {a b : Prop} {s t : State} {x : Track}

/-! ### Records and marks -/

theorem sound_setTrack {v : Track} (h : PlanSound a b s)
    (hl : s.track.Sound → v.tickets.map (·.lay) = s.track.tickets.map (·.lay)) (hs : s.track.Sound → v.Sound)
    (hg : (v.job .gripper).isSome = true → (s.track.job .gripper).isSome = true) : PlanSound a b (s.setTrack v) := by
  refine ⟨h.order, h.refs, fun hb => ?_⟩
  obtain ⟨h1, h2, h3⟩ := (trackSound_iff h.order).1 (h.track hb)
  exact (trackSound_iff (s := s.setTrack v) h.order).2 ⟨(hl h2).trans h1, hs h2, h3.moves (.refl _) hg⟩

theorem sound_marks {v : Track} (h : PlanSound a b s) (hm : MarkedAll s.track.tickets v.tickets) (hj : v.job = s.track.job) :
    PlanSound a b (s.setTrack v) :=
  sound_setTrack h (fun _ => hm.map_eq fun _ _ e => e.lay) (fun hs => hs.marked hm hj) (by rw [hj]; exact id)

/-- A station's record changes but for the command in flight and its ticket. -/
theorem sound_setStation {st : Station} {r : StationRec} (h : PlanSound a b s)
    (hr : r.inflight.map (fun fl => (fl.cmd, fl.ticket)) = s.track.job st) : PlanSound a b (setStation st r s) := by
  have hj := job_setStation_keep s.track st hr
  exact sound_setTrack h (fun _ => by rw [tickets_setStation]) (fun hs => hs.of_eq (tickets_setStation _ _ _) hj)
    (by rw [hj]; exact id)

theorem sound_compareSensor (st : Station) (f : Feedback) (h : PlanSound a b s) : PlanSound a b (compareSensor st f s) :=
  sound_ite h (sound_latch _ _ (sound_setStation h rfl))

theorem sound_reachStation (st : Station) (h : PlanSound a b s) : PlanSound a b (reachStation st s) := by
  unfold reachStation
  dsimp only
  split
  · rename_i fl _ hfl
    have hj : s.track.job st = some (fl.cmd, fl.ticket) := job_some.2 ⟨fl, hfl, rfl, rfl⟩
    exact sound_ite (sound_latch _ _ (sound_setStation h hj.symm)) (sound_setStation h hj.symm)
  · exact h

theorem sound_markSpoilt (k : Ticket) (h : PlanSound a b s) : PlanSound a b (s.setTrack (s.track.markSpoilt k)) :=
  sound_marks h (marked_markSpoilt _ k) (job_markSpoilt _ k)

theorem sound_reachOpenTime (n : Nat) (h : PlanSound a b s) : PlanSound a b (reachOpenTime n s) := by
  unfold reachOpenTime
  split
  · exact sound_ite (sound_markSpoilt _ h) h
  · exact h

theorem sound_reachOpenTimesOf (l : List Ticket) (h : PlanSound a b s) : PlanSound a b (reachOpenTimesOf l s) :=
  sound_fold _ (fun _ _ ht => sound_reachOpenTime _ ht) _ h

theorem sound_reachOpenTimes (h : PlanSound a b s) : PlanSound a b (reachOpenTimes s) := sound_reachOpenTimesOf _ h

theorem sound_spoilAtFlipper (h : PlanSound a b s) : PlanSound a b (spoilAtFlipper s) := by
  unfold spoilAtFlipper
  split
  · exact h
  · split
    · exact sound_ite (sound_markSpoilt _ h) h
    · exact h

theorem sound_reachSettle (h : PlanSound a b s) : PlanSound a b (reachSettle s) := by
  have ht := sound_setLay (v := { s.lay with timer := none }) h (.of_eq rfl rfl rfl)
  refine sound_ite ?_ h
  dsimp only
  split
  · exact sound_latch _ _ (sound_marks ht (marked_update _ _ fun _ => ⟨rfl, rfl, rfl, id, id, id⟩) (job_update _ _ _))
  · exact ht

theorem sound_retry (st : Station) (h : PlanSound a b s) : PlanSound a b (retry st s).2 := by
  have hr : PlanSound a b (match (s.track.station st).inflight with
      | some fl => (ReplyCode.ok, reissueCommand st fl s)
      | none => (.ok, setStation st { s.track.station st with stall := .none } s)).2 := by
    split
    · rename_i fl hfl
      exact sound_setStation h (job_some.2 ⟨fl, hfl, rfl, rfl⟩).symm
    · exact sound_setStation h rfl
  unfold retry
  dsimp only
  split
  · exact h
  · exact hr
  · exact hr
  · split
    · exact sound_setStation h rfl
    · exact h

/-! ### The issue of a command -/

theorem acting_releasing {c : Cmd} {k : Ticket} (h : Acting c k) (hs : k.state = .releasing) : c = .openJaws := by
  cases c <;> simp_all [Acting]

theorem acting_not_held {c : Cmd} {k : Ticket} (h : Acting c k) : k.state ≠ .held := by
  intro hs
  cases c <;> simp_all [Acting]

/-- A ticket makes a command due that changes it by `f` (R33 to R39): no command of another station acts on it, and there is
room where it will go. -/
structure Track.Ready (x : Track) (c : Cmd) (k : Ticket) (f : Ticket → Ticket) : Prop where
  mem : k ∈ x.tickets
  lay : (f k).lay = k.lay
  pos : (f k).pos = k.pos
  acts : Acting c (f k)
  only : ∀ c', Acting c' k → c'.station = c.station
  ahead : ∀ dst, bringsTo c = some dst → (x.at dst).length < capacity dst

/-- The issue of a command that is due at an idle station. -/
theorem Track.Sound.issue {c : Cmd} {k : Ticket} {f : Ticket → Ticket} {r : StationRec} (h : x.Sound) (hr : x.Ready c k f)
    (hi : x.job c.station = none) (hj : r.inflight.map (fun fl => (fl.cmd, fl.ticket)) = some (c, k.lay)) :
    ((x.update k.lay f).setStation c.station r).Sound := by
  have hx := perm_remove h hr.mem
  have hy := perm_update h hr.mem f
  have hjob : ((x.update k.lay f).setStation c.station r).job c.station = some (c, k.lay) := by
    rw [job_setStation, if_pos rfl, hj]
  refine h.turns (k := k) (k' := f k) (st := c.station) ⟨⟨_, hx, by rw [tickets_setStation]; exact hy⟩, hr.lay, ?_, ?_, ?_,
    .inl hr.pos, ?_, ?_⟩
  · intro st' e
    rw [job_setStation, if_neg e, job_update]
  · intro st' c' m hj'
    constructor <;> rintro rfl
    · rw [hi] at hj'
      cases hj'
    obtain ⟨rfl, k', hk', hn, ha⟩ := h.acting _ _ _ hj'
    obtain rfl : k' = k := List.inj_on_of_nodup_map h.apart hk' hr.mem hn
    exact hr.only _ ha
  · intro c' n hj'
    obtain ⟨rfl, rfl⟩ : c = c' ∧ k.lay = n := by simpa using hjob.symm.trans hj'
    refine ⟨rfl, rfl, hr.acts, fun dst hd => ?_⟩
    rw [at_setStation, at_length_of_perm hy, hr.pos, ← at_length_of_perm hx]
    exact hr.ahead dst hd
  · intro hs
    obtain rfl := acting_releasing hr.acts hs
    exact ⟨_, hjob⟩
  · exact fun hs => absurd hs (acting_not_held hr.acts)

theorem sound_stationEntry_of {st : Station} {p : Option Nat} (e : stationEntry st s = (p, t)) (h : PlanSound a b s) :
    PlanSound a b t := by
  have hs : PlanSound a b (stationEntry st s).2 := by
    unfold stationEntry
    split
    · exact h
    · have hr := sound_readAxis ‹Nat› h
      split <;> rename_i heq <;> rwa [heq] at hr
  rwa [e] at hs

theorem track_of_quiet (h : quiet t = quiet s) : t.track = s.track := ((quiet_eq t s).1 h).2.2.2.2.2.2.1

theorem track_stationEntry_of {st : Station} {p : Option Nat} (e : stationEntry st s = (p, t)) : t.track = s.track := by
  have hs : (stationEntry st s).2.track = s.track := by
    unfold stationEntry
    split
    · rfl
    · split <;> exact track_of_quiet (quiet_readAxis_of (by assumption))
  rwa [e] at hs

theorem not_busy_of_mayIssue {c : Cmd} {pos : Station} (h : mayIssue c pos s = true) : s.track.job c.station = none := by
  have h' : (s.track.station c.station).inflight = none := ((mayIssue_iff c pos s).1 h).idle
  simp [Track.job, h']

/-- The issue of a command of a station other than the GRIPPER. -/
theorem sound_issueFor {c : Cmd} {k : Ticket} {f : Ticket → Ticket} (p : Word) (h : PlanSound a b s)
    (hc : c.station ≠ .gripper) (hr : s.track.Ready c k f) : PlanSound a b (issueFor c k p f s) := by
  unfold issueFor
  split
  · rename_i hm
    split
    · exact sound_stationEntry_of (by assumption) h
    · rename_i w u heq
      have hu := sound_stationEntry_of heq h
      rw [← track_stationEntry_of heq] at hr
      have hi : u.track.job c.station = none := by rw [track_stationEntry_of heq]; exact not_busy_of_mayIssue hm
      show PlanSound a b (u.setTrack ((u.track.update k.lay f).setStation c.station _))
      refine sound_setTrack hu (fun hs => ?_) (fun hs => hs.issue hr hi rfl) ?_
      · rw [tickets_setStation]; exact lays_update hs hr.mem hr.lay
      · intro hg
        rwa [job_setStation, if_neg hc.symm] at hg
  · exact h

theorem sound_issueSaw (h : PlanSound a b s) : PlanSound a b (issueSaw s) := by
  unfold issueSaw
  split
  · rename_i k hk
    refine sound_issueFor _ h (by decide) ?_
    have hd : k ∈ s.track.tickets ∧ Acting .eject k := by
      unfold ejectTicket at hk
      split at hk
      · rename_i k' hf
        obtain ⟨hm, hp⟩ := first_mem hf
        simp only [Option.ite_none_right_eq_some, Option.some.injEq, Bool.and_eq_true, Bool.or_eq_true, beq_iff_eq] at hk
        obtain ⟨⟨hs, hr⟩, rfl⟩ := hk
        exact ⟨hm, .inl ⟨hp, hs, hr⟩⟩
      · split at hk
        · rename_i k' hf
          obtain ⟨hm, hp⟩ := first_mem hf
          simp only [Option.ite_none_right_eq_some, Option.some.injEq, Bool.and_eq_true, beq_iff_eq] at hk
          obtain ⟨⟨hs, hr⟩, rfl⟩ := hk
          exact ⟨hm, .inr ⟨hp, hs, hr⟩⟩
        · cases hk
    exact ⟨hd.1, rfl, rfl, hd.2, fun _ hc => acting_station hc hd.2, fun _ hd => nomatch hd⟩
  · split
    · rename_i k hk
      unfold cutTicket at hk
      split at hk
      · rename_i k' hsaw hf
        obtain ⟨hm, hp⟩ := first_mem hf
        simp only [Option.ite_none_right_eq_some, Option.some.injEq, Bool.and_eq_true, beq_iff_eq] at hk
        obtain ⟨⟨hs, hu⟩, rfl⟩ := hk
        refine sound_issueFor _ h (by decide) ⟨hm, rfl, rfl, ⟨hp, rfl⟩, fun c' hc => ?_, fun dst hd => ?_⟩
        · cases c' <;> simp_all [Acting, Cmd.station]
        · obtain rfl : Station.saw = dst := Option.some.inj hd
          simp [at_of_first_none hsaw, capacity]
      · cases hk
    · exact h

theorem sound_issueGlue (h : PlanSound a b s) : PlanSound a b (issueGlue s) := by
  unfold issueGlue
  split
  · rename_i k hglue hf
    obtain ⟨hm, hp⟩ := first_mem hf
    split
    · rename_i hd
      simp only [Bool.and_eq_true, beq_iff_eq, unmarked_iff] at hd
      obtain ⟨hs, hu⟩ := hd
      refine sound_issueFor _ h (by decide) ⟨hm, rfl, rfl, ⟨hp, rfl⟩, fun c' hc => ?_, fun dst hd => ?_⟩
      · cases c' <;> simp_all [Acting]
      · obtain rfl : Station.glue = dst := Option.some.inj hd
        simp [at_of_first_none hglue, capacity]
    · exact h
  · exact h

theorem sound_issueShuttle (h : PlanSound a b s) : PlanSound a b (issueShuttle s) := by
  unfold issueShuttle
  split
  · rename_i k hf hflip
    obtain ⟨hm, hp⟩ := first_mem hf
    refine sound_issueFor _ h (by decide) ⟨hm, rfl, rfl, ⟨hp, rfl⟩, fun c' hc => ?_, fun dst hd => ?_⟩
    · cases c' <;> simp_all [Acting]
    · obtain rfl : Station.flipper = dst := Option.some.inj hd
      simp [at_of_first_none hflip, capacity]
  · split
    · rename_i k hf
      obtain ⟨hm, hp⟩ := first_mem hf
      split
      · rename_i hd
        simp only [Bool.and_eq_true, beq_iff_eq, decide_eq_true_eq] at hd
        obtain ⟨hs, hl⟩ := hd
        refine sound_issueFor _ h (by decide) ⟨hm, rfl, rfl, ⟨hp, rfl⟩, fun c' hc => ?_, fun dst hd => ?_⟩
        · cases c' <;> simp_all [Acting]
        · obtain rfl : Station.shuttle = dst := Option.some.inj hd
          exact hl
      · exact h
    · exact h

theorem sound_issueFlipper (h : PlanSound a b s) : PlanSound a b (issueFlipper s) := by
  unfold issueFlipper
  split
  · exact h
  · rename_i k hf
    obtain ⟨hm, hp⟩ := first_mem hf
    split
    · rename_i hd
      simp only [Bool.and_eq_true, Bool.or_eq_true, beq_iff_eq] at hd
      have ha : Acting .drop k := ⟨hp, hd⟩
      exact sound_issueFor _ h (by decide) ⟨hm, rfl, rfl, ha, fun _ hc => acting_station hc ha, fun _ hd => nomatch hd⟩
    · split
      · rename_i hd
        simp only [handoverDue, Bool.and_eq_true, beq_iff_eq, Option.isNone_iff_eq_none] at hd
        obtain ⟨⟨⟨⟨hs, _⟩, hgrip⟩, _⟩, _⟩ := hd
        refine sound_issueFor _ h (by decide) ⟨hm, rfl, rfl, ⟨hp, rfl⟩, fun c' hc => ?_, fun dst hd => ?_⟩
        · cases c' <;> simp_all [Acting]
        · obtain rfl : Station.gripper = dst := Option.some.inj hd
          simp [at_of_first_none hgrip, capacity]
      · exact h

/-! ### Admission -/

theorem sound_admit (h : PlanSound a b s) : (∃ t, admitHead s = (.none, t) ∧ PlanSound a b t) ∨
    ∃ e r g v, admitHead s = (.bound e r g, bindHead e g v) ∧ e ∈ v.plan.queue ∧ v.track = s.track ∧ PlanSound a b v := by
  unfold admitHead
  split
  · exact .inl ⟨_, rfl, h⟩
  · rename_i e es hq
    split
    · exact .inl ⟨_, rfl, sound_latch _ _ h⟩
    · unfold admitRecord
      have h1 := sound_readPart (planPart e.slot) h
      have q1 := quiet_readPart (planPart e.slot) s
      split <;> rename_i heq <;> rw [heq] at h1 q1
      · exact .inl ⟨_, rfl, sound_latch _ _ h1⟩
      · rename_i body t1
        have h2 := sound_readCourse e.course h1
        have q2 := (quiet_readCourse e.course t1).trans q1
        split <;> rename_i heq2 <;> rw [heq2] at h2 q2
        · exact .inl ⟨_, rfl, sound_latch _ _ h2⟩
        · rename_i c t2
          split
          · unfold admitInCourse
            split
            · exact .inl ⟨_, rfl, sound_latch _ _ h2⟩
            · have h3 := sound_pointTest (targetOfRecord (planRec body) c) h2
              have q3 := (quiet_pointTest (targetOfRecord (planRec body) c) t2).trans q2
              split <;> rename_i heq3 <;> rw [heq3] at h3 q3
              · exact .inl ⟨_, rfl, sound_latch _ _ h3⟩
              · refine .inr ⟨e, _, _, _, rfl, ?_, track_of_quiet q3, h3⟩
                rw [plan_of_quiet q3, hq]
                exact List.mem_cons_self
          · exact .inl ⟨_, rfl, sound_latch _ _ h2⟩

/-- R20, R24: the record that leaves the queue for the bound set has a ticket of its own at FEED. -/
theorem sound_feedBound {e : QueueEntry} {r : PlanRec} {n : Half} {y : Track} {q : StationRec} (g : Target)
    (h : PlanSound a b s) (he : e ∈ s.plan.queue) (hf : s.track.first .feed = none) (hl : s.track.tickets.length < 9)
    (hy : y.tickets = s.track.tickets ++ [newTicket n e r]) (hj : y.job = s.track.job)
    (hq : q.inflight.map (fun fl => (fl.cmd, fl.ticket)) = some (.feedOne, e.lay)) :
    PlanSound a b ((bindHead e g s).setTrack (y.setStation .feed q)) := by
  have ho : PlanOrdered ((bindHead e g s).setTrack (y.setStation .feed q)).plan := ordered_bindHead e g h.order he
  refine ⟨ho, fun ha => refs_bindHead g h.order he (h.refs ha), fun hb => ?_⟩
  obtain ⟨h1, h2, h3⟩ := (trackSound_iff h.order).1 (h.track hb)
  refine (trackSound_iff ho).2 ⟨?_, ?_, ?_⟩ <;> rw [State.setTrack_track]
  · rw [tickets_setStation, hy]
    simpa [bindHead, newTicket] using h1
  · have hn : ∀ k ∈ s.track.tickets, k.lay ≠ e.lay := by
      intro k hk hkl
      have hm : k.lay ∈ s.plan.bound.map (·.lay) := h1 ▸ List.mem_map_of_mem hk
      obtain ⟨d, hd, hdl⟩ := List.mem_map.1 hm
      exact h.order.apart e he d hd (hkl.symm.trans hdl.symm)
    refine h2.joins (k := newTicket n e r) ((tickets_setStation _ _ _).trans hy) rfl rfl hn hl
      (at_of_first_none hf) ?_ fun st hst => ?_
    · rw [job_setStation, if_pos rfl]; exact hq
    · rw [job_setStation, if_neg hst, hj]
  · rw [job_setStation, if_neg (by decide), hj]
    exact h3

/-- R32: FEED_ONE goes in flight for the record that the admission binds. -/
theorem sound_issueFeed (h : PlanSound a b s) : PlanSound a b (issueFeed s) := by
  unfold issueFeed
  split
  · rename_i hd
    simp only [Bool.and_eq_true, Option.isNone_iff_eq_none, decide_eq_true_eq] at hd
    obtain ⟨⟨hf, hl⟩, _⟩ := hd
    split
    · exact sound_stationEntry_of (by assumption) h
    · rename_i w u heq
      have htr := track_stationEntry_of heq
      rcases sound_admit (sound_stationEntry_of heq h) with ⟨v, hv, hs⟩ | ⟨e, r, g, v, hv, he, hvt, hs⟩
      · rw [hv]; exact hs
      · rw [hv]
        rw [← hvt.trans htr] at hf hl
        exact sound_feedBound g hs he hf hl rfl rfl rfl
  · exact h

theorem sound_issueCommands (h : PlanSound a b s) : PlanSound a b (issueCommands s) :=
  sound_issueFlipper (sound_issueShuttle (sound_issueGlue (sound_issueSaw (sound_issueFeed h))))

end Sys2Proof.Machine
end

section
/-! SUPPORT. The laws of the plan store and the brick track where a command ends: OPEN granted, a DONE, a discard, the restart;
and over a whole TRAIN arrival. -/

namespace Sys2Proof.Machine

variable {a b : Prop} {s t : State} {x : Track}

/-! ### OPEN -/

/-- R39, R58: the request for OPEN that is granted starts the release. -/
theorem sound_requestOpen (h : PlanSound a b s) : PlanSound a b (requestOpen s) := by
  unfold requestOpen
  split
  · rename_i k hreq hheld
    split
    · rename_i hm
      split
      · exact sound_stationEntry_of (by assumption) h
      · rename_i w u heq
        have hu := sound_stationEntry_of heq h
        have htr := track_stationEntry_of heq
        have hlaid : u.lay.asLaid = s.lay.asLaid := ((mail_eq _ _).1 (kept_stationEntry_of heq).2).2.2.2
        simp only [openRequested, Bool.and_eq_true, beq_iff_eq] at hreq
        have hk : k ∈ u.track.tickets := htr ▸ List.mem_of_find?_eq_some hheld
        have hks : k.state = .held := by simpa using List.find?_some hheld
        have hi : u.track.job .gripper = none := by rw [htr]; exact not_busy_of_mayIssue hm
        have ho : PlanOrdered (launch .openJaws k.lay (layParam k) w
          ((setTicket k.lay (fun x => { x with state := .releasing }) u).setLay u.lay.enterRelease)).plan := hu.order
        refine ⟨ho, hu.refs, fun hb => ?_⟩
        obtain ⟨h1, h2, h3⟩ := (trackSound_iff hu.order).1 (hu.track hb)
        have hdue := ((trackSound_iff h.order).1 (h.track hb)).2.2.due hreq.2
        have hr : u.track.Ready .openJaws k (fun x => { x with state := .releasing }) :=
          ⟨hk, rfl, rfl, ⟨h2.held k hk hks, rfl⟩, fun c hc => absurd hks (acting_not_held hc), fun _ hd => nomatch hd⟩
        refine (trackSound_iff ho).2 ⟨?_, h2.issue hr hi rfl, ?_⟩
        · exact (congrArg _ (tickets_setStation _ _ _)).trans ((lays_update h2 hk rfl).trans h1)
        · show Lay.Fits _ (Track.job (Track.setStation _ .gripper _) .gripper).isSome
          rw [job_setStation, if_pos rfl]
          exact h3.enterRelease (hlaid ▸ hdue.2)
    · exact h
  · exact h

/-! ### Completion -/

/-- A command that moves its ticket is done: the ticket stands where the command brings it, or where it stood. -/
theorem Track.Sound.arrive {st : Station} {c : Cmd} {k : Ticket} {f : Ticket → Ticket} {r : StationRec} (h : x.Sound)
    (hj : x.job st = some (c, k.lay)) (hk : k ∈ x.tickets) (hr : r.inflight = none) (hl : (f k).lay = k.lay)
    (hp : bringsTo c = some (f k).pos ∨ (f k).pos = k.pos) (hs : (f k).state ≠ .releasing)
    (hh : (f k).state = .held → (f k).pos = .gripper) : ((x.setStation st r).update k.lay f).Sound := by
  have hx := perm_remove h hk
  have hy : ((x.setStation st r).update k.lay f).tickets.Perm (f k :: (x.remove k.lay).tickets) := by
    rw [Track.update, tickets_setStation]
    exact perm_update h hk f
  have hjob : ∀ st', ((x.setStation st r).update k.lay f).job st' = if st' = st then none else x.job st' := by
    intro st'
    rw [job_update, job_setStation, hr]
    rfl
  refine h.turns (k := k) (k' := f k) (st := st) ⟨⟨_, hx, hy⟩, hl, ?_, h.owns hj, ?_, ?_, fun e => absurd e hs, hh⟩
  · intro st' e
    rw [hjob, if_neg e]
  · intro c' n hc
    rw [hjob, if_pos rfl] at hc
    cases hc
  · refine hp.symm.imp id fun hd => ⟨?_, fun st' c' n e hj' hd' => ?_⟩
    · have ha := h.ahead st c k.lay _ hj hd
      rw [at_length_of_perm hx] at ha
      rw [at_length_of_perm hy, if_pos rfl]
      omega
    · exact e ((h.acting _ _ _ hj').1.symm.trans ((bringsTo_station hd' hd).trans (h.acting _ _ _ hj).1))

/-- The ticket of a command that is done, on a track whose commands are sound. -/
theorem Track.Sound.done {st : Station} {fl : InFlight} {k : Ticket} (h : x.Sound)
    (hfl : (x.station st).inflight = some fl) (hk : x.find fl.ticket = some k) :
    x.job st = some (fl.cmd, k.lay) ∧ Acting fl.cmd k ∧ fl.cmd.station = st := by
  have hj : x.job st = some (fl.cmd, k.lay) := job_some.2 ⟨fl, hfl, rfl, (find_some hk).2.symm⟩
  obtain ⟨k', hk', ha⟩ := h.find_job (job_some.2 ⟨fl, hfl, rfl, rfl⟩)
  obtain rfl : k = k' := Option.some.inj (hk.symm.trans hk')
  exact ⟨hj, ha, (h.acting _ _ _ hj).1⟩

/-- A station whose command is over has taken none from the others. -/
theorem isSome_job_free {st st' : Station} {r : StationRec} (hr : r.inflight = none)
    (h : ((x.setStation st r).job st').isSome = true) : (x.job st').isSome = true := by
  rw [job_setStation, hr] at h
  split at h
  · cases h
  · exact h

/-- The command in flight of a station is over. -/
def freed (st : Station) (s : State) : State := setStation st { (s.track.station st) with inflight := none } s

theorem sound_arrive {st : Station} {fl : InFlight} {k : Ticket} {f : Ticket → Ticket} (h : PlanSound a b s)
    (hfl : (s.track.station st).inflight = some fl) (hk : s.track.find fl.ticket = some k) (hl : (f k).lay = k.lay)
    (hp : Acting fl.cmd k → bringsTo fl.cmd = some (f k).pos ∨ (f k).pos = k.pos) (hs : (f k).state ≠ .releasing)
    (hh : (f k).state = .held → (f k).pos = .gripper) : PlanSound a b (setTicket k.lay f (freed st s)) := by
  have hm := (find_some hk).1
  show PlanSound a b (s.setTrack ((s.track.setStation st { s.track.station st with inflight := none }).update k.lay f))
  refine sound_setTrack h (fun hx => ?_) (fun hx => ?_) fun hg => isSome_job_free rfl hg
  · rw [Track.update, tickets_setStation]
    exact lays_update hx hm hl
  · obtain ⟨hj, ha, _⟩ := hx.done hfl hk
    exact hx.arrive hj hm rfl hl (hp ha) hs hh

theorem bound_reissue (n : Nat) (c : Bool) (s : State) :
    (reissue n c s).plan.bound = s.plan.bound.filter (fun d => d.lay != n) := by
  unfold reissue
  split
  · rename_i hn
    exact (List.filter_eq_self.2 fun d hd => by simpa using List.find?_eq_none.1 hn d hd).symm
  · rfl

theorem bound_planLaid (n : Nat) (s : State) :
    (planLaid n s).plan.bound = s.plan.bound.filter (fun d => d.lay != n) := by
  unfold planLaid
  split
  · rename_i hn
    exact (List.filter_eq_self.2 fun d hd => by simpa using List.find?_eq_none.1 hn d hd).symm
  · rfl

theorem reissue_frame (n : Nat) (c : Bool) (s : State) :
    (reissue n c s).track = s.track ∧ (reissue n c s).lay = s.lay := by
  unfold reissue; split <;> exact ⟨rfl, rfl⟩

theorem planLaid_frame (n : Nat) (s : State) : (planLaid n s).track = s.track ∧ (planLaid n s).lay = s.lay := by
  unfold planLaid; split <;> exact ⟨rfl, rfl⟩

/-- A ticket leaves the track and its record the bound set. -/
theorem trackSound_leaves {st : Station} {k : Ticket} {r : StationRec} (ho : PlanOrdered s.plan) (ho' : PlanOrdered t.plan)
    (h : TrackSound s) (hk : k ∈ s.track.tickets) (hown : s.track.Owns st k.lay) (hr : r.inflight = none)
    (ht : t.track = (s.track.setStation st r).remove k.lay)
    (hb : t.plan.bound = s.plan.bound.filter (fun d => d.lay != k.lay))
    (hl : t.lay.Fits (if st = .gripper then false else (s.track.job .gripper).isSome)) : TrackSound t := by
  obtain ⟨h1, h2, h3⟩ := (trackSound_iff ho).1 h
  have htk : t.track.tickets = (s.track.remove k.lay).tickets := by
    rw [ht, Track.remove, tickets_setStation]; rfl
  have hj : ∀ st', t.track.job st' = if st' = st then none else s.track.job st' := by
    intro st'
    rw [ht, job_remove, job_setStation, hr]
    rfl
  refine (trackSound_iff ho').2 ⟨?_, ?_, ?_⟩
  · have hf : (s.track.tickets.map (·.lay)).filter (fun n => n != k.lay) =
        (s.plan.bound.map (·.lay)).filter (fun n => n != k.lay) := by rw [h1]
    rw [List.filter_map, List.filter_map] at hf
    rw [htk, hb]
    exact hf
  · exact h2.leaves (perm_remove h2 hk) (htk ▸ List.Perm.refl _) hown (by rw [hj, if_pos rfl])
      fun st' e => by rw [hj, if_neg e]
  · rw [hj]
    by_cases e : st = .gripper
    · rw [if_pos e.symm]; rwa [if_pos e] at hl
    · rw [if_neg (Ne.symm e)]; rwa [if_neg e] at hl

/-- R34, R38, R43, R46: a ticket leaves the track and its record is reissued; `u` is the state in which it does, the part of
the lay controller done. -/
theorem sound_dropTicket {st : Station} {k : Ticket} {r : StationRec} {u : State} (c : Bool) (h : PlanSound a b s)
    (hk : k ∈ s.track.tickets) (hown : s.track.Sound → s.track.Owns st k.lay) (hr : r.inflight = none)
    (hp : u.plan = s.plan) (ht : u.track = s.track.setStation st r)
    (hl : s.track.Sound → s.lay.Fits (s.track.job .gripper).isSome →
      u.lay.Fits (if st = .gripper then false else (s.track.job .gripper).isSome)) : PlanSound a b (dropTicket k c u) := by
  have ho : PlanOrdered (u.setTrack (u.track.remove k.lay)).plan := by rw [State.setTrack_plan, hp]; exact h.order
  unfold dropTicket
  refine ⟨ordered_reissue _ _ ho, fun ha => refs_reissue _ _ ho ?_, fun hb => ?_⟩
  · rw [State.setTrack_plan, hp]; exact h.refs ha
  · obtain ⟨_, h2, h3⟩ := (trackSound_iff h.order).1 (h.track hb)
    obtain ⟨e1, e2⟩ := reissue_frame k.lay c (u.setTrack (u.track.remove k.lay))
    refine trackSound_leaves h.order (ordered_reissue _ _ ho) (h.track hb) hk (hown h2) hr ?_ ?_ ?_
    · rw [e1, State.setTrack_track, ht]
    · rw [bound_reissue, State.setTrack_plan, hp]
    · rw [e2]; exact hl h2 h3

/-- The lay controller's share, with the command of a station other than the GRIPPER over. -/
theorem fits_freed {l : Lay} (st : Station) {q : Bool} (h : l.Fits q) : l.Fits (if st = .gripper then false else q) :=
  h.moves (.refl l) fun e => by split at e; cases e; exact e

theorem sound_drop {st : Station} {fl : InFlight} {k : Ticket} (c : Bool) (h : PlanSound a b s)
    (hfl : (s.track.station st).inflight = some fl) (hk : s.track.find fl.ticket = some k) :
    PlanSound a b (dropTicket k c (freed st s)) :=
  sound_dropTicket c h (find_some hk).1 (fun hx => hx.owns (hx.done hfl hk).1) rfl rfl rfl fun _ => fits_freed st

/-- R39, R59: OPEN is done: the block is laid, with its as-laid record. -/
theorem sound_openCompletes {st : Station} {fl : InFlight} {k : Ticket} (h : PlanSound a b s)
    (hfl : (s.track.station st).inflight = some fl) (hk : s.track.find fl.ticket = some k) (hc : fl.cmd = .openJaws) :
    PlanSound a b (openCompletes k (freed st s)) := by
  have ho : PlanOrdered (openCompletes k (freed st s)).plan := ordered_planLaid _ h.order
  refine ⟨ho, fun ha => refs_planLaid _ h.order (h.refs ha), fun hb => ?_⟩
  obtain ⟨_, h2, h3⟩ := (trackSound_iff h.order).1 (h.track hb)
  obtain ⟨hj, _, hst⟩ := h2.done hfl hk
  obtain rfl : Station.gripper = st := by rw [← hst, hc]; rfl
  obtain ⟨e1, e2⟩ := planLaid_frame k.lay
    (((freed .gripper s).setLay ((freed .gripper s).lay.endRelease k false)).setTrack ((freed .gripper s).track.remove k.lay))
  refine trackSound_leaves (st := .gripper) (r := { s.track.station .gripper with inflight := none }) h.order ho (h.track hb)
    (find_some hk).1 (h2.owns hj) rfl e1 (bound_planLaid _ _) ?_
  rw [if_pos rfl, openCompletes, e2]
  rw [hj] at h3
  exact h3.endRelease k false

/-- R28: a DONE completes its command. -/
theorem sound_complete {st : Station} {fl : InFlight} (v : Int) (h : PlanSound a b s)
    (hfl : (s.track.station st).inflight = some fl) : PlanSound a b (complete st fl v s) := by
  have hfind : (freed st s).track.find fl.ticket = s.track.find fl.ticket := by
    rw [freed, setStation, State.setTrack_track, Track.find, tickets_setStation]; rfl
  show PlanSound a b (match (freed st s).track.find fl.ticket with
    | some k => completeFor fl.cmd k v (freed st s)
    | none => freed st s)
  rw [hfind]
  split
  · rename_i k hk
    have arrives := fun f => sound_arrive (f := f) h hfl hk
    cases hc : fl.cmd with
    | feedOne => exact arrives _ rfl (fun ha => .inr (by rw [hc] at ha; exact ha.1.symm)) (by simp) (by simp)
    | cut =>
      have ht := arrives (fun x => { x with pos := .saw, state := .atSaw, measured := some v }) rfl
        (fun _ => .inl (by rw [hc]; rfl)) (by simp) (by simp)
      exact sound_ite (sound_marks ht (marked_markReject _ k) (job_markReject _ k)) ht
    | eject => exact sound_drop _ h hfl hk
    | glue => exact arrives _ rfl (fun _ => .inl (by rw [hc]; rfl)) (by simp) (by simp)
    | load => exact arrives _ rfl (fun _ => .inl (by rw [hc]; rfl)) (by simp) (by simp)
    | deliver => exact arrives _ rfl (fun _ => .inl (by rw [hc]; rfl)) (by simp) (by simp)
    | handover =>
      exact sound_placementBegins _ (arrives _ rfl (fun _ => .inl (by rw [hc]; rfl)) (by simp) (fun _ => rfl))
    | drop => exact sound_drop _ h hfl hk
    | openJaws => exact sound_openCompletes h hfl hk hc
  · rename_i hn
    refine sound_setTrack h (fun _ => by rw [tickets_setStation]) (fun hx => ?_) (isSome_job_free rfl)
    obtain ⟨k, hk, _⟩ := hx.find_job (job_some.2 ⟨fl, hfl, rfl, rfl⟩)
    rw [hk] at hn
    cases hn

theorem sound_stationReport (st : Station) (f : Feedback) (h : PlanSound a b s) : PlanSound a b (stationReport st f s) := by
  refine sound_compareSensor _ _ ?_
  unfold reportCommand
  dsimp only
  split
  · exact h
  · rename_i fl hfl
    refine sound_ite (sound_complete _ h hfl) (sound_ite (sound_latch _ _ (sound_setStation h ?_)) h)
    exact (job_some.2 ⟨fl, hfl, rfl, rfl⟩).symm

/-! ### Discard -/

/-- A lay number that is under no command. -/
theorem job_of_not_underCommand {n : Nat} (h : underCommand s n = false) (st : Station) (c : Cmd) :
    s.track.job st ≠ some (c, n) := by
  intro hj
  obtain ⟨fl, hfl, _, hn⟩ := job_some.1 hj
  have hst : st ∈ allStations := by cases st <;> simp [allStations]
  have := List.any_eq_false.1 h st hst
  simp [hfl, hn] at this

/-- R46: the ticket that a discard takes is under the command of its station, if there is one, and under no other. -/
theorem discardOf_taken {st : Station} {k : Ticket} (h : discardOf st s = .taken (some k)) :
    k ∈ s.track.tickets ∧ (s.track.Sound → s.track.Owns st k.lay) := by
  unfold discardOf at h
  split at h
  · rename_i fl hfl
    obtain hk : s.track.find fl.ticket = some k := by simpa using h
    exact ⟨(find_some hk).1, fun hx => hx.owns (hx.done hfl hk).1⟩
  · rename_i hnone
    have hj : s.track.job st = none := by simp [Track.job, hnone]
    split at h
    · rename_i k' hf
      split at h
      · cases h
      · rename_i hu
        obtain rfl : k' = k := by simpa using h
        refine ⟨(first_mem hf).1, fun _ st' c m hj' => ⟨fun e => ?_, fun e => ?_⟩⟩
        · rw [e, hj] at hj'
          cases hj'
        · exact absurd (e ▸ hj') (job_of_not_underCommand (by simpa using hu) st' c)
    · split at h <;> simp at h

/-- R59, R61: what a discard does to the lay controller. -/
theorem fits_discardPlacement {st : Station} {k : Ticket} {u : State} (hx : s.track.Sound) (hk : k ∈ s.track.tickets)
    (hown : s.track.Owns st k.lay) (hu : u.lay = s.lay) (h : s.lay.Fits (s.track.job .gripper).isSome) :
    (discardPlacement k u).lay.Fits (if st = .gripper then false else (s.track.job .gripper).isSome) := by
  unfold discardPlacement
  split
  · rename_i hs
    obtain ⟨c, hc⟩ := hx.releasing k hk hs
    rw [if_pos ((hown _ _ _ hc).2 rfl).symm, State.setLay_lay, hu]
    rw [hc] at h
    exact h.endRelease k true
  · rw [State.setLay_lay, hu]
    exact fits_freed st (h.moves (moves_discardHeld _) id)
  · rw [hu]
    exact fits_freed st h

theorem track_discardPlacement (k : Ticket) (s : State) : (discardPlacement k s).track = s.track := by
  unfold discardPlacement; split <;> rfl

/-- R46: the station is cleared and the ticket is gone, with a reissue that does not count. -/
theorem sound_discard {st : Station} {k : Option Ticket} (h : PlanSound a b s) (hd : discardOf st s = .taken k) :
    PlanSound a b (discard st k s) := by
  unfold discard
  dsimp only
  cases k with
  | some k =>
    obtain ⟨hk, hown⟩ := discardOf_taken hd
    exact sound_dropTicket false h hk hown (r := { s.track.station st with inflight := none, stall := .none }) rfl
      (plan_discardPlacement _ _) (track_discardPlacement _ _) fun hx => fits_discardPlacement hx hk (hown hx) rfl
  | none =>
    unfold discardOf at hd
    split at hd
    · rename_i fl hfl
      refine sound_setTrack h (fun _ => by rw [tickets_setStation]) (fun hx => ?_) (isSome_job_free rfl)
      obtain ⟨k, hk, _⟩ := hx.find_job (job_some.2 ⟨fl, hfl, rfl, rfl⟩)
      simp [hk] at hd
    · rename_i hnone
      exact sound_setStation h (by simp [Track.job, hnone])

theorem sound_discardAnswer (r : Request) (st : Station) (h : PlanSound a b s) : PlanSound a b (discardAnswer r st s) := by
  unfold discardAnswer
  split
  · exact sound_setMgmt _ h
  · exact sound_setMgmt _ h
  · exact sound_setMgmt _ (sound_discard h (by assumption))

/-! ### Resets -/

theorem Track.Sound.empty (ht : x.tickets = []) (hj : ∀ st, x.job st = none) : x.Sound := by
  refine ⟨by simp [ht], by simp [ht], fun st => by simp [Track.at, ht], ?_, ?_, by simp [ht], by simp [ht]⟩
  · intro st c n h
    rw [hj] at h
    cases h
  · intro st c n _ h
    rw [hj] at h
    cases h

/-- A plan store, a track and a lay controller as a power-on reset leaves them. -/
theorem sound_initial (hp : s.plan = Plan.initial) (ht : s.track = Track.initial) (hl : s.lay = Lay.initial) :
    PlanSound a b s := by
  have ho : PlanOrdered s.plan := hp ▸ PlanOrdered.initial
  refine ⟨ho, fun _ => ?_, fun _ => (trackSound_iff ho).2 ⟨by rw [ht, hp]; rfl, ?_, ?_⟩⟩
  · rw [hp, refsCounted_iff]
    intro c hc
    simp [Plan.initial, Plan.courses, hc]
  · rw [ht]
    exact .empty rfl fun st => by cases st <;> rfl
  · rw [hl, ht]
    exact ⟨by simp [Lay.initial], fun hd => by simp [Lay.initial] at hd, fun hg => by cases hg⟩

theorem reissueAll_frame (s : State) : (reissueAll s).track = s.track ∧ (reissueAll s).lay = s.lay ∧
    (reissueAll s).plan.bound = s.plan.bound.filter (fun d => decide (d.lay ∉ s.track.tickets.map (·.lay))) := by
  unfold reissueAll
  generalize s.track.tickets.map (·.lay) = l
  induction l generalizing s with
  | nil => simp
  | cons n l ih =>
    obtain ⟨h1, h2, h3⟩ := ih (reissue n false s)
    obtain ⟨e1, e2⟩ := reissue_frame n false s
    refine ⟨h1.trans e1, h2.trans e2, h3.trans ?_⟩
    rw [bound_reissue, List.filter_filter]
    congr 1
    funext d
    by_cases hd : d.lay = n <;> simp [hd]

theorem job_restarted (x : Track) (st : Station) : x.restarted.job st = none := by cases st <;> rfl

/-- R21, R47, R67, R175: a restart returns every bound record to the queue and empties the track. -/
theorem sound_restart (h : PlanSound a b s) : PlanSound a b (restart s) := by
  obtain ⟨h1, h2, h3⟩ := reissueAll_frame s
  have ho := ordered_reissueAll h.order
  refine sound_toStandby (sound_setAxis _ ⟨ho, fun ha => refs_reissueAll h.order (h.refs ha), fun hb => ?_⟩)
  obtain ⟨e1, _, e3⟩ := (trackSound_iff h.order).1 (h.track hb)
  have hbound : (reissueAll s).plan.bound = [] := by
    rw [h3, List.filter_eq_nil_iff, e1]
    exact fun d hd => by simpa using ⟨d, hd, rfl⟩
  refine (trackSound_iff (s := (((reissueAll s).setTrack (reissueAll s).track.restarted).setLay
    (reissueAll s).lay.restarted)) ho).2 ⟨?_, .empty rfl (job_restarted _), ?_⟩
  · rw [State.setLay_plan, State.setTrack_plan, hbound]
    rfl
  · rw [State.setLay_track, State.setTrack_track, job_restarted, State.setLay_lay, h2]
    exact ⟨e3.laid, fun hd => by simp [Lay.restarted, Lay.initial] at hd, fun hg => by cases hg⟩

theorem sound_ringReset : PlanSound a b (ringReset s) := sound_initial rfl rfl rfl

/-! ### Trains -/

theorem sound_outboundTrain (c : Word) (p : Half) (h : PlanSound a b s) : PlanSound a b (outboundTrain c p s) := by
  have h1 : PlanSound a b (beginTrain c p s) := sound_setAxis _ (sound_setRing _ h)
  have h2 := sound_scrubStep (sound_evalTerms (List.range 32) (sound_gateAtTrain h1))
  have h3 := sound_evaluateZones (sound_stabCompute (frozen s) (sound_offsetStep (sound_approachIfHeld h2)))
  unfold outboundTrain trainIssue trainCompute
  exact sound_issueCommands (sound_spoilAtFlipper (sound_requestOpen (sound_layVerdict h3)))

theorem sound_judgeSlot (r : Role) (h : PlanSound a b s) : PlanSound a b (judgeSlot r s) := by
  unfold judgeSlot
  split
  · exact h
  · exact sound_ite h (sound_ite (sound_latch _ _ (sound_setAxis _ h)) (sound_setAxis _ h))

theorem sound_outboundEnd (h : PlanSound a b s) : PlanSound a b (outboundEnd s) :=
  sound_setAxis _ (sound_judgeSlot _ (sound_judgeSlot _ (sound_judgeSlot _ (sound_judgeSlot _ (sound_gateAtEnd h)))))

end Sys2Proof.Machine
end

section
/-! The laws of the plan store and the brick track over every management operation, every cell and every expiry, and so over
every step (O6). -/

namespace Sys2Proof.Machine

variable {a b : Prop} {s t : State}

/-! ### Replies and reads -/

theorem sound_answer (r : Request) (c : ReplyCode) (w : Byte) (d : Part) (h : PlanSound a b s) :
    PlanSound a b (answer r c w d s) := sound_setMgmt _ h

theorem sound_answerTwice (r : Request) (c : ReplyCode) (w : Byte) (d e : Part) (h : PlanSound a b s) :
    PlanSound a b (answerTwice r c w d e s) := sound_setMgmt _ (sound_setMgmt _ h)

theorem sound_writeShown (r : Request) (h : PlanSound a b s) : PlanSound a b (writeShown r s).2 := by
  unfold writeShown
  split
  · rename_i n _
    show PlanSound a b (writtenPart n s).2
    unfold writtenPart
    split
    · exact h
    · split <;> exact sound_readPart_of (by assumption) h
  · split
    · exact h
    · split <;> exact h

theorem sound_respond (r : Request) (c : ReplyCode) (h : PlanSound a b s) : PlanSound a b (respond r c s) :=
  sound_ite (sound_answerTwice _ _ _ _ _ h) (sound_ite h (sound_ite (sound_answer _ _ _ _ (sound_writeShown r h))
    (sound_ite (sound_answer _ _ _ _ h) (sound_ite (sound_answer _ _ _ _ h) (sound_answer _ _ _ _ h)))))

theorem sound_readOrigins (c : Byte) (l : List Nat) (h : PlanSound a b s) : PlanSound a b (readOrigins c l s).2 := by
  induction l generalizing s with
  | nil => exact h
  | cons i l ih =>
    simp only [readOrigins]
    split <;> exact ih (sound_readPart _ h)

theorem sound_opRead (r : Request) (h : PlanSound a b s) : PlanSound a b (opReadExec r s) := by
  unfold opReadExec readPlan readCounters readTablePart
  dsimp only
  split
  · split
    · split <;> exact sound_answer _ _ _ _ (sound_readPart_of (by assumption) h)
    · exact sound_answer _ _ _ _ h
  · split
    · split <;> exact sound_answer _ _ _ _ h
    · split
      · exact sound_answer _ _ _ _ h
      · split
        · split <;> exact sound_answer _ _ _ _ (sound_readPart_of (by assumption) h)
        · exact sound_answer _ _ _ _ h

theorem sound_opProbe (r : Request) (l : Nat) (h : PlanSound a b s) : PlanSound a b (opProbeExec r l s) := by
  have hz := sound_readZone r.index.toNat h
  have hc := sound_readCourse r.index.toNat h
  unfold opProbeExec probeZone probeCourse
  refine sound_ite (sound_ite ?_ (sound_answerTwice _ _ _ _ _ h)) (sound_ite ?_ (sound_answerTwice _ _ _ _ _ h))
  · split <;> rename_i heq <;> rw [heq] at hz <;> exact sound_answerTwice _ _ _ _ _ hz
  · split <;> rename_i heq <;> rw [heq] at hc <;> exact sound_answerTwice _ _ _ _ _ hc

theorem sound_scanMeets (n c i : Nat) (h : PlanSound a b s) : PlanSound a b (scanMeets n c i s).2 := by
  have hp : PlanSound a b (scanPresent n i s).2 := by
    unfold scanPresent
    split <;> exact sound_readPart_of (by assumption) h
  unfold scanMeets
  split
  · exact h
  · exact hp
  · exact hp
  · exact h
  · exact h

theorem sound_scanFrom (n c : Nat) (u : Bool) (k i : Nat) (h : PlanSound a b s) : PlanSound a b (scanFrom n c u k i s).2 := by
  induction k generalizing i s with
  | zero => exact h
  | succ k ih =>
    have hm := sound_scanMeets n c i h
    unfold scanFrom
    split <;> rename_i heq <;> rw [heq] at hm
    · exact hm
    · split
      · exact hm
      · exact hm
      · exact ih _ hm

theorem sound_opScan (r : Request) (h : PlanSound a b s) : PlanSound a b (opScanExec r s) :=
  sound_ite (sound_answer _ _ _ _ h) (sound_ite (sound_answer _ _ _ _ h) (sound_answer _ _ _ _ (sound_scanFrom _ _ _ _ _ h)))

/-! ### Plan and machine -/

theorem sound_opAppend (r : Request) (h : PlanSound a b s) : PlanSound a b (opAppendExec r s) := by
  have hr := fun c => sound_respond r c h
  unfold opAppendExec
  refine sound_ite (hr _) ?_
  split
  · exact hr _
  · rename_i ho
    have hord := ordered_planAccept r.data h.order (by simpa using ho)
    refine sound_ite (hr _) (sound_answer _ _ _ _ ⟨hord, fun ha => refs_planAccept _ (h.refs ha), fun hb => ?_⟩)
    exact (trackSound_iff hord).2 ((trackSound_iff h.order).1 (h.track hb))

theorem sound_opFlush (r : Request) (h : PlanSound a b s) : PlanSound a b (opFlushExec r s) := by
  have hord := ordered_planFlushFrom (layOf r) h.order
  refine sound_ite (sound_respond _ _ h)
    (sound_answer _ _ _ _ ⟨hord, fun ha => refs_planFlushFrom _ (h.refs ha), fun hb => (trackSound_iff hord).2 ?_⟩)
  rw [show (planFlushFrom (layOf r) s).plan.bound = s.plan.bound from dropRefs_bound _ _]
  exact (trackSound_iff h.order).1 (h.track hb)

theorem skipTarget_mem {l : Nat} {e : QueueEntry} (h : skipTarget l s = some e) : e ∈ s.plan.queue := by
  unfold skipTarget at h
  split at h
  · exact List.mem_of_mem_head? h
  · exact List.mem_of_find?_eq_some h

theorem sound_opSkip (r : Request) (h : PlanSound a b s) : PlanSound a b (opSkipExec r s) := by
  unfold opSkipExec
  refine sound_ite (sound_respond _ _ h) ?_
  split
  · exact sound_respond _ _ h
  · rename_i e he
    have hord := ordered_planRemove e h.order
    exact sound_answer _ _ _ _ ⟨hord, fun ha => refs_planRemove h.order (skipTarget_mem he) (h.refs ha),
      fun hb => (trackSound_iff hord).2 ((trackSound_iff h.order).1 (h.track hb))⟩

theorem sound_modeRequest (c : Nat) (h : PlanSound a b s) : PlanSound a b (modeRequest c s).2 := by
  have hl := sound_setCtl { s.ctl with ret := none, starved := false, request := false } h
  unfold modeRequest
  split
  · unfold requestGuard
    split
    · split
      · exact sound_report (sound_setMode _ h)
      · exact h
    · exact h
    · exact sound_report (sound_setMode _ h)
    · exact h
  · unfold requestLay
    split
    · split
      · exact sound_setMode _ h
      · exact h
    all_goals exact h
  · exact sound_toStandby h
  · unfold requestHold
    split
    · exact h
    all_goals exact sound_raiseRequest h
  · unfold requestResume
    split
    · split
      · exact h
      · exact sound_setMode _ hl
    all_goals exact h
  · unfold requestRecover
    split
    · split
      · exact sound_takeCauses (sound_setMode _ (sound_setCtl _ (sound_setGuard _ hl)))
      · exact h
    all_goals exact h

theorem sound_opMode (r : Request) (l : Nat) (h : PlanSound a b s) : PlanSound a b (opModeExec r l s) :=
  sound_ite (sound_respond _ _ h) (sound_ite (sound_respond _ _ h) (sound_respond _ _ (sound_modeRequest _ h)))

theorem sound_opSuspend (r : Request) (l : Nat) (on : Bool) (h : PlanSound a b s) : PlanSound a b (opSuspendExec r l on s) := by
  unfold opSuspendExec suspendPoisoned
  refine sound_ite (sound_respond _ _ h) (sound_ite (sound_respond _ _ h) ?_)
  split
  · exact sound_respond _ _ (sound_readPart_of (by assumption) h)
  · have h1 := sound_readPart_of (by assumption) h
    exact sound_ite (sound_respond _ _ h1) (sound_ite (sound_respond _ _ h1) (sound_respond _ _ (sound_setGuard _ h1)))

theorem sound_opStation (r : Request) (h : PlanSound a b s) : PlanSound a b (opStationExec r s) := by
  unfold opStationExec
  split
  · exact sound_respond _ _ h
  · exact sound_ite (sound_respond _ _ (sound_retry _ h)) (sound_ite (sound_discardAnswer _ _ h) (sound_respond _ _ h))

/-! ### Writes -/

theorem sound_readForMerge_of {n : Nat} {m : Half} {d : Part} {p : Option Part} (e : readForMerge n m d s = (p, t))
    (h : PlanSound a b s) : PlanSound a b t := by
  have hr : PlanSound a b (readForMerge n m d s).2 := by
    unfold readForMerge
    split
    · exact h
    · split <;> exact sound_readPart_of (by assumption) h
  rwa [e] at hr

theorem sound_storeMerged (r : Request) (n : Nat) (d : Part) {f : State → State}
    (hf : ∀ t, PlanSound a b t → PlanSound a b (f t)) (h : PlanSound a b s) : PlanSound a b (storeMerged r n d f s) :=
  sound_ite h (hf _ (sound_storeAccepted _ _ h))

theorem sound_writeOrigin (r : Request) (l : Nat) (h : PlanSound a b s) : PlanSound a b (writeOriginTable r l s) := by
  unfold writeOriginTable
  refine sound_ite (sound_respond _ _ h) (sound_ite (sound_respond _ _ h) ?_)
  split <;> have h1 := sound_readForMerge_of (by assumption) h
  · exact sound_respond _ _ h1
  · exact sound_ite (sound_respond _ _ (sound_storeMerged _ _ _ (fun _ ht => ht) h1)) (sound_respond _ _ h1)

theorem sound_lineEffects (p : Params) (h : PlanSound a b s) : PlanSound a b (lineEffects p s) := by
  have h1 : PlanSound a b (if settingsDiffer p s.params then settingsChanged s else s) := sound_ite (sound_settingsChanged h) h
  have h2 := sound_ite (p := (p.trkLoop == s.params.trkLoop) = true) h1
    (sound_ite (p := s.params.trkLoop = true) (sound_loopSet h1) (sound_loopCleared h1))
  exact sound_ite (sound_recomputeExpiries h2) h2

theorem sound_paramEffects (n : Nat) (p : Params) (h : PlanSound a b s) : PlanSound a b (paramEffects n p s) := by
  unfold paramEffects
  split
  · exact sound_reachOpenTimes h
  · exact sound_lineEffects _ h
  · exact sound_ite h (sound_ite (sound_evalTerm _ h) (sound_report h))
  · exact h

theorem sound_acceptParam (n : Nat) (p : Params) (h : PlanSound a b s) : PlanSound a b (acceptParam n p s) :=
  sound_paramEffects _ _ (sound_storePart _ _ (sound_setParams _ (sound_ite (sound_loopCatchUp h) h)))

theorem sound_writeParam (r : Request) (l : Nat) (h : PlanSound a b s) : PlanSound a b (writeParamTable r l s) := by
  have hr := fun c => sound_respond r c h
  have hp : PlanSound a b (writeParamPart r r.part.toNat s) := by
    unfold writeParamPart
    split <;> have h1 := sound_readForMerge_of (by assumption) h
    · exact sound_respond _ _ h1
    · exact sound_respond _ _ (sound_ite h1 (sound_acceptParam _ _ h1))
  exact sound_ite (sound_ite (hr _) (sound_ite (hr _) hp)) (sound_ite (hr _) (sound_ite (hr _) (hr _)))

theorem sound_axisAccepted (i : Nat) (e : AxisRec) (h : PlanSound a b s) : PlanSound a b (axisAccepted i e s) :=
  sound_evalTerms _ (sound_ite (sound_setAxis _ h) (sound_setAxis _ h))

theorem sound_writeAxis (r : Request) (l : Nat) (h : PlanSound a b s) : PlanSound a b (writeAxisTable r l s) := by
  unfold writeAxisTable
  refine sound_ite (sound_respond _ _ h) (sound_ite (sound_respond _ _ h) (sound_ite (sound_respond _ _ h) ?_))
  split <;> have h1 := sound_readForMerge_of (by assumption) h
  · exact sound_respond _ _ h1
  · exact sound_ite (sound_respond _ _ (sound_storeMerged _ _ _ (fun _ ht => sound_axisAccepted _ _ ht) h1)) (sound_respond _ _ h1)

theorem sound_termLevelOk (i l : Nat) (zs : List Nat) (h : PlanSound a b s) : PlanSound a b (termLevelOk i l zs s).2 := by
  induction zs generalizing s with
  | nil => exact h
  | cons z zs ih =>
    simp only [termLevelOk]
    split <;> exact ih (sound_readPart _ h)

theorem sound_writeTerm (r : Request) (l : Nat) (h : PlanSound a b s) : PlanSound a b (writeTermTable r l s) := by
  have h0 := sound_termLevelOk r.index.toNat l (List.range 64) h
  unfold writeTermTable
  refine sound_ite (sound_respond _ _ h) (sound_ite (sound_respond _ _ h) ?_)
  split <;> rename_i heq <;> rw [heq] at h0
  · exact sound_respond _ _ h0
  · split <;> have h1 := sound_readForMerge_of (by assumption) h0
    · exact sound_respond _ _ h1
    · exact sound_ite (sound_respond _ _ (sound_storeMerged _ _ _ (fun _ ht => sound_evalTerm _ ht) h1)) (sound_respond _ _ h1)

theorem sound_readStored (n : Nat) (m : Half) (h : PlanSound a b s) : PlanSound a b (readStored n m s).2 := by
  unfold readStored
  split
  · exact h
  · exact sound_readPart _ h

theorem sound_writeZoneMerged (r : Request) (l : Nat) (p : Option Part) (h : PlanSound a b s) :
    PlanSound a b (writeZoneMerged r l p s) := by
  have hz : PlanSound a b (zoneMerged r p s).2 := by
    unfold zoneMerged
    split
    · exact sound_readPart _ h
    · exact sound_readForMerge_of rfl h
  unfold writeZoneMerged
  split <;> rename_i heq <;> rw [heq] at hz
  · exact sound_respond _ _ hz
  · exact sound_ite (sound_respond _ _ hz) (sound_ite (sound_respond _ _ hz)
      (sound_respond _ _ (sound_storeMerged _ _ _ (fun _ ht => sound_report ht) hz)))

theorem sound_writeZone (r : Request) (l : Nat) (h : PlanSound a b s) : PlanSound a b (writeZoneTable r l s) := by
  have h0 : PlanSound a b (readZero r s).2 := sound_readStored _ _ h
  unfold writeZoneTable
  exact sound_ite (sound_respond _ _ h) (sound_ite (sound_writeZoneMerged _ _ _ h0) (sound_respond _ _ h0))

theorem sound_writeCourseMerged (r : Request) (m o z : Option Part) (h : PlanSound a b s) :
    PlanSound a b (writeCourseMerged r m o z s) := by
  have hr := fun c => sound_respond r c h
  unfold writeCourseMerged
  split
  · exact hr _
  · exact sound_ite (hr _) (sound_ite (hr _) (sound_ite (hr _)
      (sound_respond _ _ (sound_storeMerged _ _ _ (fun _ ht => ht) h))))

theorem sound_writeCourse (r : Request) (l : Nat) (h : PlanSound a b s) : PlanSound a b (writeCourseTable r l s) :=
  sound_ite (sound_respond _ _ h) (sound_ite (sound_respond _ _ h)
    (sound_ite (sound_writeCourseMerged _ _ _ _ (sound_readPart _ (sound_readStored _ _ h)))
      (sound_writeCourseMerged _ _ _ _ (sound_readPart _ (sound_readForMerge_of rfl h)))))

theorem sound_opWrite (r : Request) (l : Nat) (h : PlanSound a b s) : PlanSound a b (opWriteExec r l s) := by
  unfold opWriteExec
  split
  · exact sound_writeOrigin _ _ h
  · exact sound_writeParam _ _ h
  · exact sound_writeAxis _ _ h
  · exact sound_writeTerm _ _ h
  · exact sound_writeZone _ _ h
  · exact sound_writeCourse _ _ h

/-! ### Every operation and every cell -/

theorem sound_perform (r : Request) (l : Nat) (h : PlanSound a b s) : PlanSound a b (perform r l s) := by
  unfold perform
  refine sound_ite (sound_opRead _ h) ?_
  refine sound_ite (sound_opWrite _ _ h) ?_
  refine sound_ite (sound_opProbe _ _ h) ?_
  refine sound_ite (sound_opScan _ h) ?_
  refine sound_ite (sound_opAppend _ h) ?_
  refine sound_ite (sound_opFlush _ h) ?_
  refine sound_ite (sound_opSkip _ h) ?_
  refine sound_ite (sound_opMode _ _ h) ?_
  refine sound_ite (sound_opSuspend _ _ _ h) ?_
  refine sound_ite (sound_opSuspend _ _ _ h) ?_
  refine sound_ite (sound_respond _ _ (sound_setCtl _ h)) ?_
  refine sound_ite (sound_opStation _ h) ?_
  exact sound_ite (sound_respond _ _ (sound_restart h)) sound_ringReset

theorem sound_manage (r : Request) (h : PlanSound a b s) : PlanSound a b (manage r s) := by
  have ho := sound_readOrigins r.src (List.range 8) h
  unfold manage originLevel
  refine sound_ite ?_ (sound_setMgmt _ h)
  split <;> rename_i heq <;> rw [heq] at ho
  · exact sound_respond _ _ ho
  · have hr := fun c => sound_respond r c ho
    exact sound_ite (hr _) (sound_ite (hr _) (sound_ite (hr _) (sound_ite (hr _) (sound_perform _ _ ho))))

theorem sound_enqueue (p : Port) (c : Cell) (h : PlanSound a b s) : PlanSound a b (enqueue p c s) :=
  sound_ite (sound_setRing _ h) (sound_setRing _ h)

theorem sound_enqueueFill (p : Port) (c : Cell) (h : PlanSound a b s) : PlanSound a b (enqueueFill p c s) :=
  sound_ite (sound_enqueue _ _ h) h

theorem sound_conditionSet (c : Cell) (h : PlanSound a b s) : PlanSound a b (conditionSet c s).2 := by
  have hc : ∀ i, PlanSound a b (conditionCoarse i c s).2 := by
    intro i
    have hr := sound_readAxis i h
    unfold conditionCoarse
    split
    · exact sound_setAxis _ h
    · split <;> rename_i heq <;> rw [heq] at hr
      · exact sound_setAxis _ hr
      · split
        · exact sound_setAxis _ hr
        · unfold forwardLimited
          split <;> exact sound_setAxis _ hr
  have hf : ∀ r i, PlanSound a b (fillFine r i c s).2 := by
    intro r i
    unfold fillFine
    split
    · exact h
    · exact sound_setAxis _ h
  have hst : ∀ st i, PlanSound a b (fillStation st i c s).2 := by
    intro st i
    unfold fillStation
    split <;> exact h
  unfold conditionSet
  split
  · exact h
  · rename_i i e _
    cases e.role
    case coarse => exact hc i
    case fineX => exact hf _ i
    case fineY => exact hf _ i
    case fineZ => exact hf _ i
    case fineW => exact hf _ i
    case sensor => exact h
    all_goals exact hst _ i

theorem sound_captureCell (c : Cell) (h : PlanSound a b s) : PlanSound a b (captureCell c s) := by
  unfold captureCell
  split
  · exact h
  · refine sound_ite h ?_
    simp only [capture]
    split
    · exact sound_stationReport _ _ (sound_evalTerms _ (sound_setAxis _ h))
    · exact sound_evalTerms _ (sound_setAxis _ h)

/-- R143: as-laid records leave their queue. -/
theorem sound_appendOwn (h : PlanSound a b s) : PlanSound a b (appendOwn s) := by
  have he : PlanSound a b (enqueueAll .up (ownCells s) s) := sound_fold _ (fun _ _ ht => sound_enqueue _ _ ht) _ h
  refine sound_ite (sound_setRing _ (sound_setLay (sound_setMgmt _ he) ⟨?_, id, fun hd hp => ?_⟩)) h
  · simp
  · obtain ⟨h1, h2⟩ := hd hp
    refine ⟨h1, lt_of_le_of_lt ?_ h2⟩
    simp

theorem sound_passUp (c : Cell) (h : PlanSound a b s) : PlanSound a b (passUp c s) := by
  unfold passUp
  refine sound_ite ?_ (sound_ite ?_ (sound_ite (sound_ite ?_ ?_) (sound_ite ?_ (sound_ite ?_ ?_))))
  · exact sound_enqueue _ _ (sound_ite h (sound_outboundTrain _ _ h))
  · have hc := sound_conditionSet c h
    exact sound_enqueue _ _ (sound_ite hc (sound_setAxis _ hc))
  · exact sound_manage _ h
  · exact sound_enqueue _ _ h
  · exact sound_enqueue _ _ (sound_outboundEnd h)
  · exact sound_enqueueFill _ _ h
  · exact sound_enqueue _ _ h

theorem sound_passDown (c : Cell) (h : PlanSound a b s) : PlanSound a b (passDown c s) :=
  sound_ite (sound_enqueue _ _ (sound_captureCell _ h)) (sound_ite (sound_enqueue _ _ (sound_appendOwn h))
    (sound_ite (sound_enqueueFill _ _ h) (sound_enqueue _ _ h)))

/-- The arrival of a cell. -/
theorem sound_receive (p : Port) (c : Cell) (h : PlanSound a b s) : PlanSound a b (receive p c s) := by
  have h1 := sound_setRing (s.ring.setRx p ((s.ring.rx p).receive (isGood c) s.clock.us)) h
  refine sound_ite (sound_ite ?_ (sound_enqueue _ _ (sound_setRing _ h1))) h1
  cases p
  · exact sound_passUp _ h1
  · exact sound_passDown _ h1

/-! ### Every step -/

theorem sound_reachActivity (p : Port) (h : PlanSound a b s) : PlanSound a b (reachActivity p s) :=
  sound_ite (sound_setRing _ h) h

theorem sound_transmit (p : Port) (h : PlanSound a b s) : PlanSound a b (transmit p s) := by
  unfold transmit
  dsimp only
  split <;> exact sound_setRing _ h

/-- The passing of a microsecond. -/
theorem sound_tick (h : PlanSound a b s) : PlanSound a b (tick s) := by
  have h1 : PlanSound a b (reachStations (reachWatchdog (reachActivity .down (reachActivity .up s)))) :=
    sound_fold _ (fun _ _ ht => sound_reachStation _ ht) _
      (sound_reachWatchdog (sound_reachActivity _ (sound_reachActivity _ h)))
  have h2 := sound_reachBreak (sound_reachLost (sound_reachStale (sound_reachSettle (sound_reachOpenTimes h1))))
  exact sound_setClock _ (sound_reachReacquire (sound_reachSent (sound_loopCatchUp h2)))

/-- Whatever command runs. -/
theorem sound_exec (c : Instr) (h : PlanSound a b s) (he : exec c s = .next t) : PlanSound a b t := by
  have hn : ∀ {u : State}, PlanSound a b u → (.next u : Result) = .next t → PlanSound a b t := by
    intro u hu e
    cases e
    exact hu
  cases c
  case powerOnReset => exact hn (sound_initial rfl rfl rfl) he
  case lineActivityTimeout => exact hn (sound_reachActivity _ h) he
  case cellTransmit => exact hn (sound_transmit _ h) he
  case fineSet => exact hn (sound_receive _ _ (sound_setAxis _ h)) he
  case trainWatchdogExpiry => exact hn (sound_reachWatchdog h) he
  case stationTimeout => exact hn (sound_reachStation _ h) he
  case openTimeExpiry => exact hn (sound_reachOpenTimesOf _ h) he
  case placeTimeout => exact hn (sound_reachSettle h) he
  case characterReceive => exact hn (sound_receiveCharacter _ _ _ h) he
  case sampleFrameComplete => exact hn (sound_receiveFrame _ _ h) he
  case loopFrame => exact hn (sound_loopFeed _ _ _ h) he
  case lineBreak => exact hn (sound_detectBreak h) he
  case lineBreakEnd => exact hn (sound_setLine _ h) he
  case trkReadyChange => exact hn (sound_setReady _ h) he
  case staleExpiry => exact hn (sound_reachStale h) he
  case lostExpiry => exact hn (sound_reachLost h) he
  case reacquireDue => exact hn (sound_reachReacquire h) he
  case reacquireSent => exact hn (sound_reachSent h) he
  case tableMemoryError part word bit second =>
    have he' : (if bitsExist part word bit second then .next (flipBits part word bit second s)
      else .fault .noSuchBit : Result) = .next t := he
    split at he'
    · exact hn (sound_setMem _ h) he'
    · cases he'
  all_goals exact hn (sound_receive _ _ h) he

theorem sound_step (h : PlanSound a b s) (he : step s = .next t) : PlanSound a b t := by
  unfold step at he
  split at he
  · cases he
    exact sound_tick h
  · exact sound_exec _ (sound_setPending _ h) he

/-- Settles O6: the three laws are carried through the step together. -/
theorem everyStepKeepsThePlanInLayOrder : Obligations.EveryStepKeepsThePlanInLayOrder := by
  intro s t ho he
  have h : PlanSound (RefsCounted s.plan) (TrackSound s) t := sound_step ⟨ho, id, id⟩ he
  exact ⟨h.order, h.refs, h.track⟩

end Sys2Proof.Machine
end

section
/-! SUPPORT. How a request that is heard is refused for its level, and the reply that an answer adds to the queue. -/

namespace Sys2Proof.Machine

variable {s : State} {who : Sender} {level : Nat} {op : Byte}

theorem answer_requestFor (who : Sender) (op selector : Byte) (index mask : Half) (data : Part) (code : ReplyCode)
    (status : Byte) (shown : Part) (s : State) :
    answer (requestFor who op selector index mask data) code status shown s = replied who op code status shown s := rfl

/-- The operations whose reply shows zeros whatever the state is. -/
def plainOp (op : Byte) : Bool :=
  op != opProbe && op != opReset && op != opWrite && op != opMode && op != opSuspend && op != opRestore

theorem respond_plain (h : plainOp op = true) (selector : Byte) (index mask : Half) (data : Part) (code : ReplyCode)
    (s : State) : respond (requestFor who op selector index mask data) code s = replied who op code 0 0 s := by
  simp only [plainOp, Bool.and_eq_true, bne_iff_ne] at h
  obtain ⟨⟨⟨⟨⟨h1, h2⟩, h3⟩, h4⟩, h5⟩, h6⟩ := h
  have e : (requestFor who op selector index mask data).op = op := rfl
  simp [respond, e, h1, h2, h3, h4, h5, h6, answer_requestFor]

/-- A request that is heard, of a level above its operation's minimum, is refused for its level (R164 step 6). -/
theorem operate_refused (h : Heard s who level) (selector : Byte) (index mask : Half) (data : Part)
    (hop : knownOp op = true) (htab : tableOk op (selector.extractLsb' 0 4).toNat = true) (hmin : minimumLevel op < level) :
    operate who op selector index mask data s =
      .next (respond (requestFor who op selector index mask data) .refusedLevel (arrived .up s)) := by
  obtain ⟨l, rfl, he⟩ := operate_heard s who level op selector index mask data h
  have hl : ¬ 2 < (requestFor who op selector index mask data).level.toNat := Nat.not_lt.2 h.requested
  have hm : minimumLevel (requestFor who op selector index mask data).op <
    max l (requestFor who op selector index mask data).level.toNat := hmin
  have hk : knownOp (requestFor who op selector index mask data).op = true := hop
  have ht : tableOk (requestFor who op selector index mask data).op
    (requestFor who op selector index mask data).table.toNat = true := htab
  rw [he, judgeRequest, if_neg hl, hk, ht, if_pos hm]
  rfl

end Sys2Proof.Machine
end

section
/-! SUPPORT. The courses at the resets (R6, R190): table memory holds nothing of a course after a power-on reset and a ring
reset; a restart leaves table memory, the management unit and the reference counts alone. -/

namespace Sys2Proof.Machine

variable {s : State}

/-! ### Memory without the courses -/

theorem readByte_of_absent (m : Memory) (a : Nat) (h : ∀ d ∈ m, d.1 ≠ a) : readByte m a = 0 := by
  induction m with
  | nil => rfl
  | cons d m ih =>
    rw [readByte, if_neg (h d List.mem_cons_self)]
    exact ih fun e he => h e (List.mem_cons_of_mem _ he)

/-- A part beyond every listed byte is 0. -/
theorem partData_of_below (m : Memory) (n : Nat) (h : ∀ d ∈ m, d.1 < 16 * n) : partData m n = 0 := by
  have hg : ∀ i k, gather (partCells m n) n i k = 0 := fun i k => by
    induction k generalizing i with
    | zero => rfl
    | succ k ih =>
      have h0 : readByte (partCells m n) (16 * n + i) = 0 :=
        readByte_of_absent _ _ fun d hd => by have := h d (List.mem_of_mem_filter hd); omega
      simp [gather, h0, ih]
  rw [partData, hg]
  rfl

theorem paramCells_below : ∀ d ∈ paramCells, d.1 < 208 := by decide

theorem originCells_below (ra oa : BitVec 7) : ∀ d ∈ originCells ra oa ++ paramCells, d.1 < 208 := by
  intro d hd
  rcases List.mem_append.1 hd with hd | hd
  · unfold originCells at hd
    split at hd
    · cases hd
    · simp only [List.mem_cons, List.not_mem_nil, or_false] at hd
      rcases hd with rfl | rfl <;> simp
  · exact paramCells_below d hd

theorem memAfterReset_below (t : TableMem) : ∀ d ∈ (memAfterReset t).cells, d.1 < 208 := by
  intro d hd
  rcases List.mem_append.1 hd with hd | hd
  · have : d.1 < 128 := by simpa using (List.mem_filter.1 hd).2
    omega
  · exact paramCells_below d hd

theorem refs_initial (c : Nat) : Plan.initial.refs[c]?.getD 0 = 0 := by
  simp only [Plan.initial, Vector.getElem?_replicate]
  split <;> rfl

/-- With no byte listed from the axis table on, no part from the axis table on marked, and the plan store empty, every course
is empty. -/
theorem coursesEmpty_of {t : State} (hm : ∀ d ∈ t.mem.cells, d.1 < 208) (hu : ∀ n ∈ t.mgmt.unreadable, n < 8)
    (hp : t.plan = Plan.initial) : CoursesEmpty t := by
  refine ⟨fun k _ => ⟨partData_of_below _ _ fun d hd => ?_, ?_⟩, fun c => ?_⟩
  · have := hm d hd
    omega
  · rw [List.contains_eq_mem, decide_eq_false_iff_not]
    intro hk
    have := hu _ hk
    omega
  · rw [refCount, hp]
    exact refs_initial c

theorem coursesEmpty_poweredOn (ra oa : BitVec 7) (ready space : Bool) (l : List Instr) :
    CoursesEmpty (poweredOn ra oa ready space l) :=
  coursesEmpty_of (originCells_below ra oa) (fun _ h => nomatch h) rfl

theorem coursesEmpty_ringReset (s : State) : CoursesEmpty (ringReset s) :=
  coursesEmpty_of (memAfterReset_below s.mem)
    (fun _ h => of_decide_eq_true (List.mem_filter.1 (show _ ∈ s.mgmt.unreadable.filter _ from h)).2) rfl

/-! ### What a change of mode and a reissue leave of the tables -/

/-- Table memory, the management unit and the reference counts. -/
def tables (s : State) : TableMem × Mgmt × Vector Nat 256 := (s.mem, s.mgmt, s.plan.refs)

theorem tables_frameDue (d : Word) (s : State) : tables (frameDue d s) = tables s := by
  unfold frameDue; split <;> rfl

theorem tables_refreshTx (s : State) : tables (refreshTx s) = tables s := by
  unfold refreshTx
  split
  · split
    · rfl
    · exact tables_frameDue _ _
  · rfl

theorem tables_setMode (m : Mode) (s : State) : tables (setMode m s) = tables s := tables_refreshTx _

theorem tables_enterHold (s : State) : tables (enterHold s) = tables s := tables_setMode _ _

theorem tables_report (s : State) : tables (report s) = tables s := by
  unfold report
  dsimp only
  split
  · exact tables_enterHold _
  · rfl

theorem tables_toStandby (s : State) : tables (toStandby s) = tables s :=
  (tables_report _).trans (tables_setMode _ _)

theorem tables_reissue (n : Nat) (c : Bool) (s : State) : tables (reissue n c s) = tables s := by
  unfold reissue; split <;> rfl

theorem tables_reissueAll (s : State) : tables (reissueAll s) = tables s := by
  unfold reissueAll
  generalize s.track.tickets.map (·.lay) = l
  induction l generalizing s with
  | nil => rfl
  | cons n l ih => exact (ih _).trans (tables_reissue n false s)

theorem tables_restart (s : State) : tables (restart s) = tables s := (tables_toStandby _).trans (tables_reissueAll s)

/-! ### The obligation -/

theorem exec_ringReset {who : Sender} (h : Heard s who 0) :
    exec (.ringReset who) s = .next (ringReset (arrived .up s)) :=
  operate_performed s who 0 opReset 0 0 0 0 h rfl rfl (Nat.zero_le _)

theorem exec_restart {who : Sender} {level : Nat} (h : Heard s who level) (hl : level ≤ 1) :
    exec (.restart who) s = .next (replied who opRestart .ok 0 0 (restart (arrived .up s))) :=
  operate_performed s who level opRestart 0 0 0 0 h rfl rfl hl

/-- Settles O59: the two resets that rewrite table memory list no byte from the axis table on, and a restart changes neither
table memory nor the reference counts. -/
theorem coursesAtTheResets : Obligations.CoursesAtTheResets := by
  intro s _
  refine ⟨fun ra oa ready space => ⟨_, rfl, coursesEmpty_poweredOn ra oa ready space _⟩,
    fun who h => ⟨_, exec_ringReset h, coursesEmpty_ringReset _⟩, fun who level h hl => ⟨_, exec_restart h hl, ?_⟩⟩
  have ht : tables (restart (arrived .up s)) = tables s := tables_restart _
  obtain ⟨hmem, hmgmt, hrefs⟩ : (restart (arrived .up s)).mem = s.mem ∧ (restart (arrived .up s)).mgmt = s.mgmt ∧
      (restart (arrived .up s)).plan.refs = s.plan.refs := by simpa [tables] using ht
  refine ⟨fun k _ => ⟨?_, ?_⟩, fun c => ?_⟩
  · show partData (restart (arrived .up s)).mem.cells _ = partData s.mem.cells _
    rw [hmem]
  · show (restart (arrived .up s)).mgmt.unreadable.contains _ = _
    rw [hmgmt]
  · show (restart (arrived .up s)).plan.refs[c]?.getD 0 = s.plan.refs[c]?.getD 0
    rw [hrefs]

end Sys2Proof.Machine
end

section
/-! SUPPORT. PLAN_APPEND, PLAN_FLUSH and SKIP (R10, R12, R13): the lowest free slot, the reference counts after a removal, and
what each request does once it is heard. -/

namespace Sys2Proof.Machine

variable {s : State} {who : Sender} {level : Nat}

/-! ### The lowest free slot (R176) -/

/-- The search stops at its end or at a number that is free, and passes by only numbers in use. -/
theorem firstFree_spec (used : List Nat) (n fuel : Nat) :
    (firstFree used n fuel = n + fuel ∨ firstFree used n fuel ∉ used) ∧
      ∀ k, n ≤ k → k < firstFree used n fuel → k ∈ used := by
  induction fuel generalizing n with
  | zero => exact ⟨.inl rfl, fun k h1 h2 => absurd h2 (Nat.not_lt.2 h1)⟩
  | succ fuel ih =>
    unfold firstFree
    split
    · rename_i hn
      obtain ⟨hend, hpast⟩ := ih (n + 1)
      refine ⟨hend.imp_left fun e => by omega, fun k h1 h2 => ?_⟩
      rcases Nat.eq_or_lt_of_le h1 with rfl | h1
      · simpa using hn
      · exact hpast k h1 h2
    · rename_i hn
      exact ⟨.inr (by simpa using hn), fun k h1 h2 => absurd h2 (Nat.not_lt.2 h1)⟩

/-- The slot found holds no record: as many numbers as there are records cannot all be in use below one more. -/
theorem freeSlot_notMem (p : Plan) : p.freeSlot ∉ p.usedSlots := by
  obtain ⟨hend, hpast⟩ := firstFree_spec p.usedSlots 0 p.usedSlots.length
  rcases hend with hend | hfree
  · have hlen : p.freeSlot = p.usedSlots.length := by rw [Plan.freeSlot, hend, Nat.zero_add]
    have hsub : List.range p.usedSlots.length ⊆ p.usedSlots := fun k hk =>
      hpast k (Nat.zero_le k) (by rw [hend, Nat.zero_add]; exact List.mem_range.1 hk)
    have hperm := (List.nodup_range.subperm hsub).perm_of_length_le (by rw [List.length_range])
    intro hmem
    have := List.mem_range.1 (hperm.mem_iff.2 hmem)
    omega
  · exact hfree

theorem mem_usedSlots {p : Plan} {k : Nat} :
    k ∈ p.usedSlots ↔ (∃ q ∈ p.queue, q.slot = k) ∨ ∃ b ∈ p.bound, b.slot = k := by
  simp [Plan.usedSlots]

theorem mem_usedSlots_of_lt {p : Plan} {k : Nat} (h : k < p.freeSlot) : k ∈ p.usedSlots :=
  (firstFree_spec p.usedSlots 0 p.usedSlots.length).2 k (Nat.zero_le k) h

/-! ### PLAN_APPEND -/

theorem planRecValid_iff (r : PlanRec) : planRecValid r = true ↔
    ¬ (r.lay = 0 ∨ 1 < r.order ∨ 1 < r.cut ∨ 15 < r.glue ∨ 35999 < r.yaw ∨ r.length < 5000 ∨ 40000 < r.length) := by
  simp [planRecValid, not_or, and_assoc]

theorem layInOrder_iff (l : Nat) (p : Plan) : layInOrder l p = true ↔
    ¬ (l ≤ p.highest ∨ (∃ q ∈ p.queue, l ≤ q.lay) ∨ ∃ b ∈ p.bound, b.lay = l) := by
  simp [layInOrder, not_or, and_assoc]

theorem planRec_course_lt (d : Part) : (planRec d).course < 256 := BitVec.isLt _

theorem exec_planAppend (h : Heard s who level) (hl : level ≤ 1) (record : Part) :
    exec (.planAppend who record) s =
      .next (opAppendExec (requestFor who opPlanAppend 0 0 0 record) (arrived .up s)) :=
  operate_performed s who level opPlanAppend 0 0 0 record h rfl rfl hl

/-- An append that is not accepted is answered with the code of its first failing test (R10). -/
theorem opAppend_refused {record : Part} {t : State} (code : ReplyCode)
    (h : planRecValid (planRec record) = false ∧ code = .badValue ∨
      planRecValid (planRec record) = true ∧ layInOrder (planRec record).lay t.plan = false ∧ code = .order ∨
      planRecValid (planRec record) = true ∧ layInOrder (planRec record).lay t.plan = true ∧
        4096 ≤ t.plan.queue.length ∧ code = .queueFull) :
    opAppendExec (requestFor who opPlanAppend 0 0 0 record) t = replied who 5 code 0 0 t := by
  have hd : (requestFor who opPlanAppend 0 0 0 record).data = record := rfl
  have hr := fun c => respond_plain (who := who) (op := opPlanAppend) rfl 0 0 0 record c t
  rw [opAppendExec, hd]
  rcases h with ⟨hv, rfl⟩ | ⟨hv, ho, rfl⟩ | ⟨hv, ho, hq, rfl⟩
  · rw [hv]; exact hr _
  · rw [hv, ho]; exact hr _
  · rw [hv, ho, if_neg (by simp), if_neg (by simp), if_pos hq]; exact hr _

theorem opAppend_accepted {record : Part} {t : State} (hv : planRecValid (planRec record) = true)
    (ho : layInOrder (planRec record).lay t.plan = true) (hq : t.plan.queue.length < 4096) :
    opAppendExec (requestFor who opPlanAppend 0 0 0 record) t =
      replied who 5 .ok 0 (packPart [(2, t.plan.queue.length + 1)]) (planAccept record t) := by
  have hd : (requestFor who opPlanAppend 0 0 0 record).data = record := rfl
  have hlen : (planAccept record t).plan.queue.length = t.plan.queue.length + 1 := List.length_append
  rw [opAppendExec, hd, hv, ho, if_neg (by simp), if_neg (by simp), if_neg (Nat.not_le.2 hq)]
  simp only [hlen]
  rfl

theorem refCount_planAccept (record : Part) (s : State) (c : Nat) : refCount (planAccept record s) c =
    if (planRec record).course = c then refCount s c + 1 else refCount s c := by
  have h : refCount (planAccept record s) c = (s.plan.addRef (planRec record).course).refs[c]?.getD 0 := rfl
  rw [h, Plan.addRef, refs_changeRef]
  have hc := planRec_course_lt record
  split <;> simp_all [refCount]

/-- Settles O50: the three tests of R10 in their order, and the record of `planAccept` in the slot that `freeSlot` finds. -/
theorem planAppendJoinsTheTail : Obligations.PlanAppendJoinsTheTail := by
  rintro s who level record r bad late h rfl hbad hlate
  have hv : planRecValid (planRec record) = true ↔ ¬ bad := by rw [planRecValid_iff, hbad]
  have ho : layInOrder (planRec record).lay (arrived .up s).plan = true ↔ ¬ late := by
    rw [layInOrder_iff, arrived_plan, hlate]
  refine ⟨fun hl => ?_, fun hl hb => ?_, fun hl hb hla => ?_, fun hl hb hla hq => ?_, fun hl hb hla hq => ?_⟩
  · have hr := operate_refused h 0 0 0 record (op := opPlanAppend) rfl rfl hl
    rw [respond_plain rfl] at hr
    exact hr
  · rw [exec_planAppend h hl, opAppend_refused .badValue (.inl ⟨Bool.eq_false_iff.2 fun e => hv.1 e hb, rfl⟩)]
  · rw [exec_planAppend h hl, opAppend_refused .order (.inr (.inl ⟨hv.2 hb, Bool.eq_false_iff.2 fun e => ho.1 e hla, rfl⟩))]
  · rw [exec_planAppend h hl, opAppend_refused .queueFull (.inr (.inr ⟨hv.2 hb, ho.2 hla, hq, rfl⟩))]
  · refine ⟨planAccept record (arrived .up s), s.plan.freeSlot, ?_, ?_, ?_, ?_, rfl, rfl, rfl, ?_, ?_, rfl⟩
    · rw [exec_planAppend h hl, opAppend_accepted (hv.2 hb) (ho.2 hla) hq, arrived_plan]
    · exact fun q hm e => freeSlot_notMem s.plan (mem_usedSlots.2 (.inl ⟨q, hm, e⟩))
    · exact fun b hm e => freeSlot_notMem s.plan (mem_usedSlots.2 (.inr ⟨b, hm, e⟩))
    · exact fun k hk => mem_usedSlots.1 (mem_usedSlots_of_lt hk)
    · rw [refCount_planAccept, if_pos rfl]; rfl
    · intro c hc
      rw [refCount_planAccept, if_neg (Ne.symm hc)]; rfl

/-! ### PLAN_FLUSH and SKIP -/

theorem field_numberData {n : Nat} (h : n < 2 ^ 32) : field (numberData n) 0 4 = n := by
  simp only [field, numberData, packPart, packNat, BitVec.extractLsb'_toNat, BitVec.toNat_ofNat]
  omega

theorem layOf_numberData (who : Sender) (op : Byte) (lay : Word) :
    layOf (requestFor who op 0 0 0 (numberData lay.toNat)) = lay.toNat := field_numberData lay.isLt

theorem toNat_eq_zero (lay : Word) : lay.toNat = 0 ↔ lay = 0 := by simp [BitVec.toNat_eq]

theorem exec_planFlush (h : Heard s who level) (hl : level ≤ 1) (lay : Word) : exec (.planFlush who lay) s =
    .next (opFlushExec (requestFor who opPlanFlush 0 0 0 (numberData lay.toNat)) (arrived .up s)) :=
  operate_performed s who level opPlanFlush 0 0 0 _ h rfl rfl hl

theorem exec_skip (h : Heard s who level) (hl : level ≤ 1) (lay : Word) : exec (.skip who lay) s =
    .next (opSkipExec (requestFor who opSkip 0 0 0 (numberData lay.toNat)) (arrived .up s)) :=
  operate_performed s who level opSkip 0 0 0 _ h rfl rfl hl

theorem dropRefs_highest (p : Plan) (l : List QueueEntry) : (p.dropRefs l).highest = p.highest := by
  induction l generalizing p with
  | nil => rfl
  | cons e l ih => exact ih (p.dropRef e.course)

/-- What a flush from a lay number leaves of the plan store (R12). -/
theorem planFlushFrom_eq (l : Nat) (s : State) : planFlushFrom l s =
    s.setPlan { queue := s.plan.queue.filter (fun q => q.lay < l), bound := s.plan.bound
                highest := if l ≤ s.plan.highest then l - 1 else s.plan.highest
                refs := (s.plan.dropRefs (s.plan.queue.filter (fun q => l ≤ q.lay))).refs } := by
  simp only [planFlushFrom, dropRefs_queue, dropRefs_bound, dropRefs_highest]

theorem length_filter_course (l : List QueueEntry) (c : Nat) :
    (l.filter (fun q => q.course = c)).length = (l.map (·.course)).count c := by
  rw [List.count_eq_countP, List.countP_map, List.countP_eq_length_filter]
  rfl

/-- Lay numbers that rise name one record each. -/
theorem eq_of_lay_eq {l : List QueueEntry} (h : layRising l) {e q : QueueEntry} (he : e ∈ l) (hq : q ∈ l)
    (heq : e.lay = q.lay) : e = q :=
  List.inj_on_of_nodup_map (List.pairwise_map.2 (h.imp Nat.ne_of_lt)) he hq heq

theorem find_of_lay {l : List QueueEntry} (h : layRising l) {e : QueueEntry} (he : e ∈ l) :
    l.find? (fun q => q.lay == e.lay) = some e := by
  have hsome : (l.find? (fun q => q.lay == e.lay)).isSome = true := List.find?_isSome.2 ⟨e, he, by simp⟩
  obtain ⟨q, hq⟩ := Option.isSome_iff_exists.1 hsome
  rw [hq, eq_of_lay_eq h (List.mem_of_find?_eq_some hq) he (by simpa using List.find?_some hq)]

/-- The record that a SKIP means: the head for 0, otherwise the one of the lay number (R13). -/
theorem skipTarget_eq {l : Nat} {e : QueueEntry} (hr : layRising s.plan.queue) (he : e ∈ s.plan.queue)
    (h : l = 0 ∧ s.plan.queue.head? = some e ∨ l ≠ 0 ∧ e.lay = l) : skipTarget l s = some e := by
  unfold skipTarget
  rcases h with ⟨rfl, hh⟩ | ⟨hl, rfl⟩
  · rw [if_pos rfl, hh]
  · rw [if_neg hl, find_of_lay hr he]

theorem isSome_boundOf (l : Nat) (s : State) : (boundOf l s).isSome = true ↔ ∃ b ∈ s.plan.bound, b.lay = l := by
  simp [boundOf]

theorem opSkip_busy {r : Request} (hl : layOf r ≠ 0) (hb : ∃ b ∈ s.plan.bound, b.lay = layOf r) :
    opSkipExec r s = respond r .refusedBusy s := by
  rw [opSkipExec, (isSome_boundOf _ _).2 hb, if_pos (by simpa using hl)]

/-- A SKIP of the head, or of a lay number that is not bound, is not busy. -/
theorem not_skipBusy {l : Nat} (h : l = 0 ∨ ∀ b ∈ s.plan.bound, b.lay ≠ l) :
    ¬ (decide (l ≠ 0) && (boundOf l s).isSome) = true := by
  intro hc
  obtain ⟨h0, hsome⟩ := Bool.and_eq_true_iff.1 hc
  obtain ⟨b, hb, e⟩ := (isSome_boundOf _ _).1 hsome
  exact h.elim (by simpa using h0) fun hn => hn b hb e

theorem opSkip_notFound {r : Request} (h : layOf r = 0 ∨ ∀ b ∈ s.plan.bound, b.lay ≠ layOf r)
    (ht : skipTarget (layOf r) s = none) : opSkipExec r s = respond r .notFound s := by
  rw [opSkipExec, if_neg (not_skipBusy h), ht]

theorem opSkip_removes {r : Request} {e : QueueEntry} (h : layOf r = 0 ∨ ∀ b ∈ s.plan.bound, b.lay ≠ layOf r)
    (ht : skipTarget (layOf r) s = some e) :
    opSkipExec r s = answer r .ok 0 (numberData e.lay) (planRemove e s) := by
  rw [opSkipExec, if_neg (not_skipBusy h), ht]

theorem refs_planRemove_eq (e : QueueEntry) (s : State) (c : Nat) : (planRemove e s).plan.refs[c]?.getD 0 =
    if e.course = c then refCount s c - 1 else refCount s c := by
  show (s.plan.changeRef e.course (· - 1)).refs[c]?.getD 0 = _
  rw [refs_changeRef]
  by_cases hc : e.course = c
  · subst hc
    by_cases h256 : e.course < 256 <;> simp [h256, refCount]
  · simp [hc, refCount]

/-- Settles O51: `planFlushFrom` and `planRemove` on a queue whose lay numbers name one record each. -/
theorem flushAndSkipRemoveQueuedRecords : Obligations.FlushAndSkipRemoveQueuedRecords := by
  intro s who level lay h hr
  have hflush := layOf_numberData who opPlanFlush lay
  have hskip := layOf_numberData who opSkip lay
  have hz := toNat_eq_zero lay
  have hpf : ∀ c t, respond (requestFor who opPlanFlush 0 0 0 (numberData lay.toNat)) c t = replied who 6 c 0 0 t :=
    fun c t => respond_plain rfl 0 0 0 _ c t
  have hps : ∀ c t, respond (requestFor who opSkip 0 0 0 (numberData lay.toNat)) c t = replied who 7 c 0 0 t :=
    fun c t => respond_plain rfl 0 0 0 _ c t
  refine ⟨fun hl => ⟨?_, ?_⟩, ?_, ?_, ?_, ?_, ?_, ?_⟩
  · exact (operate_refused (op := opPlanFlush) h 0 0 0 _ rfl rfl hl).trans (congrArg _ (hpf _ _))
  · exact (operate_refused (op := opSkip) h 0 0 0 _ rfl rfl hl).trans (congrArg _ (hps _ _))
  · intro hl h0
    rw [exec_planFlush h hl, opFlushExec, if_pos (hflush.trans (hz.2 h0)), hpf]
  · rintro gone rfl hl h0
    rw [exec_planFlush h hl, opFlushExec, hflush, if_neg (mt hz.1 h0), planFlushFrom_eq]
    refine ⟨_, rfl, rfl, rfl, rfl, fun c hc => ?_⟩
    rw [length_filter_course]
    exact refs_dropRefs s.plan _ hc
  · intro hl h0 hq
    have hn : skipTarget lay.toNat (arrived .up s) = none := by
      rw [skipTarget, if_pos (hz.2 h0), arrived_plan, hq]
      rfl
    rw [exec_skip h hl, opSkip_notFound (.inl (hskip.trans (hz.2 h0))) (by rwa [hskip]), hps]
  · intro hl h0 hb
    rw [exec_skip h hl, opSkip_busy (by rwa [hskip, Ne, hz]) (by rwa [hskip]), hps]
  · intro hl h0 hb hq
    have hn : skipTarget lay.toNat (arrived .up s) = none := by
      rw [skipTarget, if_neg (mt hz.1 h0)]
      exact List.find?_eq_none.2 fun q hm => by simpa using hq q hm
    rw [exec_skip h hl, opSkip_notFound (.inr (by rwa [hskip])) (by rwa [hskip]), hps]
  · intro e he hl hcase
    have ht : skipTarget lay.toNat (arrived .up s) = some e := skipTarget_eq hr he
      (hcase.imp (.imp_left hz.2) fun ⟨h0, hlay, _⟩ => ⟨mt hz.1 h0, hlay⟩)
    have hpass : lay.toNat = 0 ∨ ∀ b ∈ s.plan.bound, b.lay ≠ lay.toNat :=
      hcase.imp (fun hc => hz.2 hc.1) fun hc => hc.2.2
    rw [exec_skip h hl, opSkip_removes (by rwa [hskip]) (by rwa [hskip])]
    refine ⟨(planRemove e (arrived .up s)).plan, rfl, ?_, rfl, rfl, ?_, fun c hc => ?_⟩
    · exact List.filter_congr fun q _ => by simp only [bne, decide_not]; rfl
    · rw [refs_planRemove_eq, if_pos rfl]; rfl
    · rw [refs_planRemove_eq, if_neg (Ne.symm hc)]; rfl

end Sys2Proof.Machine
end

section
/-! SUPPORT. The WRITE to a course (R1, R4, R5): what a read of a course part gives, what an accepted WRITE stores, what the
reply shows, and the judgement on the parts as they were found. -/

namespace Sys2Proof.Machine

variable {s t u : State} {who : Sender} {level k : Nat}

/-! ### What a WRITE stores (R167) -/

theorem wordFlips_freshWord_same (l : List Nat) (w : Nat) : wordFlips (freshWord l w) w = [] := by
  rw [wordFlips, freshWord, List.filter_filter, List.filter_eq_nil_iff.2 fun a _ => by simp, List.map_nil]

theorem wordFlips_freshWord_of {l : List Nat} {w : Nat} (h : wordFlips l w = []) (v : Nat) :
    wordFlips (freshWord l v) w = [] := by
  have hl := List.filter_eq_nil_iff.1 (List.map_eq_nil_iff.1 h)
  rw [wordFlips, freshWord, List.filter_eq_nil_iff.2 fun a ha => hl a (List.mem_of_mem_filter ha), List.map_nil]

theorem storeAccepted_mem (k : Nat) (d : Part) (s : State) :
    (storeAccepted k d s).mem = s.mem.store k (d &&& usedBits (placeOf k)) := by
  simp only [storeAccepted, storePart, State.setGuard_mem, State.setMgmt_mem, State.setMem_mem]

theorem store_cells (m : TableMem) (k : Nat) (d : Part) : (m.store k d).cells = putPart m.cells k d := rfl

theorem store_flips (m : TableMem) (k : Nat) (d : Part) :
    (m.store k d).flips = freshWord (freshWord m.flips (2 * k)) (2 * k + 1) := rfl

theorem wordFlips_store (m : TableMem) (k : Nat) (d : Part) :
    wordFlips (m.store k d).flips (2 * k) = [] ∧ wordFlips (m.store k d).flips (2 * k + 1) = [] := by
  rw [store_flips]
  exact ⟨wordFlips_freshWord_of (wordFlips_freshWord_same _ _) _, wordFlips_freshWord_same _ _⟩

theorem storeAccepted_plan (k : Nat) (d : Part) (s : State) : (storeAccepted k d s).plan = s.plan := by
  simp only [storeAccepted, storePart, State.setGuard_plan, State.setMgmt_plan, State.setMem_plan]

theorem storeAccepted_marked (k : Nat) (d : Part) (s : State) : partMarked (storeAccepted k d s) k = false := by
  simp [partMarked, storeAccepted, setErase]

theorem stores_storeAccepted (k : Nat) (d : Part) (hm : MemoryCanonical s) :
    Stores k (d &&& usedBits (placeOf k)) s (storeAccepted k d s) where
  part := by rw [peekPart, storeAccepted_mem, store_cells, partData_putPart _ _ _ hm.1]
  others j hj := by rw [peekPart, storeAccepted_mem, store_cells, partData_putPart_ne _ _ _ _ hj, peekPart]
  fresh := by rw [storeAccepted_mem]; exact wordFlips_store _ _ _
  readable := storeAccepted_marked k d s

theorem Stores.partClean {d : Part} (h : Stores k d s t) : PartClean t k := ⟨h.fresh.1, h.fresh.2, h.readable⟩

theorem mergePart_full (stored data : Part) : mergePart stored data 0xFFFF = data := by
  have hones : maskBits 0xFFFF = BitVec.allOnes 128 := by decide
  rw [mergePart, hones, BitVec.and_allOnes]
  simp

/-! ### What a read of a course part gives -/

/-- What a read of a course part never changes. -/
structure ReadLeaves (s t : State) : Prop where
  mem : t.mem = s.mem
  plan : t.plan = s.plan
  guard : t.guard = s.guard
  replies : t.mgmt.replies = s.mgmt.replies
  marked : ∀ j, t.mgmt.unreadable.contains j = s.mgmt.unreadable.contains j

theorem ReadLeaves.refl (s : State) : ReadLeaves s s := ⟨rfl, rfl, rfl, rfl, fun _ => rfl⟩

theorem ReadLeaves.trans (h : ReadLeaves s t) (h' : ReadLeaves t u) : ReadLeaves s u :=
  ⟨h'.mem.trans h.mem, h'.plan.trans h.plan, h'.guard.trans h.guard, h'.replies.trans h.replies,
    fun j => (h'.marked j).trans (h.marked j)⟩

theorem ReadLeaves.peekPart (h : ReadLeaves s t) (k : Nat) : peekPart t k = peekPart s k := by
  unfold Machine.peekPart; rw [h.mem]

theorem ReadLeaves.partClean (h : ReadLeaves s t) : PartClean t k ↔ PartClean s k := by
  unfold PartClean partMarked; rw [h.mem, h.marked, h.guard]

/-- The part can be read, or a read has found it in error before. -/
def Settled (s : State) (k : Nat) : Prop := PartClean s k ∨ s.mgmt.unreadable.contains k = true

/-- What a read of a settled part finds. -/
def found (s : State) (k : Nat) : Option Part := if s.mgmt.unreadable.contains k then none else some (peekPart s k)

theorem ReadLeaves.settled (h : ReadLeaves s t) (hk : Settled s k) : Settled t k :=
  hk.imp h.partClean.2 fun hc => (h.marked k).trans hc

theorem ReadLeaves.found (h : ReadLeaves s t) (k : Nat) : found t k = found s k := by
  unfold Machine.found; rw [h.marked, h.peekPart]

theorem contains_of_partClean (h : PartClean s k) : s.mgmt.unreadable.contains k = false :=
  (Bool.or_eq_false_iff.1 h.2.2).1

theorem found_clean (h : PartClean s k) : found s k = some (peekPart s k) := by
  rw [found, contains_of_partClean h]; rfl

theorem found_marked (h : s.mgmt.unreadable.contains k = true) : found s k = none := by rw [found, h]; rfl

theorem placeOf_course {i p : Nat} (hi : i < 256) (hp : p < 2) : placeOf (coursePart i p) = .course i p := by
  have hi' : (coursePart i p - 197) / 2 = i := by unfold coursePart; omega
  have hp' : (coursePart i p - 197) % 2 = p := by unfold coursePart; omega
  have hlo : 197 ≤ coursePart i p := by unfold coursePart; omega
  have hhi : coursePart i p < 709 := by unfold coursePart; omega
  rw [placeOf, if_neg (by omega), if_neg (by omega), if_neg (by omega), if_neg (by omega), if_neg (by omega), if_pos hhi,
    hi', hp']

/-- A read of a course part that is marked unreadable latches and counts, and leaves the rest. -/
theorem readPart_marked {i p : Nat} (hi : i < 256) (hp : p < 2)
    (h : s.mgmt.unreadable.contains (coursePart i p) = true) :
    ∃ t, readPart (coursePart i p) s = (none, t) ∧ ReadLeaves s t := by
  have hm : partMarked s (coursePart i p) = true := by rw [partMarked, h]; rfl
  have hn : ∀ b, (uncorrectablePart (coursePart i p) (countWords 0 b s)).2 =
      latch .tableEcc i (markUnreadable (coursePart i p) (countWords 0 b s)) := fun b => by
    rw [uncorrectablePart, placeOf_course hi hp]
  unfold readPart
  dsimp only
  rw [if_pos hm, hn]
  refine ⟨_, rfl, rfl, rfl, rfl, rfl, fun j => ?_⟩
  show (setInsert (coursePart i p) s.mgmt.unreadable).contains j = _
  rw [Bool.eq_iff_iff, List.contains_iff_mem, List.contains_iff_mem, mem_setInsert]
  exact or_iff_right_of_imp fun e => e ▸ List.contains_iff_mem.1 h

theorem readPart_settled {i p : Nat} (hi : i < 256) (hp : p < 2) (h : Settled s (coursePart i p)) :
    ∃ t, readPart (coursePart i p) s = (found s (coursePart i p), t) ∧ ReadLeaves s t ∧
      (PartClean s (coursePart i p) → t = s) := by
  rcases h with h | h
  · exact ⟨s, by rw [readPart_clean s _ h, found_clean h]; rfl, .refl s, fun _ => rfl⟩
  · obtain ⟨t, he, hl⟩ := readPart_marked hi hp h
    exact ⟨t, by rw [he, found_marked h], hl, fun hc => by rw [contains_of_partClean hc] at h; cases h⟩

end Sys2Proof.Machine
end

section
/-! SUPPORT. How a WRITE to a course is judged on its parts as they were found, and what its reply shows (R1, R4, R5). -/

namespace Sys2Proof.Machine

variable {s t : State} {who : Sender} {level : Nat} {part : BitVec 3} {index mask : Half} {data : Part}

/-- The request of a WRITE to a course part. -/
def courseRequest (who : Sender) (part : BitVec 3) (index mask : Half) (data : Part) : Request :=
  requestFor who opWrite (selectorOf 6 part) index mask data

@[simp] theorem courseRequest_table : (courseRequest who part index mask data).table = 6 := selector_table 6 part
@[simp] theorem courseRequest_part : (courseRequest who part index mask data).part = part := selector_part 6 part
@[simp] theorem courseRequest_index : (courseRequest who part index mask data).index = index := rfl
@[simp] theorem courseRequest_mask : (courseRequest who part index mask data).mask = mask := rfl
@[simp] theorem courseRequest_data : (courseRequest who part index mask data).data = data := rfl
@[simp] theorem courseRequest_op : (courseRequest who part index mask data).op = opWrite := rfl

/-! ### The reply -/

theorem writeShown_course (hi : index.toNat < 256) (hp : part.toNat < 2) (s : State) :
    writeShown (courseRequest who part index mask data) s =
      ((unreadableBit (writtenPart (coursePart index.toNat part.toNat) s).2 (coursePart index.toNat part.toNat),
        (writtenPart (coursePart index.toNat part.toNat) s).1), (writtenPart (coursePart index.toNat part.toNat) s).2) := by
  have hn : partNumber 6 index.toNat part.toNat = some (coursePart index.toNat part.toNat) := by simp [partNumber, hi, hp]
  have h6 : (courseRequest who part index mask data).table.toNat = 6 := by rw [courseRequest_table]; rfl
  rw [writeShown, h6, courseRequest_index, courseRequest_part, hn]
  simp only [partStatus, placeOf_course hi hp]

theorem respond_write {r : Request} (h : r.op = opWrite) (code : ReplyCode) (s : State) :
    respond r code s = answer r code (writeShown r s).1.1 (writeShown r s).1.2 (writeShown r s).2 := by
  have h1 : ¬ opWrite = opProbe := by decide
  have h2 : ¬ opWrite = opReset := by decide
  rw [respond, h, if_neg h1, if_neg h2, if_pos rfl]

/-- The reply of a WRITE to a course part that can be read shows it with the reference count. -/
theorem respond_course_clean (hi : index.toNat < 256) (hp : part.toNat < 2) (code : ReplyCode)
    (h : PartClean s (coursePart index.toNat part.toNat)) :
    respond (courseRequest who part index mask data) code s =
      replied who 2 code 0 (withRefCount s index.toNat part.toNat (peekPart s (coursePart index.toNat part.toNat))) s := by
  have hr : readPart (coursePart index.toNat part.toNat) s = (some (peekPart s (coursePart index.toNat part.toNat)), s) :=
    readPart_clean _ _ h
  have hw : writtenPart (coursePart index.toNat part.toNat) s =
      (withRefCount s index.toNat part.toNat (peekPart s (coursePart index.toNat part.toNat)), s) := by
    rw [writtenPart, h.2.2, if_neg Bool.false_ne_true, hr]
    simp only [shownPart, placeOf_course hi hp]
  rw [respond_write courseRequest_op, writeShown_course hi hp, hw]
  simp only [unreadableBit, contains_of_partClean h]
  rfl

/-- The reply of a WRITE to a course part that is marked unreadable shows zeros and the flag. -/
theorem respond_course_marked (hi : index.toNat < 256) (hp : part.toNat < 2) (code : ReplyCode)
    (h : s.mgmt.unreadable.contains (coursePart index.toNat part.toNat) = true) :
    respond (courseRequest who part index mask data) code s = replied who 2 code 1 0 s := by
  have hm : partMarked s (coursePart index.toNat part.toNat) = true := by rw [partMarked, h]; rfl
  have hw : writtenPart (coursePart index.toNat part.toNat) s = (0, s) := by rw [writtenPart, hm, if_pos rfl]
  rw [respond_write courseRequest_op, writeShown_course hi hp, hw]
  simp only [unreadableBit, h]
  rfl

/-! ### The judgement -/

/-- The merged part of a WRITE from its part as found. -/
def mergedCourse (r : Request) (s : State) : Option Part := mergeStored r (found s (coursePart r.index.toNat r.part.toNat))

/-- Both parts are read before the judgement, but for a part that the WRITE replaces whole; the judgement turns on what the
reads found. -/
theorem writeCourse_judged (hl : level ≤ 1) (hi : index.toNat < 256) (hp : part.toNat < 2)
    (h0 : Settled s (coursePart index.toNat 0)) (h1 : Settled s (coursePart index.toNat 1)) :
    ∃ other u, writeCourseTable (courseRequest who part index mask data) level s =
        writeCourseMerged (courseRequest who part index mask data) (mergedCourse (courseRequest who part index mask data) s)
          other (found s (coursePart index.toNat 0)) u ∧
      (part.toNat = 1 → other = found s (coursePart index.toNat 0)) ∧ ReadLeaves s u ∧
      (PartClean s (coursePart index.toNat 0) → PartClean s (coursePart index.toNat 1) → u = s) := by
  have hrange : ¬ (decide (256 ≤ index.toNat) || decide (2 ≤ part.toNat)) = true := by simp [hi, hp]
  rw [writeCourseTable, courseRequest_index, courseRequest_part, courseRequest_mask, courseRequest_data, if_neg hrange,
    if_neg (Nat.not_lt.2 hl)]
  unfold mergedCourse
  rw [courseRequest_index, courseRequest_part]
  obtain hp0 | hp1 : part.toNat = 0 ∨ part.toNat = 1 := by omega
  · rw [if_pos hp0, hp0]
    obtain ⟨t, hr0, hl0, hc0⟩ : ∃ t, readStored (coursePart index.toNat 0) mask s =
        (found s (coursePart index.toNat 0), t) ∧ ReadLeaves s t ∧ (PartClean s (coursePart index.toNat 0) → t = s) := by
      unfold readStored
      split
      · rename_i hm
        have hmark := h0.resolve_left fun hc => by rw [hc.2.2, Bool.and_false] at hm; cases hm
        exact ⟨s, by rw [found_marked hmark], .refl s, fun _ => rfl⟩
      · exact readPart_settled hi (by omega) h0
    obtain ⟨u, hr1, hl1, hc1⟩ := readPart_settled hi (by omega) (hl0.settled h1)
    simp only [hr0, hr1]
    refine ⟨_, u, rfl, by omega, hl0.trans hl1, fun c0 c1 => ?_⟩
    rw [hc1 (hl0.partClean.2 c1), hc0 c0]
  · rw [if_neg (by omega), hp1]
    obtain ⟨t, hr1, hl1, hc1⟩ : ∃ t, readForMerge (coursePart index.toNat 1) mask data s =
        (mergeStored (courseRequest who part index mask data) (found s (coursePart index.toNat 1)), t) ∧
          ReadLeaves s t ∧ (PartClean s (coursePart index.toNat 1) → t = s) := by
      unfold readForMerge mergeStored
      rw [courseRequest_mask, courseRequest_data]
      split
      · exact ⟨s, rfl, .refl s, fun _ => rfl⟩
      · obtain ⟨t, hr, hl, hc⟩ := readPart_settled hi (by omega) h1
        rw [hr]
        refine ⟨t, ?_, hl, hc⟩
        cases found s (coursePart index.toNat 1) <;> rfl
    obtain ⟨u, hr0, hl0, hc0⟩ := readPart_settled hi (by omega) (hl1.settled h0)
    rw [hl1.found] at hr0
    simp only [hr0, hr1]
    refine ⟨_, u, rfl, fun _ => rfl, hl1.trans hl0, fun c0 c1 => ?_⟩
    rw [hc0 (hl1.partClean.2 c0), hc1 c1]

variable {r : Request} {m other zero : Option Part} {d : Part}

theorem merged_memoryError (hf : fullMask r.mask = false) (hu : courseUnreadable s r.index.toNat = true) :
    writeCourseMerged r m other zero s = respond r .memoryError s := by
  unfold writeCourseMerged
  split
  · rfl
  · rw [hf, hu]; rfl

/-- With a full mask, or with a course that can be read, the merged part is judged. -/
theorem merged_judged (h : fullMask r.mask = true ∨ courseUnreadable s r.index.toNat = false) :
    writeCourseMerged r (some d) other zero s =
      if courseValid (r.part = 1) d other = false then respond r .badValue s
      else if courseBusy r zero s = true then respond r .refusedBusy s
      else respond r .ok (storeMerged r (coursePart r.index.toNat r.part.toNat) d id s) := by
  have hc : ¬ (!fullMask r.mask && courseUnreadable s r.index.toNat) = true := by
    rcases h with h | h <;> simp [h]
  rw [writeCourseMerged, if_neg hc]
  simp only [Bool.not_eq_true']

end Sys2Proof.Machine
end

section
/-! SUPPORT. The WRITE to a course as a whole: a course that can be read is kept while it is busy, and an unreadable one takes a
full mask alone (R3, R4, R5). -/

namespace Sys2Proof.Machine

variable {s t u : State} {who : Sender} {level : Nat} {part : BitVec 3} {index mask : Half} {data count d m : Part}

theorem exec_writeCourse (h : Heard s who level) (hl : level ≤ 2) : exec (.writeCourse who part index mask data) s =
    .next (writeCourseTable (courseRequest who part index mask data) level (arrived .up s)) := by
  have h6 : tableOk opWrite ((selectorOf 6 part).extractLsb' 0 4).toNat = true := by rw [selector_table]; rfl
  have ht : (courseRequest who part index mask data).table.toNat = 6 := by rw [courseRequest_table]; rfl
  refine (operate_performed s who level opWrite _ index mask data h rfl h6 hl).trans (congrArg _ ?_)
  show opWriteExec (courseRequest who part index mask data) level (arrived .up s) = _
  rw [opWriteExec, ht]
  rfl

theorem exec_writeCourse_refused (h : Heard s who level) (hi : index.toNat < 256) (hp : part.toNat < 2) (hl : 1 < level) :
    exec (.writeCourse who part index mask data) s =
      .next (respond (courseRequest who part index mask data) .refusedLevel (arrived .up s)) := by
  rcases Nat.lt_or_ge 2 level with h2 | h2
  · have h6 : tableOk opWrite ((selectorOf 6 part).extractLsb' 0 4).toNat = true := by rw [selector_table]; rfl
    exact operate_refused h _ index mask data rfl h6 h2
  · have hrange : ¬ (decide (256 ≤ index.toNat) || decide (2 ≤ part.toNat)) = true := by simp [hi, hp]
    rw [exec_writeCourse h h2, writeCourseTable, courseRequest_index, courseRequest_part, if_neg hrange, if_pos hl]

/-! ### The words of the statement -/

theorem part_cases (h : part.toNat < 2) : part = 0 ∨ part = 1 := by
  revert part; decide

/-- The count field of a course part's reply. -/
def countField (s : State) (part : BitVec 3) (i : Nat) : Part :=
  packPart (if part = 0 then [(2, 0), (2, refCount s i)] else [(8, 0), (2, refCount s i)])

theorem withRefCount_eq (hp : part.toNat < 2) (i : Nat) (d : Part) (ht : t.plan = s.plan) :
    withRefCount t i part.toNat d = d ||| countField s part i := by
  have hr : refCount t i = refCount s i := by rw [refCount, ht]; rfl
  rcases part_cases hp with rfl | rfl <;> simp [withRefCount, countField, hr]

theorem countField_zero {i : Nat} (h : refCount s i = 0) : countField s part i = 0#128 := by
  rw [countField, h]
  split <;> decide

theorem courseFieldsValid_iff (d : Part) : courseFieldsValid d = true ↔ field d 1 1 ≤ 31 ∨ field d 1 1 = 255 := by
  simp [courseFieldsValid]

theorem courseUnreadable_eq (s : State) (i : Nat) : courseUnreadable s i =
    (s.mgmt.unreadable.contains (coursePart i 0) || s.mgmt.unreadable.contains (coursePart i 1)) := rfl

theorem fullMask_iff : fullMask mask = true ↔ mask = 0xFFFF := by simp [fullMask]

theorem courseBusy_iff (z : Option Part) : courseBusy (courseRequest who part index mask data) z s = true ↔
    0 < refCount s index.toNat ∧ mask &&& protectedBytes part.toNat ≠ 0 ∧
      (courseUnreadable s index.toNat = true ∨ ∀ d, z = some d → d.getLsbD 0 = true) := by
  simp only [courseBusy, courseRequest_index, courseRequest_part, courseRequest_mask, Bool.and_eq_true, Bool.or_eq_true,
    bne_iff_ne, and_assoc]
  refine and_congr decide_eq_true_iff (and_congr_right fun _ => or_congr_right ?_)
  cases z <;> simp

/-- Part 0 of the course as it stands after an accepted WRITE decides whether the WRITE is valid. -/
theorem courseValid_iff {other zero : Option Part} (hp : part.toNat < 2) (ho : part.toNat = 1 → other = zero) :
    courseValid (part = 1) m other = true ↔ ∀ d, (if part = 0 then some m else zero) = some d →
      field d 1 1 ≤ 31 ∨ field d 1 1 = 255 := by
  rcases part_cases hp with rfl | rfl
  · simp [courseValid, courseFieldsValid_iff]
  · rw [ho rfl]
    cases zero <;> simp [courseValid, courseFieldsValid_iff]

/-! ### A course that can be read -/

theorem mergedCourse_clean (h : PartClean s (coursePart index.toNat part.toNat)) :
    mergedCourse (courseRequest who part index mask data) s =
      some (mergedWith s (coursePart index.toNat part.toNat) data mask) := by
  rw [mergedCourse, courseRequest_index, courseRequest_part, found_clean h, mergeStored, courseRequest_mask,
    courseRequest_data, mergedWith]
  split
  · rename_i hf
    rw [fullMask_iff.1 hf, mergePart_full]
  · rfl

/-- What an accepted WRITE of a nonzero mask stores and replies. -/
theorem writeCourse_stores (hi : index.toNat < 256) (hp : part.toNat < 2) (hs : ReadLeaves s u) (hc : MemoryCanonical s)
    (hm : mask ≠ 0) :
    ∃ t, respond (courseRequest who part index mask data) .ok
        (storeMerged (courseRequest who part index mask data) (coursePart index.toNat part.toNat) d id u) =
          replied who 2 .ok 0 (d &&& usedBits (.course index.toNat part.toNat) ||| countField s part index.toNat) t ∧
      Stores (coursePart index.toNat part.toNat) (d &&& usedBits (.course index.toNat part.toNat)) s t := by
  have hu : MemoryCanonical u := by unfold MemoryCanonical; rw [hs.mem]; exact hc
  have hst := stores_storeAccepted (coursePart index.toNat part.toNat) d hu
  rw [placeOf_course hi hp] at hst
  refine ⟨storeAccepted (coursePart index.toNat part.toNat) d u, ?_,
    hst.part, fun j hj => (hst.others j hj).trans (hs.peekPart j), hst.fresh, hst.readable⟩
  rw [storeMerged, courseRequest_mask, if_neg hm, id, respond_course_clean hi hp _ hst.partClean, hst.part,
    withRefCount_eq hp _ _ ((storeAccepted_plan _ _ _).trans hs.plan)]

theorem readLeaves_arrived (s : State) : ReadLeaves s (arrived .up s) := ⟨rfl, rfl, rfl, rfl, fun _ => rfl⟩

/-- A WRITE of level 1 or lower to a course whose parts are settled is judged on what is found of them. -/
theorem exec_writeCourse_judged (h : Heard s who level) (hl : level ≤ 1) (hi : index.toNat < 256) (hp : part.toNat < 2)
    (h0 : Settled s (coursePart index.toNat 0)) (h1 : Settled s (coursePart index.toNat 1)) :
    ∃ other u, exec (.writeCourse who part index mask data) s =
        .next (writeCourseMerged (courseRequest who part index mask data)
          (mergedCourse (courseRequest who part index mask data) s) other (found s (coursePart index.toNat 0)) u) ∧
      (part.toNat = 1 → other = found s (coursePart index.toNat 0)) ∧ ReadLeaves s u ∧
      (PartClean s (coursePart index.toNat 0) → PartClean s (coursePart index.toNat 1) → u = arrived .up s) := by
  have ha := readLeaves_arrived s
  obtain ⟨other, u, he, ho, hu, hclean⟩ := writeCourse_judged (who := who) (mask := mask) (data := data) hl hi hp
    (ha.settled h0) (ha.settled h1)
  rw [ha.found] at he ho
  rw [mergedCourse, ha.found, ← mergedCourse] at he
  exact ⟨other, u, by rw [exec_writeCourse h (by omega), he], ho, ha.trans hu, fun c0 c1 =>
    hclean (ha.partClean.2 c0) (ha.partClean.2 c1)⟩

theorem courseUnreadable_clean (h0 : PartClean s (coursePart index.toNat 0)) (h1 : PartClean s (coursePart index.toNat 1)) :
    courseUnreadable s index.toNat = false := by
  rw [courseUnreadable_eq, contains_of_partClean h0, contains_of_partClean h1]
  rfl

theorem partClean_course (hp : part.toNat < 2) (h0 : PartClean s (coursePart index.toNat 0))
    (h1 : PartClean s (coursePart index.toNat 1)) : PartClean s (coursePart index.toNat part.toNat) := by
  rcases part_cases hp with rfl | rfl
  · exact h0
  · exact h1

/-- R3, R4: of a course that can be read, a valid WRITE is refused while it is busy. -/
theorem exec_writeCourse_clean (h : Heard s who level) (hl : level ≤ 1) (hi : index.toNat < 256) (hp : part.toNat < 2)
    (h0 : PartClean s (coursePart index.toNat 0)) (h1 : PartClean s (coursePart index.toNat 1)) :
    ∃ other, (part.toNat = 1 → other = some (peekPart s (coursePart index.toNat 0))) ∧
      exec (.writeCourse who part index mask data) s =
        .next (if courseValid (part = 1) (mergedWith s (coursePart index.toNat part.toNat) data mask) other = false then
            respond (courseRequest who part index mask data) .badValue (arrived .up s)
          else if courseBusy (courseRequest who part index mask data) (some (peekPart s (coursePart index.toNat 0)))
              (arrived .up s) = true then
            respond (courseRequest who part index mask data) .refusedBusy (arrived .up s)
          else respond (courseRequest who part index mask data) .ok
            (storeMerged (courseRequest who part index mask data) (coursePart index.toNat part.toNat)
              (mergedWith s (coursePart index.toNat part.toNat) data mask) id (arrived .up s))) := by
  obtain ⟨other, u, he, ho, -, hu⟩ := exec_writeCourse_judged (mask := mask) (data := data) h hl hi hp (.inl h0) (.inl h1)
  obtain rfl := hu h0 h1
  rw [found_clean h0] at he ho
  rw [mergedCourse_clean (partClean_course hp h0 h1), merged_judged (.inr (courseUnreadable_clean h0 h1))] at he
  refine ⟨other, ho, he.trans ?_⟩
  simp only [courseRequest_part, courseRequest_index]

theorem courseBusy_clean (h0 : PartClean s (coursePart index.toNat 0)) (h1 : PartClean s (coursePart index.toNat 1)) :
    courseBusy (courseRequest who part index mask data) (some d) s = true ↔
      0 < refCount s index.toNat ∧ d.getLsbD 0 = true ∧ mask &&& protectedBytes part.toNat ≠ 0 := by
  rw [courseBusy_iff, courseUnreadable_clean h0 h1, and_comm (a := d.getLsbD 0 = true)]
  simp

theorem protectedBytes_eq (hp : part.toNat < 2) : protectedBytes part.toNat = if part = 0 then 0xFFF1 else 0x00FF := by
  rcases part_cases hp with rfl | rfl <;> rfl

/-! ### An unreadable course -/

/-- A refused WRITE of a settled part shows it with the reference count, or zeros when it is marked. -/
theorem respond_settled (hi : index.toNat < 256) (hp : part.toNat < 2) (hu : ReadLeaves s u)
    (hk : Settled s (coursePart index.toNat part.toNat)) (code : ReplyCode) :
    (s.mgmt.unreadable.contains (coursePart index.toNat part.toNat) = true →
      respond (courseRequest who part index mask data) code u = replied who 2 code 1 0 u) ∧
    (¬ s.mgmt.unreadable.contains (coursePart index.toNat part.toNat) = true →
      respond (courseRequest who part index mask data) code u = replied who 2 code 0
        (peekPart s (coursePart index.toNat part.toNat) ||| countField s part index.toNat) u) := by
  refine ⟨fun hm => respond_course_marked hi hp code ((hu.marked _).trans hm), fun hm => ?_⟩
  rw [respond_course_clean hi hp code (hu.partClean.2 (hk.resolve_right hm)), hu.peekPart, withRefCount_eq hp _ _ hu.plan]

theorem mergedCourse_full (s : State) : mergedCourse (courseRequest who part index 0xFFFF data) s = some data := by
  rw [mergedCourse, mergeStored, courseRequest_mask, courseRequest_data, fullMask_iff.2 rfl, if_pos rfl]

/-- A full mask touches a protected byte of either part (R4). -/
theorem courseBusy_unreadable {z : Option Part} (hp : part.toNat < 2) (hu : courseUnreadable s index.toNat = true) :
    courseBusy (courseRequest who part index 0xFFFF data) z s = true ↔ 0 < refCount s index.toNat := by
  have hb : (0xFFFF : Half) &&& protectedBytes part.toNat ≠ 0 := by rcases part_cases hp with rfl | rfl <;> decide
  rw [courseBusy_iff]
  exact ⟨fun hc => hc.1, fun hc => ⟨hc, hb, .inl hu⟩⟩

theorem courseValid_clean {other : Option Part} {z : Part} (hp : part.toNat < 2) (ho : part.toNat = 1 → other = some z) :
    courseValid (part = 1) m other = true ↔
      field (if part = 0 then m else z) 1 1 ≤ 31 ∨ field (if part = 0 then m else z) 1 1 = 255 := by
  rw [courseValid_iff hp ho]
  split <;> simp

theorem courseValid_found {other : Option Part} (hp : part.toNat < 2)
    (ho : part.toNat = 1 → other = found s (coursePart index.toNat 0)) :
    courseValid (part = 1) m other = true ↔
      part = 1 ∧ s.mgmt.unreadable.contains (coursePart index.toNat 0) = true ∨
        ∃ d, d = (if part = 0 then m else peekPart s (coursePart index.toNat 0)) ∧ (field d 1 1 ≤ 31 ∨ field d 1 1 = 255) := by
  rw [courseValid_iff hp ho, found]
  rcases part_cases hp with rfl | rfl
  · simp
  · cases s.mgmt.unreadable.contains (coursePart index.toNat 0) <;> simp

theorem settled_course (hp : part.toNat < 2) (h0 : Settled s (coursePart index.toNat 0))
    (h1 : Settled s (coursePart index.toNat 1)) : Settled s (coursePart index.toNat part.toNat) := by
  rcases part_cases hp with rfl | rfl
  · exact h0
  · exact h1

/-- R5: of an unreadable course a part can be written with a full mask alone, and not while a record names it. -/
theorem exec_writeCourse_unreadable (h : Heard s who level) (hl : level ≤ 1) (hi : index.toNat < 256) (hp : part.toNat < 2)
    (h0 : Settled s (coursePart index.toNat 0)) (h1 : Settled s (coursePart index.toNat 1))
    (hu : courseUnreadable s index.toNat = true) :
    ∃ other u, (part.toNat = 1 → other = found s (coursePart index.toNat 0)) ∧ ReadLeaves s u ∧
      (mask ≠ 0xFFFF → exec (.writeCourse who part index mask data) s =
        .next (respond (courseRequest who part index mask data) .memoryError u)) ∧
      (mask = 0xFFFF → courseValid (part = 1) data other = true → exec (.writeCourse who part index mask data) s =
        .next (if 0 < refCount s index.toNat then respond (courseRequest who part index mask data) .refusedBusy u
          else respond (courseRequest who part index mask data) .ok
            (storeMerged (courseRequest who part index mask data) (coursePart index.toNat part.toNat) data id u))) := by
  obtain ⟨other, u, he, ho, hru, -⟩ := exec_writeCourse_judged (mask := mask) (data := data) h hl hi hp h0 h1
  have hun : courseUnreadable u index.toNat = true := by
    rw [courseUnreadable_eq, hru.marked, hru.marked, ← courseUnreadable_eq, hu]
  have hrefs : refCount u index.toNat = refCount s index.toNat := by rw [refCount, hru.plan, ← refCount]
  refine ⟨other, u, ho, hru, fun hm => ?_, fun hm hv => ?_⟩
  · rw [he, merged_memoryError (Bool.eq_false_iff.2 (mt fullMask_iff.1 hm)) hun]
  · subst hm
    rw [he, mergedCourse_full, merged_judged (.inl (fullMask_iff.2 rfl)), courseRequest_part, courseRequest_index,
      if_neg (Bool.not_eq_false _ ▸ hv)]
    simp only [courseBusy_unreadable hp hun, hrefs]

/-- Settles O49: the judgement on the parts as found, for a course that can be read and for an unreadable one. -/
theorem writeCourseKeepsABusyCourse : Obligations.WriteCourseKeepsABusyCourse := by
  constructor
  · rintro s who level part index mask data m d0 count n busy valid h hc hi hp rfl h0 h1 rfl rfl rfl hbusy hvalid
    have hk := partClean_course hp h0 h1
    have hshow := fun code => (respond_settled (who := who) (mask := mask) (data := data) hi hp (readLeaves_arrived s)
      (.inl hk) code).2 (by rw [contains_of_partClean hk]; exact Bool.false_ne_true)
    have hb := courseBusy_clean (s := arrived .up s) (who := who) (part := part) (mask := mask) (data := data)
      (d := peekPart s (coursePart index.toNat 0)) h0 h1
    rw [protectedBytes_eq hp] at hb
    replace hb := hb.trans hbusy.symm
    have hjudged := fun hl => exec_writeCourse_clean (mask := mask) (data := data) h hl hi hp h0 h1
    have hv := fun other ho => (courseValid_clean (other := other) (z := peekPart s (coursePart index.toNat 0))
      (m := mergedWith s (coursePart index.toNat part.toNat) data mask) hp ho).trans hvalid.symm
    refine ⟨fun hl hval hnb hm => ?_, fun hl hval hby => ?_, fun hl hval => ?_, fun hl => ?_⟩
    · obtain ⟨other, ho, he⟩ := hjudged hl
      rw [if_neg (Bool.not_eq_false _ ▸ (hv other ho).2 hval), if_neg (mt hb.1 hnb)] at he
      obtain ⟨t, hr, hst⟩ := writeCourse_stores (who := who) (data := data) (d := mergedWith s _ data mask) hi hp
        (.refl (arrived .up s)) hc hm
      exact ⟨t, he.trans (congrArg _ hr), hst⟩
    · obtain ⟨other, ho, he⟩ := hjudged hl
      rw [if_neg (Bool.not_eq_false _ ▸ (hv other ho).2 hval), if_pos (hb.2 hby)] at he
      exact he.trans (congrArg _ (hshow _))
    · obtain ⟨other, ho, he⟩ := hjudged hl
      rw [if_pos (Bool.eq_false_iff.2 (mt (hv other ho).1 hval))] at he
      exact he.trans (congrArg _ (hshow _))
    · rw [exec_writeCourse_refused h hi hp hl]
      exact congrArg _ (hshow _)
  · rintro s who level part index mask data count n marked valid h hl hc hi hp rfl h0 h1 hu hmarked hvalid rfl
    obtain ⟨other, u, ho, hru, hpartial, hfull⟩ := exec_writeCourse_unreadable (mask := mask) (data := data) h hl hi hp h0 h1
      (Bool.or_eq_true_iff.2 hu)
    have hshow := fun code => respond_settled (who := who) (mask := mask) (data := data) hi hp hru (settled_course hp h0 h1) code
    have hrefused : ∀ code, exec (.writeCourse who part index mask data) s =
        .next (respond (courseRequest who part index mask data) code u) → ∃ t,
          (marked → exec (.writeCourse who part index mask data) s = .next (replied who 2 code 1 0 t)) ∧
          (¬ marked → exec (.writeCourse who part index mask data) s = .next (replied who 2 code 0
            (peekPart s (coursePart index.toNat part.toNat) ||| countField s part index.toNat) t)) ∧
          t.mem = s.mem ∧ t.plan = s.plan ∧ t.mgmt.replies = s.mgmt.replies := fun code hx =>
      ⟨u, fun hm => hx.trans (congrArg _ ((hshow code).1 (hmarked.1 hm))),
        fun hm => hx.trans (congrArg _ ((hshow code).2 (mt hmarked.2 hm))), hru.mem, hru.plan, hru.replies⟩
    have hv := (courseValid_found (m := data) hp ho).trans hvalid.symm
    refine ⟨fun hm => hrefused _ (hpartial hm), fun hm hval href => hrefused _ ?_, fun hm hval href => ?_⟩
    · rw [hfull hm (hv.2 hval), if_pos href]
    · obtain ⟨t, hr, hst⟩ := writeCourse_stores (who := who) (mask := mask) (data := data) (d := data) hi hp hru hc
        (by rw [hm]; decide)
      rw [countField_zero href, BitVec.or_zero] at hr
      rw [hfull hm (hv.2 hval), if_neg (by omega)]
      exact ⟨t, congrArg _ hr, hst⟩

end Sys2Proof.Machine
end

section
/-! SUPPORT. How a station's DONE report arrives (R28, R142, R154): the capture evaluates terms, which leaves the plan and the
track, and the report completes its command; then the sensor is compared (R44) and the cell is passed on. -/

namespace Sys2Proof.Machine

variable {s t u : State} {cmd : Cmd} {src echo : Byte} {brick : Bool} {measured : Word} {i : Nat} {k : Ticket}

/-- The evaluation of terms at a capture leaves these. -/
structure Informed (s u : State) : Prop where
  clock : u.clock = s.clock
  pins : u.pins = s.pins
  stab : u.stab = s.stab
  plan : u.plan = s.plan
  track : u.track = s.track
  params : u.params = s.params
  pending : u.pending = s.pending
  asLaid : u.lay.asLaid = s.lay.asLaid

/-- The report of a DONE cell. -/
structure ReportsDone (f : Feedback) (echo : Byte) (measured : Word) : Prop where
  actual : f.actual = measured
  status : stationStatus f = 2
  echo : echoOf f = echo.toNat

theorem reportsDone_doneCell (src echo : Byte) (brick : Bool) (measured : Word) (stamp : Option Word) :
    ReportsDone (feedbackOfCell (doneCell src echo brick measured) stamp) echo measured := by
  rw [doneCell, feedbackOfCell_fields]
  refine ⟨rfl, ?_, ?_⟩
  · show (doneStatus brick).toNat % 4 = 2
    cases brick <;> rfl
  · show (echo.zeroExtend 16).toNat % 256 = echo.toNat
    have := echo.isLt
    simp only [BitVec.toNat_setWidth]
    omega

theorem informed_evalTerms (l : List Nat) (i : Nat) (f : Feedback) (s : State) :
    Informed s (evalTerms l (storeFeedback i f (arrived .down s))) := by
  obtain ⟨hclock, hpins, -, -, hstab, hplan, htrack, hparams, hpending⟩ := (quiet_eq _ _).1
    (quiet_evalTerms l (storeFeedback i f (arrived .down s)))
  obtain ⟨-, -, -, hlaid⟩ := (mail_eq _ _).1 (mail_evalTerms l (storeFeedback i f (arrived .down s)))
  exact ⟨hclock, hpins, hstab, hplan, htrack, hparams, hpending, hlaid⟩

theorem station_stationRole (st : Station) : (stationRole st).station = some st := by cases st <;> rfl

theorem capture_station {role : Role} {st : Station} (h : role.station = some st) (i : Nat) (c : Cell) (s : State) :
    capture i role c s = stationReport st (feedbackOfCell c s.ring.lastCycle)
      (evalTerms (termsOnEntry i (storeFeedback i (feedbackOfCell c s.ring.lastCycle) s))
        (storeFeedback i (feedbackOfCell c s.ring.lastCycle) s)) := by
  simp only [capture, h]

theorem captureCell_seen {c : Cell} {st : Station} (hc : c.src = src) (h : Seen s src (stationRole st) i) :
    ∃ u, captureCell c (arrived .down s) = stationReport st (feedbackOfCell c s.ring.lastCycle) u ∧ Informed s u := by
  obtain ⟨e, he, hrole⟩ := h.entry
  have he' : entryOfAddr c.src (arrived .down s) = some (i, e) := hc ▸ he
  have hr : axisUnreadable (arrived .down s) i = false := h.readable
  have hcap : captureCell c (arrived .down s) = capture i e.role c (arrived .down s) := by
    rw [captureCell, he']
    simp only [hr, Bool.false_eq_true, if_false]
  rw [hcap, capture_station (by rw [hrole, station_stationRole])]
  exact ⟨_, rfl, informed_evalTerms _ i _ s⟩

theorem exec_doneRow (cmd : Cmd) (src echo : Byte) (brick : Bool) (measured : Word) (s : State) :
    exec (doneRow cmd src echo brick measured) s = .next (receive .down (doneCell src echo brick measured) s) := by
  cases cmd <;> rfl

/-- A DONE whose station is seen: its report is taken after the evaluation of terms, and its cell is passed on. -/
theorem exec_done_seen (h : Seen s src (stationRole cmd.station) i) :
    ∃ f u, exec (doneRow cmd src echo brick measured) s =
        .next (enqueue .up (doneCell src echo brick measured) (stationReport cmd.station f u)) ∧
      ReportsDone f echo measured ∧ Informed s u := by
  obtain ⟨u, hcap, hu⟩ := captureCell_seen (c := doneCell src echo brick measured) rfl h
  refine ⟨feedbackOfCell (doneCell src echo brick measured) s.ring.lastCycle, u, ?_, reportsDone_doneCell _ _ _ _ _, hu⟩
  have hgood : isGood (doneCell src echo brick measured) = true := isGood_goodCell _ _ _ _ _
  have hkind : (doneCell src echo brick measured).kind = kindFbk := rfl
  rw [exec_doneRow, receive_good _ _ _ h.synced hgood, passGood, passDown, if_pos hkind, hcap]

/-- A matching DONE completes the command in flight (R28). -/
theorem reportCommand_done {st : Station} {f : Feedback} {fl : InFlight} (hr : ReportsDone f echo measured)
    (hfl : (s.track.station st).inflight = some fl) (hnum : fl.num = echo.toNat) (hs : (s.track.station st).stall ≠ .fault) :
    reportCommand st f s = complete st fl measured.toInt s := by
  have hdone : (decide (stationStatus f = 2) && decide (echoOf f = fl.num) && (s.track.station st).stall != .fault) = true := by
    simp [hr.status, hr.echo, hnum, hs]
  unfold reportCommand
  dsimp only
  rw [hfl]
  simp only [hdone, if_true, hr.actual]

/-- A DONE that is awaited: the command has completed on a state that the evaluation of terms leaves. -/
theorem exec_done_awaited (h : Seen s src (stationRole cmd.station) i) (ha : Awaits s cmd echo k) :
    ∃ f u, exec (doneRow cmd src echo brick measured) s = .next (enqueue .up (doneCell src echo brick measured)
        (compareSensor cmd.station f (completeFor cmd k measured.toInt (freed cmd.station u)))) ∧ Informed s u := by
  obtain ⟨f, u, he, hr, hu⟩ := exec_done_seen (echo := echo) (brick := brick) (measured := measured) h
  obtain ⟨fl, hfl, rfl, hnum, hfind⟩ := ha.flight
  refine ⟨f, u, ?_, hu⟩
  rw [he, stationReport, reportCommand_done hr (hu.track ▸ hfl) hnum (hu.track ▸ ha.stall)]
  have hk : (freed fl.cmd.station u).track.find fl.ticket = some k := by
    rw [Track.find, freed, setStation, State.setTrack_track, tickets_setStation, hu.track]
    exact hfind
  rw [complete, ← freed, hk]

/-! ### The sensor and the cell that is passed on -/

theorem compareSensor_cases (st : Station) (f : Feedback) (s : State) : compareSensor st f s = s ∨
    (s.track.station st).stall = .none ∧ compareSensor st f s =
      latch .trackMismatch (stationCode st) (setStation st { (s.track.station st) with stall := .mismatch } s) := by
  unfold compareSensor
  split
  · exact .inl rfl
  · rename_i hc
    refine .inr ⟨?_, rfl⟩
    simp only [Bool.or_eq_true, not_or] at hc
    simpa [stalled] using hc.1.1

theorem Completed.compared (h : Completed cmd s t) (f : Feedback) : Completed cmd s (compareSensor cmd.station f t) := by
  rcases compareSensor_cases cmd.station f t with he | ⟨hnone, he⟩
  · rw [he]; exact h
  · have hs : (s.track.station cmd.station).stall = .none := by
      rcases h.stall with e | ⟨_, e⟩
      · rw [← e, hnone]
      · rw [e] at hnone; cases hnone
    have hsame : (compareSensor cmd.station f t).track.station cmd.station =
        { (t.track.station cmd.station) with stall := .mismatch } := by
      rw [he]; exact station_setStation_same _ _ _
    rw [he] at hsame ⊢
    exact { ended := by rw [hsame]; exact h.ended
            number := by rw [hsame]; exact h.number
            stall := .inr ⟨hs, by rw [hsame]⟩
            others := fun st hst => (station_setStation_ne _ _ hst).trans (h.others st hst)
            counter := (counter_setStation _ _ _).trans h.counter
            clock := h.clock, pins := h.pins, stab := h.stab, params := h.params, pending := h.pending }

theorem compareSensor_frame (st : Station) (f : Feedback) (s : State) : (compareSensor st f s).plan = s.plan ∧
    (compareSensor st f s).lay = s.lay ∧ (compareSensor st f s).track.tickets = s.track.tickets := by
  rcases compareSensor_cases st f s with he | ⟨-, he⟩ <;> rw [he]
  · exact ⟨rfl, rfl, rfl⟩
  · exact ⟨rfl, rfl, tickets_setStation _ _ _⟩

theorem enqueue_eq (p : Port) (c : Cell) (s : State) : ∃ r, enqueue p c s = s.setRing r := by
  unfold enqueue
  dsimp only
  split <;> exact ⟨_, rfl⟩

theorem Completed.setRing (h : Completed cmd s t) (r : Ring) : Completed cmd s (t.setRing r) :=
  { ended := h.ended, number := h.number, stall := h.stall, others := h.others, counter := h.counter, clock := h.clock
    pins := h.pins, stab := h.stab, params := h.params, pending := h.pending }

/-- A DONE that is awaited, the sensor's comparison and the cell that is passed on included: the plan, the lay controller and
the tickets are as the completion leaves them. -/
theorem exec_done_completes (h : Seen s src (stationRole cmd.station) i) (ha : Awaits s cmd echo k)
    (hv : ∀ u, Informed s u → Completed cmd s (completeFor cmd k measured.toInt (freed cmd.station u))) :
    ∃ t u, exec (doneRow cmd src echo brick measured) s = .next t ∧ Informed s u ∧ Completed cmd s t ∧
      t.plan = (completeFor cmd k measured.toInt (freed cmd.station u)).plan ∧
      t.lay = (completeFor cmd k measured.toInt (freed cmd.station u)).lay ∧
      t.track.tickets = (completeFor cmd k measured.toInt (freed cmd.station u)).track.tickets := by
  obtain ⟨f, u, he, hu⟩ := exec_done_awaited (brick := brick) (measured := measured) h ha
  obtain ⟨r, hr⟩ := enqueue_eq .up (doneCell src echo brick measured)
    (compareSensor cmd.station f (completeFor cmd k measured.toInt (freed cmd.station u)))
  obtain ⟨hplan, hlay, htickets⟩ := compareSensor_frame cmd.station f
    (completeFor cmd k measured.toInt (freed cmd.station u))
  rw [hr] at he
  exact ⟨_, u, he, hu, ((hv u hu).compared f).setRing r, hplan, hlay, htickets⟩

/-! ### EJECT and DROP (R34, R38, R43) -/

theorem completed_freed (hu : Informed s u) : Completed cmd s (freed cmd.station u) := by
  have hsame : (freed cmd.station u).track.station cmd.station =
      { (s.track.station cmd.station) with inflight := none } := by
    rw [← hu.track]; exact station_setStation_same _ _ _
  exact { ended := by rw [hsame]
          number := by rw [hsame]
          stall := .inl (by rw [hsame])
          others := fun st hst => by rw [← hu.track]; exact station_setStation_ne _ _ hst
          counter := by rw [← hu.track]; exact counter_setStation _ _ _
          clock := hu.clock, pins := hu.pins, stab := hu.stab, params := hu.params, pending := hu.pending }

theorem Completed.dropped (h : Completed cmd s t) (k : Ticket) (counts : Bool) :
    Completed cmd s (dropTicket k counts t) := by
  obtain ⟨hclock, hpins, -, -, hstab, hparams, hpending⟩ := (steady_eq _ _).1 (kept_dropTicket k counts t).1
  have htrack : (dropTicket k counts t).track = t.track.remove k.lay := (reissue_frame _ _ _).1
  have hst : ∀ st, (dropTicket k counts t).track.station st = t.track.station st := fun st => by
    rw [htrack]; cases st <;> rfl
  exact { ended := by rw [hst]; exact h.ended
          number := by rw [hst]; exact h.number
          stall := by rw [hst]; exact h.stall
          others := fun st hne => by rw [hst]; exact h.others st hne
          counter := by rw [htrack]; exact h.counter
          clock := hclock.trans h.clock, pins := hpins.trans h.pins, stab := hstab.trans h.stab
          params := hparams.trans h.params, pending := hpending.trans h.pending }

theorem reissue_none {n : Nat} {c : Bool} (h : boundOf n s = none) : reissue n c s = s := by rw [reissue, h]

theorem reissue_some {n : Nat} {c : Bool} {b : BoundEntry} (h : boundOf n s = some b) : reissue n c s =
    s.setPlan { s.plan with
      bound := s.plan.bound.filter (fun d => d.lay != n)
      queue := insertByLay (reissueEntry s.params.reissueLimit c b) s.plan.queue } := by rw [reissue, h]

theorem completeFor_drops (hc : cmd = .eject ∨ cmd = .drop) (k : Ticket) (v : Int) (s : State) :
    completeFor cmd k v s = dropTicket k (reissueCounts k) s := by
  rcases hc with rfl | rfl <;> rfl

theorem reissueCounts_iff (k : Ticket) : reissueCounts k = true ↔ (k.reject = true ∨ k.spoilt = true) ∧ k.purge = false := by
  simp [reissueCounts]

/-- The first clause of O25: EJECT DONE and DROP DONE. -/
theorem exec_done_drops {counts : Bool} (h : Seen s src (stationRole cmd.station) i) (ha : Awaits s cmd echo k)
    (hc : cmd = .eject ∨ cmd = .drop) (hcounts : counts = reissueCounts k) :
    ∃ t, exec (doneRow cmd src echo brick measured) s = .next t ∧ Completed cmd s t ∧
      t.track.tickets = s.track.tickets.filter (fun x => x.lay != k.lay) ∧ t.lay.asLaid = s.lay.asLaid ∧
      (boundOf k.lay s = none → t.plan = s.plan) ∧
      (∀ b, boundOf k.lay s = some b → t.plan = { s.plan with
        bound := s.plan.bound.filter (fun x => x.lay != k.lay)
        queue := insertByLay (reissueEntry s.params.reissueLimit counts b) s.plan.queue }) := by
  subst hcounts
  obtain ⟨t, u, he, hu, hcomp, hplan, hlay, htickets⟩ := exec_done_completes (brick := brick) (measured := measured) h ha
    fun u hu => by rw [completeFor_drops hc]; exact (completed_freed hu).dropped k _
  rw [completeFor_drops hc] at hplan hlay htickets
  have hp : ((freed cmd.station u).setTrack ((freed cmd.station u).track.remove k.lay)).plan = s.plan := hu.plan
  have hpar : ((freed cmd.station u).setTrack ((freed cmd.station u).track.remove k.lay)).params = s.params := hu.params
  have hbound : ∀ o, boundOf k.lay s = o →
      boundOf k.lay ((freed cmd.station u).setTrack ((freed cmd.station u).track.remove k.lay)) = o := by
    rintro o rfl
    rw [boundOf, hp, ← boundOf]
  obtain ⟨hkeep, hkeepLay⟩ := reissue_frame k.lay (reissueCounts k)
    ((freed cmd.station u).setTrack ((freed cmd.station u).track.remove k.lay))
  refine ⟨t, he, hcomp, ?_, ?_, fun hb => ?_, fun b hb => ?_⟩
  · rw [htickets, dropTicket, hkeep]
    show ((freed cmd.station u).track.tickets.filter _) = _
    rw [freed, setStation, State.setTrack_track, tickets_setStation, hu.track]
  · rw [hlay, dropTicket, hkeepLay]
    exact hu.asLaid
  · rw [hplan, dropTicket, reissue_none (hbound _ hb), hp]
  · rw [hplan, dropTicket, reissue_some (hbound _ hb), State.setPlan_plan, hp, hpar]

end Sys2Proof.Machine
end

section
/-! SUPPORT. The reads of an admission request (R17, R118, R119): of clean parts, of parts that a read has marked before, and of
a plan record whose low word has two flipped bits; and the point test on zones that are all clean. -/

namespace Sys2Proof.Machine

variable {s t u : State} {k n : Nat}

/-! ### Markings are never lost by a read -/

theorem marked_frameDue (d : Word) (s : State) : partMarked (frameDue d s) = partMarked s := by
  unfold frameDue; split <;> rfl

theorem marked_refreshTx (s : State) : partMarked (refreshTx s) = partMarked s := by
  unfold refreshTx
  split
  · split
    · rfl
    · exact marked_frameDue _ _
  · rfl

theorem marked_setMode (m : Mode) (s : State) : partMarked (setMode m s) = partMarked s := marked_refreshTx _

theorem marked_enterHold (s : State) : partMarked (enterHold s) = partMarked s := marked_setMode _ _

theorem marked_report (s : State) : partMarked (report s) = partMarked s := by
  unfold report
  dsimp only
  split
  · exact marked_enterHold _
  · rfl

theorem marked_markUnreadable (h : partMarked s k = true) : partMarked (markUnreadable n s) k = true := by
  simp only [partMarked, markUnreadable, Bool.or_eq_true, List.contains_iff_mem, State.setMgmt_mgmt, State.setMgmt_guard,
    mem_setInsert] at h ⊢
  exact h.imp_left .inr

theorem marked_poison (h : partMarked s k = true) :
    partMarked (s.setGuard { s.guard with poisoned := setInsert n s.guard.poisoned }) k = true := by
  simp only [partMarked, Bool.or_eq_true, List.contains_iff_mem, State.setGuard_mgmt, State.setGuard_guard,
    mem_setInsert] at h ⊢
  exact h.imp_right .inr

theorem marked_storePart (n : Nat) (d : Part) (s : State) : partMarked (storePart n d s) = partMarked s := by
  funext j
  simp only [partMarked, storePart, State.setMem_mgmt, State.setMem_guard]

theorem marked_latch (f : FaultKind) (d : Nat) (s : State) : partMarked (latch f d s) = partMarked s := rfl

theorem marked_uncorrectablePart (h : partMarked s k = true) : partMarked (uncorrectablePart n s).2 k = true := by
  unfold uncorrectablePart
  split
  · rw [marked_report]; exact marked_poison h
  · rw [marked_latch, marked_storePart]; exact h
  · split
    · exact h
    · rw [marked_storePart]; exact h
  · exact marked_markUnreadable h
  · exact marked_markUnreadable h
  · rw [marked_report]; exact marked_markUnreadable h
  · exact marked_markUnreadable h

theorem marked_writeBack (w : Nat) (f : WordFinding) (s : State) : partMarked (writeBack w f s) = partMarked s := by
  unfold writeBack; split <;> rfl

/-- A part that is marked stays so under every read. -/
theorem marked_readPart (h : partMarked s k = true) : partMarked (readPart n s).2 k = true := by
  unfold readPart
  dsimp only
  split
  · exact marked_uncorrectablePart h
  · split
    · rw [marked_writeBack, marked_writeBack]; exact h
    · exact marked_uncorrectablePart (by rw [marked_writeBack, marked_writeBack]; exact h)

/-- A read of a marked part gives nothing (R177). -/
theorem readPart_of_marked (h : partMarked s n = true) : (readPart n s).1 = none := by
  unfold readPart
  dsimp only
  rw [if_pos h]

/-! ### Courses -/

theorem readCourse_clean {c : Nat} (h0 : PartClean s (197 + 2 * c)) (h1 : PartClean s (197 + 2 * c + 1)) :
    readCourse c s = (some (courseRec (peekPart s (197 + 2 * c)) (peekPart s (197 + 2 * c + 1))), s) := by
  have r0 : readPart (coursePart c 0) s = (some (peekPart s (197 + 2 * c)), s) := readPart_clean _ _ h0
  have r1 : readPart (coursePart c 1) s = (some (peekPart s (197 + 2 * c + 1)), s) := readPart_clean _ _ h1
  simp only [readCourse, r0, r1]

theorem readCourse_marked {c : Nat} (h : partMarked s (197 + 2 * c) = true ∨ partMarked s (197 + 2 * c + 1) = true) :
    (readCourse c s).1 = none := by
  unfold readCourse
  rcases h with h | h
  · have h0 : (readPart (coursePart c 0) s).1 = none := readPart_of_marked h
    simp only [h0]
  · have h1 : (readPart (coursePart c 1) (readPart (coursePart c 0) s).2).1 = none :=
      readPart_of_marked (marked_readPart h)
    simp only [h1]
    split <;> simp_all

/-! ### Zones -/

/-- The descriptor of a zone whose parts are clean. -/
def cleanZone (s : State) (i : Nat) : ZoneRec := zoneRec (peekPart s (69 + 2 * i)) (peekPart s (69 + 2 * i + 1))

/-- A zone as it is read when both its parts are clean. -/
def cleanView (s : State) (i : Nat) : ZoneView := { index := i, desc := some (cleanZone s i) }

theorem readZone_clean {i : Nat} (h0 : PartClean s (69 + 2 * i)) (h1 : PartClean s (69 + 2 * i + 1)) :
    readZone i s = (some (cleanZone s i), s) := by
  have r0 : readPart (zonePart i 0) s = (some (peekPart s (69 + 2 * i)), s) := readPart_clean _ _ h0
  have r1 : readPart (zonePart i 1) s = (some (peekPart s (69 + 2 * i + 1)), s) := readPart_clean _ _ h1
  simp only [readZone, r0, r1, cleanZone]

theorem readZonesOf_clean (l : List Nat) (h : ∀ i ∈ l, PartClean s (69 + 2 * i) ∧ PartClean s (69 + 2 * i + 1)) :
    readZonesOf l s = (l.map (cleanView s), s) := by
  induction l with
  | nil => rfl
  | cons i l ih =>
    obtain ⟨h0, h1⟩ := h i List.mem_cons_self
    simp only [readZonesOf, readZone_clean h0 h1, ih fun j hj => h j (List.mem_cons_of_mem _ hj)]
    rfl

theorem readZones_clean (h : ∀ n, 69 ≤ n → n < 197 → PartClean s n) :
    readZones s = ((List.range 64).map (cleanView s), s) :=
  readZonesOf_clean _ fun i hi => by
    have := List.mem_range.1 hi
    exact ⟨h _ (by omega) (by omega), h _ (by omega) (by omega)⟩

theorem readZone_marked {i : Nat} (h : partMarked s (zonePart i 0) = true ∨ partMarked s (zonePart i 1) = true) :
    (readZone i s).1 = none := by
  unfold readZone
  rcases h with h | h
  · simp only [readPart_of_marked h]
  · have h1 : (readPart (zonePart i 1) (readPart (zonePart i 0) s).2).1 = none := readPart_of_marked (marked_readPart h)
    simp only [h1]
    split <;> simp_all

theorem marked_readZone {i : Nat} (h : partMarked s k = true) : partMarked (readZone i s).2 k = true := by
  have := marked_readPart (n := zonePart i 1) (marked_readPart (n := zonePart i 0) h)
  unfold readZone
  dsimp only
  split <;> exact this

/-- A zone with a poisoned part is among the zones read without a descriptor. -/
theorem readZonesOf_marked {i : Nat} {l : List Nat} (hi : i ∈ l)
    (h : partMarked s (zonePart i 0) = true ∨ partMarked s (zonePart i 1) = true) :
    ∃ v ∈ (readZonesOf l s).1, v.desc = none := by
  induction l generalizing s with
  | nil => cases hi
  | cons j l ih =>
    rcases List.mem_cons.1 hi with rfl | hi
    · exact ⟨_, List.mem_cons_self, readZone_marked h⟩
    · obtain ⟨v, hv, hd⟩ := ih hi (s := (readZone j s).2) (h.imp marked_readZone marked_readZone)
      exact ⟨v, List.mem_cons_of_mem _ hv, hd⟩

theorem pointTest_poisoned (g : Target) (h : ∃ n, 69 ≤ n ∧ n < 197 ∧ n ∈ s.guard.poisoned) :
    (pointTest g s).1 = false := by
  obtain ⟨n, hlo, hhi, hn⟩ := h
  have hm : partMarked s n = true := by simp [partMarked, hn]
  obtain ⟨i, hi, hpart⟩ : ∃ i < 64, n = zonePart i 0 ∨ n = zonePart i 1 :=
    ⟨(n - 69) / 2, by omega, by unfold zonePart; omega⟩
  obtain ⟨v, hv, hd⟩ := readZonesOf_marked (List.mem_range.2 hi) (hpart.imp (fun e => e ▸ hm) fun e => e ▸ hm)
  have hall : (readZones s).1.all (fun v => v.desc.isSome) = false :=
    List.all_eq_false.2 ⟨v, hv, by rw [hd]; exact Bool.false_ne_true⟩
  unfold pointTest
  dsimp only
  rw [pointPasses, hall]
  simp only [Bool.false_and]

/-! ### The point test on clean zones (R118) -/

theorem mem_activeBoxes (type : Nat) (b : Nat × Box) : b ∈ activeBoxes s type ((List.range 64).map (cleanView s)) ↔
    ∃ i < 64, zoneActive s i (cleanZone s i) = true ∧ (cleanZone s i).type = type ∧ (i, (cleanZone s i).box) = b := by
  rw [activeBoxes, List.mem_filterMap]
  constructor
  · rintro ⟨v, hv, hf⟩
    obtain ⟨i, hi, rfl⟩ := List.mem_map.1 hv
    obtain ⟨hc, hb⟩ := Option.ite_none_right_eq_some.1 (show (if ((cleanZone s i).type == type &&
      zoneActive s i (cleanZone s i)) = true then some (i, (cleanZone s i).box) else none) = some b from hf)
    obtain ⟨ht, ha⟩ := Bool.and_eq_true_iff.1 hc
    exact ⟨i, List.mem_range.1 hi, ha, beq_iff_eq.1 ht, Option.some.inj hb⟩
  · rintro ⟨i, hi, ha, ht, rfl⟩
    refine ⟨cleanView s i, List.mem_map.2 ⟨i, List.mem_range.2 hi, rfl⟩, ?_⟩
    simp only [cleanView]
    exact if_pos (Bool.and_eq_true_iff.2 ⟨beq_iff_eq.2 ht, ha⟩)

/-- Some active zone of a type has the point. -/
theorem any_activeBoxes (type : Nat) (x y z : Int) :
    (activeBoxes s type ((List.range 64).map (cleanView s))).any (fun b => b.2.hasPoint x y z) = true ↔
      ∃ i < 64, zoneActive s i (cleanZone s i) = true ∧ (cleanZone s i).type = type ∧
        (cleanZone s i).box.hasPoint x y z = true := by
  simp only [List.any_eq_true, mem_activeBoxes]
  constructor
  · rintro ⟨_, ⟨i, hi, ha, ht, rfl⟩, hp⟩
    exact ⟨i, hi, ha, ht, hp⟩
  · rintro ⟨i, hi, ha, ht, hp⟩
    exact ⟨_, ⟨i, hi, ha, ht, rfl⟩, hp⟩

theorem isEmpty_activeBoxes (type : Nat) : (activeBoxes s type ((List.range 64).map (cleanView s))).isEmpty = true ↔
    ¬ ∃ i < 64, zoneActive s i (cleanZone s i) = true ∧ (cleanZone s i).type = type := by
  rw [List.isEmpty_iff, List.eq_nil_iff_forall_not_mem]
  constructor
  · rintro h ⟨i, hi, ha, ht⟩
    exact h _ ((mem_activeBoxes _ _).2 ⟨i, hi, ha, ht, rfl⟩)
  · rintro h b hb
    obtain ⟨i, hi, ha, ht, -⟩ := (mem_activeBoxes _ _).1 hb
    exact h ⟨i, hi, ha, ht⟩

theorem pointTest_clean (g : Target) (h : ∀ n, 69 ≤ n → n < 197 → PartClean s n) :
    pointTest g s = (pointPasses s g.x g.y g.z ((List.range 64).map (cleanView s)), s) := by
  rw [pointTest, readZones_clean h]

/-- R118: no active zone of type 1 or 4 has the point, and when zones of type 2 are active one of them has it. -/
theorem pointPasses_iff (x y z : Int) : pointPasses s x y z ((List.range 64).map (cleanView s)) = true ↔
    (∀ i < 64, zoneActive s i (cleanZone s i) = true → (cleanZone s i).box.hasPoint x y z = true →
      (cleanZone s i).type ≠ 1 ∧ (cleanZone s i).type ≠ 4) ∧
    ((∃ i < 64, zoneActive s i (cleanZone s i) = true ∧ (cleanZone s i).type = 2) →
      ∃ i < 64, zoneActive s i (cleanZone s i) = true ∧ (cleanZone s i).type = 2 ∧
        (cleanZone s i).box.hasPoint x y z = true) := by
  have hall : ((List.range 64).map (cleanView s)).all (fun v => v.desc.isSome) = true := by simp [cleanView]
  simp only [pointPasses, hall, Bool.true_and, Bool.and_eq_true, Bool.not_eq_true', Bool.or_eq_true,
    ← Bool.not_eq_true (List.any _ _), any_activeBoxes, isEmpty_activeBoxes]
  constructor
  · rintro ⟨⟨h1, h4⟩, h2⟩
    exact ⟨fun i hi ha hp => ⟨fun e => h1 ⟨i, hi, ha, e, hp⟩, fun e => h4 ⟨i, hi, ha, e, hp⟩⟩,
      h2.resolve_left ∘ not_not.2⟩
  · rintro ⟨h14, h2⟩
    exact ⟨⟨fun ⟨i, hi, ha, e, hp⟩ => (h14 i hi ha hp).1 e, fun ⟨i, hi, ha, e, hp⟩ => (h14 i hi ha hp).2 e⟩,
      (em _).symm.imp_right h2⟩

end Sys2Proof.Machine
end

section
/-! SUPPORT. The admission request as a whole (R17 to R20): each test of the head of the queue, in their order, and the record
that is bound. -/

namespace Sys2Proof.Machine

variable {s t u : State} {e : QueueEntry} {es : List QueueEntry}

/-! ### Stalls (R18) -/

theorem has_latch (k : FaultKind) (d : Nat) (s : State) : (latch k d s).ctl.has k = true := by
  show (s.ctl.latch k (BitVec.ofNat 32 d) s.clock.ms).has k = true
  unfold Ctl.latch
  split
  · assumption
  · have hcode : k.code - 1 < 16 := by cases k <;> decide
    simp [Ctl.has, hcode]

/-- A stall after reads that leave the plan and the track. -/
theorem stall_quiet {k : FaultKind} (h : quiet u = quiet s) : ∃ t, stall k e u = (.none, t) ∧ t.ctl.has k = true ∧
    t.plan = s.plan ∧ t.track = s.track :=
  ⟨_, rfl, has_latch k _ u, plan_of_quiet h, track_of_quiet h⟩

theorem admitHead_cons (hq : s.plan.queue = e :: es) :
    admitHead s = if e.failed = true then stall .recordFailed e s else admitRecord e s := by
  rw [admitHead, hq]

/-! ### The tests in their order (R17) -/

/-- A read of a plan record with two flipped bits in its low word counts it and gives nothing (R177). -/
theorem readPart_twoBits_plan {slot : Nat} (h : TwoBits s (planPart slot)) (hu : slotUsed s slot = true) :
    readPart (planPart slot) s = (none, countedBad s) := by
  obtain ⟨b, c, hlow⟩ := h.low
  have f0 : wordFinding s.mem (2 * planPart slot) = .uncorrectable := by rw [wordFinding, hlow]
  have f1 := wordFinding_clean s.mem _ h.high
  have hplace : placeOf (planPart slot) = .plan slot := by
    have hslot : planPart slot - 709 = slot := Nat.add_sub_cancel_left 709 slot
    have hle : 709 ≤ planPart slot := Nat.le_add_right 709 slot
    rw [placeOf, if_neg (by omega), if_neg (by omega), if_neg (by omega), if_neg (by omega), if_neg (by omega),
      if_neg (by omega), hslot]
  have hfree : uncorrectablePart (planPart slot) (countedBad s) = (none, countedBad s) := by
    have hu' : slotUsed (countedBad s) slot = true := hu
    rw [uncorrectablePart, hplace]
    simp only [hu', if_true]
  unfold readPart
  simp only [f0, f1, h.fresh, findingBad, findingFixed, writeBack, Bool.toNat_true, Bool.toNat_false, Bool.false_eq_true,
    if_false]
  exact hfree

theorem slotUsed_head (hq : s.plan.queue = e :: es) : slotUsed s e.slot = true := by simp [slotUsed, hq]

theorem admitRecord_planEcc (hq : s.plan.queue = e :: es) (h : TwoBits s (planPart e.slot)) :
    admitRecord e s = stall .planEcc e (countedBad s) := by
  rw [admitRecord, readPart_twoBits_plan h (slotUsed_head hq)]

theorem admitRecord_courseMarked (hp : PartClean s (planPart e.slot))
    (h : partMarked s (197 + 2 * e.course) = true ∨ partMarked s (197 + 2 * e.course + 1) = true) :
    admitRecord e s = stall .courseAbsent e (readCourse e.course s).2 := by
  have hc : readCourse e.course s = (none, (readCourse e.course s).2) := Prod.ext (readCourse_marked h) rfl
  rw [admitRecord, readPart_clean _ _ hp]
  dsimp only
  rw [hc]

theorem admitRecord_clean {r : PlanRec} {c : CourseRec} (hp : PartClean s (709 + e.slot)) (h0 : PartClean s (197 + 2 * e.course))
    (h1 : PartClean s (197 + 2 * e.course + 1)) (hr : r = planRec (peekPart s (709 + e.slot)))
    (hc : c = courseRec (peekPart s (197 + 2 * e.course)) (peekPart s (197 + 2 * e.course + 1))) :
    admitRecord e s = if c.present = true then admitInCourse e r c s else stall .courseAbsent e s := by
  have hread : readPart (planPart e.slot) s = (some (peekPart s (709 + e.slot)), s) := readPart_clean _ _ hp
  simp only [admitRecord, hread, readCourse_clean h0 h1, ← hr, ← hc]

/-! ### The record in its course -/

/-- R17 check 4: both offsets lie within the course's extents. -/
def inExtents (r : PlanRec) (c : CourseRec) : Bool := offsetFits c.g r.dx c.extX && offsetFits c.g r.dy c.extY

theorem offsetFits_iff (g : Bool) (d : Int) (ext : Nat) :
    offsetFits g d ext = true ↔ 0 ≤ d ∧ d ≤ (if g then ext * 4096 + 4095 else ext * 16 + 15 : Nat) := by
  rw [offsetFits, Bool.and_eq_true]
  exact and_congr decide_eq_true_iff decide_eq_true_iff

theorem inExtents_iff (r : PlanRec) (c : CourseRec) : inExtents r c = true ↔
    0 ≤ r.dx ∧ r.dx ≤ (if c.g then c.extX * 4096 + 4095 else c.extX * 16 + 15 : Nat) ∧
      0 ≤ r.dy ∧ r.dy ≤ (if c.g then c.extY * 4096 + 4095 else c.extY * 16 + 15 : Nat) := by
  rw [inExtents, Bool.and_eq_true, offsetFits_iff, offsetFits_iff, and_assoc]

variable {r : PlanRec} {c : CourseRec}

theorem admitInCourse_limit (h : ¬ inExtents r c = true) : admitInCourse e r c s = stall .recordLimit e s := by
  have hn : (!inExtents r c) = true := by simpa using h
  exact if_pos hn

theorem admitInCourse_fits (h : inExtents r c = true) : admitInCourse e r c s =
    if (pointTest (targetOfRecord r c) s).1 = true then
      (.bound e r (targetOfRecord r c), bindHead e (targetOfRecord r c) (pointTest (targetOfRecord r c) s).2)
    else stall .targetInZone e (pointTest (targetOfRecord r c) s).2 := by
  have hn : ¬ (!inExtents r c) = true := by simpa using h
  refine (if_neg hn).trans ?_
  rcases hpt : pointTest (targetOfRecord r c) s with ⟨b, t⟩
  cases b <;> rfl

/-- R20: with the lay numbers rising, the head alone leaves the queue. -/
theorem bindHead_eq (hq : s.plan.queue = e :: es) (hr : layRising s.plan.queue) (g : Target) : bindHead e g s =
    s.setPlan { s.plan with
      queue := es
      bound := s.plan.bound ++ [{ lay := e.lay, course := e.course, reissue := e.reissue, slot := e.slot, target := g }] } := by
  rw [hq] at hr
  have hes : (e :: es).filter (fun q => q.lay != e.lay) = es := by
    rw [List.filter_cons_of_neg (by simp)]
    exact List.filter_eq_self.2 fun q hm => by simpa using Nat.ne_of_gt (List.rel_of_pairwise_cons hr hm)
  rw [bindHead, hq, hes]

/-! ### The words of the statement -/

theorem hasPoint_iff (b : Box) (x y z : Int) : b.hasPoint x y z = true ↔
    b.lo.x ≤ x ∧ x ≤ b.hi.x ∧ b.lo.y ≤ y ∧ y ≤ b.hi.y ∧ b.lo.z ≤ z ∧ z ≤ b.hi.z := by
  simp only [Box.hasPoint, Box.contains, Bool.and_eq_true, decide_eq_true_eq, and_assoc]

theorem zoneActive_iff (s : State) (i : Nat) (z : ZoneRec) : zoneActive s i z = true ↔
    z.present = true ∧ i ∉ s.guard.suspended ∧ (z.term = 255 ∨ resolve true s z.term = true) := by
  simp [zoneActive, and_assoc]

/-- R118 in the words of the statement. -/
theorem pointPasses_iff_free {g : Target} {free : Prop} {active inside : Nat → Prop} {type : Nat → Nat}
    (htype : ∀ z, type z = ((peekPart s (69 + 2 * z)).extractLsb' 1 3).toNat)
    (hactive : ∀ z, active z ↔ z < 64 ∧ (peekPart s (69 + 2 * z)).getLsbD 0 = true ∧ z ∉ s.guard.suspended ∧
      (field (peekPart s (69 + 2 * z)) 1 1 = 255 ∨ resolve true s (field (peekPart s (69 + 2 * z)) 1 1) = true))
    (hinside : ∀ z, inside z ↔ ∃ b, b = (zoneRec (peekPart s (69 + 2 * z)) (peekPart s (69 + 2 * z + 1))).box ∧
      b.lo.x ≤ g.x ∧ g.x ≤ b.hi.x ∧ b.lo.y ≤ g.y ∧ g.y ≤ b.hi.y ∧ b.lo.z ≤ g.z ∧ g.z ≤ b.hi.z)
    (hfree : free ↔ (∀ z, active z → inside z → type z ≠ 1 ∧ type z ≠ 4) ∧
      ((∃ z, active z ∧ type z = 2) → ∃ z, active z ∧ type z = 2 ∧ inside z)) :
    pointPasses s g.x g.y g.z ((List.range 64).map (cleanView s)) = true ↔ free := by
  have ht : ∀ z, type z = (cleanZone s z).type := htype
  have ha : ∀ z, active z ↔ z < 64 ∧ zoneActive s z (cleanZone s z) = true := fun z => by
    rw [hactive, zoneActive_iff]; rfl
  have hi : ∀ z, inside z ↔ (cleanZone s z).box.hasPoint g.x g.y g.z = true := fun z => by
    rw [hinside, hasPoint_iff, exists_eq_left]; rfl
  rw [pointPasses_iff, hfree]
  simp only [ht, ha, hi, and_imp, and_assoc]

theorem targetOfRecord_eq (r : PlanRec) (c : CourseRec) : targetOfRecord r c =
    { x := max (-2147483648) (min 2147483647 (c.x + r.dx)), y := max (-2147483648) (min 2147483647 (c.y + r.dy)),
      z := c.z, w := r.yaw } := rfl

/-- Settles O25: the completion of EJECT and DROP is a reissue, and `admitHead` runs through its tests in their order. -/
theorem droppedBlockIsReissued : Obligations.DroppedBlockIsReissued := by
  refine ⟨fun s cmd src echo brick measured i k counts hseen haw hc hcounts => ?_, fun s hq => by rw [admitHead, hq],
    fun s e es stalls hq hstalls => ⟨fun hf => ?_, fun hf htwo => ?_, fun hf hp hmarked => ?_, ?_⟩⟩
  · obtain ⟨t, he, hcomp, htickets, hlaid, hnone, hsome⟩ := exec_done_drops (brick := brick) (measured := measured) hseen haw
      hc (Bool.eq_iff_iff.2 (hcounts.trans (reissueCounts_iff k).symm))
    exact ⟨t, he, hcomp, htickets, hlaid, hnone, fun b n hb hn => by rw [hsome b hb, hn]; rfl⟩
  · rw [admitHead_cons hq, if_pos hf, hstalls]
    rfl
  · rw [admitHead_cons hq, hf, if_neg Bool.false_ne_true, admitRecord_planEcc hq htwo, hstalls]
    rfl
  · rw [admitHead_cons hq, hf, if_neg Bool.false_ne_true, admitRecord_courseMarked hp hmarked]
    exact stall_quiet (quiet_readCourse _ _)
  · intro r c g fits free active inside type hf hp h0 h1 hrec hcourse hfits hg htype hactive hinside hfree
    rw [← inExtents_iff] at hfits
    rw [← targetOfRecord_eq] at hg
    have hpoint := pointPasses_iff_free htype hactive hinside hfree
    have hhead : admitHead s = if c.present = true then admitInCourse e r c s else stall .courseAbsent e s := by
      rw [admitHead_cons hq, hf, if_neg Bool.false_ne_true, admitRecord_clean hp h0 h1 hrec hcourse]
    refine ⟨fun hpres => ?_, fun hpres hn => ?_, fun hpres hin hz hn => ?_, fun hpres hin hbad => ?_,
      fun hpres hin hz hfr hr => ?_⟩
    · rw [hhead, hpres, if_neg Bool.false_ne_true, hstalls]
      rfl
    · rw [hhead, if_pos hpres, admitInCourse_limit (mt hfits.2 hn), hstalls]
      rfl
    · rw [hhead, if_pos hpres, admitInCourse_fits (hfits.1 hin), ← hg, pointTest_clean _ hz, if_neg (mt hpoint.1 hn), hstalls]
      rfl
    · rw [hhead, if_pos hpres, admitInCourse_fits (hfits.1 hin), pointTest_poisoned _ hbad, if_neg Bool.false_ne_true]
      exact stall_quiet (quiet_pointTest _ _)
    · rw [hhead, if_pos hpres, admitInCourse_fits (hfits.1 hin), ← hg, pointTest_clean _ hz, if_pos (hpoint.2 hfr),
        bindHead_eq hq hr]

end Sys2Proof.Machine
end

section
/-! SUPPORT. The DONE reports that move a ticket on (R28, R32, R33, R35, R36): a completion that changes tickets alone, and the
purge that a block out of tolerance brings (R42). -/

namespace Sys2Proof.Machine

variable {s t u : State} {cmd : Cmd} {src echo : Byte} {brick : Bool} {measured : Word} {i : Nat} {k : Ticket}

/-! ### Completions that change tickets alone -/

/-- The track with other tickets. -/
def Track.withTickets (x : Track) (l : List Ticket) : Track := { x with tickets := l }

@[simp] theorem station_withTickets (x : Track) (l : List Ticket) (st : Station) :
    (x.withTickets l).station st = x.station st := by cases st <;> rfl

theorem Completed.withTickets (h : Completed cmd s t) (l : List Ticket) :
    Completed cmd s (t.setTrack (t.track.withTickets l)) :=
  { ended := by rw [State.setTrack_track, station_withTickets]; exact h.ended
    number := by rw [State.setTrack_track, station_withTickets]; exact h.number
    stall := by rw [State.setTrack_track, station_withTickets]; exact h.stall
    others := fun st hst => by rw [State.setTrack_track, station_withTickets]; exact h.others st hst
    counter := h.counter, clock := h.clock, pins := h.pins, stab := h.stab, params := h.params, pending := h.pending }

theorem tickets_freed (hu : Informed s u) (st : Station) : (freed st u).track.tickets = s.track.tickets := by
  rw [freed, setStation, State.setTrack_track, tickets_setStation, hu.track]

theorem update_eq (x : Track) (n : Nat) (f : Ticket → Ticket) :
    x.update n f = x.withTickets (x.tickets.map fun y => if y.lay = n then f y else y) := by
  simp only [Track.update, Track.withTickets, beq_iff_eq]

theorem setTicket_eq (n : Nat) (f : Ticket → Ticket) (s : State) : setTicket n f s =
    s.setTrack (s.track.withTickets (s.track.tickets.map fun y => if y.lay = n then f y else y)) := by
  rw [setTicket, update_eq]

/-- A DONE whose completion changes tickets alone: the plan and the as-laid queue stay. -/
theorem exec_done_withTickets (h : Seen s src (stationRole cmd.station) i) (ha : Awaits s cmd echo k) {l : List Ticket}
    (hl : ∀ u, Informed s u → completeFor cmd k measured.toInt (freed cmd.station u) =
      (freed cmd.station u).setTrack ((freed cmd.station u).track.withTickets l)) :
    ∃ t, exec (doneRow cmd src echo brick measured) s = .next t ∧ Completed cmd s t ∧ t.track.tickets = l ∧
      t.plan = s.plan ∧ t.lay.asLaid = s.lay.asLaid := by
  obtain ⟨t, u, he, hu, hcomp, hplan, hlay, htickets⟩ := exec_done_completes (brick := brick) (measured := measured) h ha
    fun u hu => by rw [hl u hu]; exact (completed_freed hu).withTickets l
  rw [hl u hu] at hplan hlay htickets
  exact ⟨t, he, hcomp, htickets, hplan.trans hu.plan, (congrArg Lay.asLaid hlay).trans hu.asLaid⟩

/-- A DONE whose completion changes its own ticket alone. -/
theorem exec_done_moves (h : Seen s src (stationRole cmd.station) i) (ha : Awaits s cmd echo k) {f : Ticket → Ticket}
    (hf : ∀ u, Informed s u → completeFor cmd k measured.toInt (freed cmd.station u) = setTicket k.lay f (freed cmd.station u)) :
    ∃ t, exec (doneRow cmd src echo brick measured) s = .next t ∧ Completed cmd s t ∧
      t.track.tickets = s.track.tickets.map (fun x => if x.lay = k.lay then f x else x) ∧
      t.plan = s.plan ∧ t.lay.asLaid = s.lay.asLaid :=
  exec_done_withTickets h ha fun u hu => by rw [hf u hu, setTicket_eq, tickets_freed hu]

/-- Settles O22: of the four completions only that of GLUE looks at the state, at the present ms time. -/
theorem doneMovesTheTicketOn : Obligations.DoneMovesTheTicketOn := by
  intro s cmd src echo brick measured i k f hseen haw hcmd
  refine exec_done_moves hseen haw fun u hu => ?_
  rcases hcmd with ⟨rfl, rfl⟩ | ⟨rfl, rfl⟩ | ⟨rfl, rfl⟩ | ⟨rfl, rfl⟩
  · rfl
  · rw [← hu.clock]; rfl
  · rfl
  · rfl

/-! ### CUT (R33, R42) -/

/-- The tickets after the mark of a ticket that carries it not yet, with the purge that the mark brings. -/
def markedTickets (k : Ticket) (mark : Ticket → Ticket) (l : List Ticket) : List Ticket :=
  if k.strict = true ∧ k.committed = false then purgeAfter k.lay (l.map fun x => if x.lay = k.lay then mark x else x)
  else l.map fun x => if x.lay = k.lay then mark x else x

theorem purgeFor_update (x : Track) (k : Ticket) (mark : Ticket → Ticket) :
    (x.update k.lay mark).purgeFor k = x.withTickets (markedTickets k mark x.tickets) := by
  rw [update_eq, Track.purgeFor, markedTickets]
  simp only [Bool.and_eq_true, Bool.not_eq_true']
  split <;> rfl

theorem markReject_eq (x : Track) (k : Ticket) : x.markReject k =
    if k.reject = true then x else x.withTickets (markedTickets k (fun y => { y with reject := true }) x.tickets) := by
  rw [Track.markReject, purgeFor_update]

theorem markSpoilt_eq (x : Track) (k : Ticket) : x.markSpoilt k =
    if k.spoilt = true then x else x.withTickets (markedTickets k (fun y => { y with spoilt := true }) x.tickets) := by
  rw [Track.markSpoilt, purgeFor_update]

/-- The ticket as a CUT leaves it that measured `v`. -/
def measuredAs (v : Int) (x : Ticket) : Ticket := { x with pos := .saw, state := .atSaw, measured := some v }

/-- The tickets after CUT DONE: the one measured is rejected when it is out of tolerance. -/
def cutTickets (k : Ticket) (v : Int) (tol : Nat) (l : List Ticket) : List Ticket :=
  let m := l.map fun x => if x.lay = k.lay then measuredAs v x else x
  if tol < (v - k.length * 10).natAbs ∧ k.reject = false then markedTickets k (fun y => { y with reject := true }) m else m

theorem cutCompletes_eq (k : Ticket) (v : Int) (s : State) : cutCompletes k v s =
    s.setTrack (s.track.withTickets (cutTickets k v s.params.lengthTol s.track.tickets)) := by
  have ht : setTicket k.lay (fun x => { x with pos := .saw, state := .atSaw, measured := some v }) s =
    setTicket k.lay (measuredAs v) s := rfl
  rw [cutCompletes, ht, setTicket_eq, cutTickets]
  rw [markReject_eq]
  by_cases hoff : s.params.lengthTol < (v - k.length * 10).natAbs <;> cases hr : k.reject <;>
    simp [lengthOff, hoff, Track.withTickets]

/-- Settles O24: the ticket is measured, and out of tolerance it takes its mark unless it has it. -/
theorem cutDoneMeasuresAndRejects : Obligations.CutDoneMeasuresAndRejects := by
  rintro s src echo brick measured i k m hseen haw rfl
  obtain ⟨t, he, hcomp, htickets, hplan, hlaid⟩ := exec_done_withTickets (cmd := .cut) (brick := brick) (measured := measured)
    (l := cutTickets k measured.toInt s.params.lengthTol s.track.tickets) hseen haw fun u hu => by
      rw [completeFor, cutCompletes_eq, tickets_freed hu, ← hu.params]; rfl
  refine ⟨t, he, hcomp, hplan, hlaid, fun hin => ?_, fun hoff hr => ?_⟩
  · rw [htickets, cutTickets, if_neg fun ⟨hoff, hr⟩ => hin.elim (fun h => absurd hoff (Nat.not_lt.2 h)) fun h => by simp [h] at hr]
    rfl
  · rw [htickets, cutTickets, if_pos ⟨hoff, hr⟩]
    rfl

end Sys2Proof.Machine
end

section
/-! SUPPORT. What a read of table memory and an evaluation of terms can do to the mode and the lay controller: nothing, or the
entry to HOLD (R62, R185); and a DONE report that is taken after it (log entry 16). -/

namespace Sys2Proof.Machine

variable {s t u : State} {cmd : Cmd} {src echo : Byte} {brick : Bool} {measured : Word} {i : Nat} {k : Ticket}

/-- What the entry to a hold does to the lay controller (R62). -/
def Lay.inHold (l : Lay) : Lay := { l with timer := none, heldRelease := l.heldRelease || l.phase == .release }

/-- The mode and the lay controller stay, or HOLD has been entered out of no hold. -/
inductive MayHold (s t : State) : Prop
  | stays (mode : t.ctl.mode = s.ctl.mode) (lay : t.lay = s.lay)
  | holds (free : s.ctl.mode.held = false) (mode : t.ctl.mode = .hold) (lay : t.lay = s.lay.inHold)

theorem MayHold.rfl' (s : State) : MayHold s s := .stays rfl rfl

theorem MayHold.trans (h : MayHold s t) (h' : MayHold t u) : MayHold s u := by
  cases h with
  | stays m l =>
    cases h' with
    | stays m' l' => exact .stays (m'.trans m) (l'.trans l)
    | holds f m' l' => exact .holds (m ▸ f) m' (l ▸ l')
  | holds f m l =>
    cases h' with
    | stays m' l' => exact .holds f (m'.trans m) (l'.trans l)
    | holds f' _ _ => rw [m] at f'; cases f'

theorem mode_latchCtl (c : Ctl) (k : FaultKind) (d w : Word) : (c.latch k d w).mode = c.mode := by
  unfold Ctl.latch; split <;> rfl

theorem mayHold_latch (k : FaultKind) (d : Nat) (s : State) : MayHold s (latch k d s) := .stays (mode_latchCtl _ _ _ _) rfl

theorem ctl_lay_refreshTx (s : State) : (refreshTx s).ctl = s.ctl ∧ (refreshTx s).lay = s.lay := by
  have hdue : ∀ (d : Word) (x : State), (frameDue d x).ctl = x.ctl ∧ (frameDue d x).lay = x.lay := fun d x => by
    unfold frameDue; split <;> exact ⟨rfl, rfl⟩
  unfold refreshTx
  split
  · split
    · exact ⟨rfl, rfl⟩
    · exact hdue _ _
  · exact ⟨rfl, rfl⟩

theorem mayHold_enterHold (h : s.ctl.mode.held = false) : MayHold s (enterHold s) := by
  obtain ⟨hctl, hlay⟩ := ctl_lay_refreshTx (((endRecovery (s.setCtl { s.ctl with
    ret := some (if s.ctl.recovery then .guard else s.ctl.mode) })).setLay s.lay.inHold).setCtl
      { (endRecovery (s.setCtl { s.ctl with ret := some (if s.ctl.recovery then .guard else s.ctl.mode) })).ctl with
        mode := .hold, holdN := Mode.hold.held })
  exact .holds h (congrArg Ctl.mode hctl) hlay

theorem mayHold_takeCauses (s : State) : MayHold s (takeCauses s) := .stays rfl rfl

theorem mayHold_report (s : State) : MayHold s (report s) := by
  unfold report
  dsimp only
  split
  · rename_i h
    exact (mayHold_takeCauses s).trans (mayHold_enterHold (by simpa using (Bool.and_eq_true_iff.1 h).1))
  · exact mayHold_takeCauses s

theorem MayHold.reported (h : MayHold s t) : MayHold s (report t) := h.trans (mayHold_report t)

/-! ### Reads and terms -/

theorem mayHold_setGuard (s : State) (v : Guard) : MayHold s (s.setGuard v) := .stays rfl rfl
theorem mayHold_setMgmt (s : State) (v : Mgmt) : MayHold s (s.setMgmt v) := .stays rfl rfl
theorem mayHold_setMem (s : State) (v : TableMem) : MayHold s (s.setMem v) := .stays rfl rfl
theorem mayHold_setTerms (s : State) (v : Terms) : MayHold s (s.setTerms v) := .stays rfl rfl

theorem MayHold.latched (h : MayHold s t) (k : FaultKind) (d : Nat) : MayHold s (latch k d t) := h.trans (mayHold_latch k d t)

theorem mayHold_uncorrectablePart (n : Nat) (s : State) : MayHold s (uncorrectablePart n s).2 := by
  have hmark : MayHold s (markUnreadable n s) := mayHold_setMgmt _ _
  unfold uncorrectablePart
  split
  · exact ((mayHold_setGuard _ _).latched _ _).reported
  · exact (mayHold_setMem _ _).latched _ _
  · split
    · exact .rfl' s
    · exact mayHold_setMem _ _
  · exact hmark.latched _ _
  · exact hmark.latched _ _
  · exact ((hmark.latched _ _).trans (mayHold_setTerms _ _)).reported
  · exact hmark.latched _ _

theorem mayHold_writeBack (w : Nat) (f : WordFinding) (s : State) : MayHold s (writeBack w f s) := by
  unfold writeBack
  split
  · exact mayHold_setMem _ _
  · exact .rfl' s

theorem mayHold_readPart (n : Nat) (s : State) : MayHold s (readPart n s).2 := by
  have hcount : ∀ a b, MayHold s (countWords a b s) := fun _ _ => mayHold_setMgmt _ _
  have hback : ∀ a b w f v g, MayHold s (writeBack v g (writeBack w f (countWords a b s))) := fun a b w f v g =>
    ((hcount a b).trans (mayHold_writeBack w f _)).trans (mayHold_writeBack v g _)
  unfold readPart
  dsimp only
  split
  · exact (hcount _ _).trans (mayHold_uncorrectablePart _ _)
  · split
    · exact hback _ _ _ _ _ _
    · exact (hback _ _ _ _ _ _).trans (mayHold_uncorrectablePart _ _)

theorem mayHold_noteTerm (i : Nat) (s : State) : MayHold s (noteTerm i s) := by
  unfold noteTerm
  dsimp only
  split
  · exact (mayHold_latch _ _ _).reported
  · exact mayHold_report s

theorem mayHold_evalTerm (i : Nat) (s : State) : MayHold s (evalTerm i s) := by
  have hread := mayHold_readPart (termPart i) s
  unfold evalTerm
  split <;> rename_i heq <;> rw [heq] at hread
  · exact hread.trans (mayHold_noteTerm _ _)
  · exact (hread.trans (mayHold_setTerms _ _)).trans (mayHold_noteTerm _ _)

theorem mayHold_evalTerms (l : List Nat) (s : State) : MayHold s (evalTerms l s) := by
  unfold evalTerms
  induction l generalizing s with
  | nil => exact .rfl' s
  | cons i l ih => exact (mayHold_evalTerm i s).trans (ih _)

/-! ### A DONE report after the terms -/

/-- A DONE that is awaited: its command completes on a state in which the capture's terms have been evaluated. -/
theorem exec_done_afterTerms (h : Seen s src (stationRole cmd.station) i) (ha : Awaits s cmd echo k) :
    ∃ f u, exec (doneRow cmd src echo brick measured) s = .next (enqueue .up (doneCell src echo brick measured)
        (compareSensor cmd.station f (completeFor cmd k measured.toInt (freed cmd.station u)))) ∧
      Informed s u ∧ MayHold s u := by
  obtain ⟨e, he, hrole⟩ := h.entry
  obtain ⟨fl, hfl, rfl, hnum, hfind⟩ := ha.flight
  have hcap : ∀ c : Cell, c.src = src → captureCell c (arrived .down s) =
      capture i (stationRole fl.cmd.station) c (arrived .down s) := fun c hc => by
    have he' : entryOfAddr c.src (arrived .down s) = some (i, e) := hc ▸ he
    have hr : axisUnreadable (arrived .down s) i = false := h.readable
    rw [captureCell, he', ← hrole]
    simp only [hr, Bool.false_eq_true, if_false]
  obtain ⟨f, hr, hf⟩ : ∃ f, ReportsDone f echo measured ∧
      f = feedbackOfCell (doneCell src echo brick measured) (arrived .down s).ring.lastCycle :=
    ⟨_, reportsDone_doneCell _ _ _ _ _, rfl⟩
  have hu := informed_evalTerms (termsOnEntry i (storeFeedback i f (arrived .down s))) i f s
  have hstore : MayHold s (storeFeedback i f (arrived .down s)) := .stays rfl rfl
  have hm := hstore.trans (mayHold_evalTerms (termsOnEntry i (storeFeedback i f (arrived .down s))) _)
  have hcapture := (hcap (doneCell src echo brick measured) rfl).trans
    (capture_station (station_stationRole fl.cmd.station) i (doneCell src echo brick measured) (arrived .down s))
  rw [← hf] at hcapture
  generalize evalTerms _ _ = u at hu hm hcapture
  refine ⟨f, u, ?_, hu, hm⟩
  have hk : (freed fl.cmd.station u).track.find fl.ticket = some k := by
    rw [Track.find, tickets_freed hu]
    exact hfind
  have hgood : isGood (doneCell src echo brick measured) = true := isGood_goodCell _ _ _ _ _
  have hkind : (doneCell src echo brick measured).kind = kindFbk := rfl
  rw [exec_doneRow, receive_good _ _ _ h.synced hgood, passGood, passDown, if_pos hkind, hcapture,
    stationReport, reportCommand_done hr (hu.track ▸ hfl) hnum (hu.track ▸ ha.stall), complete, ← freed, hk]

theorem mode_compareSensor (st : Station) (f : Feedback) (s : State) : (compareSensor st f s).ctl.mode = s.ctl.mode := by
  rcases compareSensor_cases st f s with he | ⟨-, he⟩ <;> rw [he]
  exact mode_latchCtl _ _ _ _

/-- A DONE that is awaited, as `exec_done_completes` has it, with the mode that it leaves and what the terms may have done. -/
theorem exec_done_afterHold (h : Seen s src (stationRole cmd.station) i) (ha : Awaits s cmd echo k)
    (hv : ∀ u, Informed s u → Completed cmd s (completeFor cmd k measured.toInt (freed cmd.station u))) :
    ∃ t u v, exec (doneRow cmd src echo brick measured) s = .next t ∧ Informed s u ∧ MayHold s u ∧ Completed cmd s t ∧
      v = completeFor cmd k measured.toInt (freed cmd.station u) ∧ t.ctl.mode = v.ctl.mode ∧ t.plan = v.plan ∧
      t.lay = v.lay ∧ t.track.tickets = v.track.tickets := by
  obtain ⟨f, u, he, hu, hm⟩ := exec_done_afterTerms (brick := brick) (measured := measured) h ha
  obtain ⟨v, hveq⟩ : ∃ v, v = completeFor cmd k measured.toInt (freed cmd.station u) := ⟨_, rfl⟩
  rw [← hveq] at he
  obtain ⟨r, hr⟩ := enqueue_eq .up (doneCell src echo brick measured) (compareSensor cmd.station f v)
  obtain ⟨hplan, hlay, htickets⟩ := compareSensor_frame cmd.station f v
  rw [hr] at he
  exact ⟨_, u, v, he, hu, hm, ((hveq ▸ hv u hu).compared f).setRing r, hveq, mode_compareSensor _ _ _, hplan, hlay, htickets⟩

/-! ### OPEN (R39, R59, R65) -/

theorem completed_of_steady {v : State} (h : Completed cmd s t) (hs : steady v = steady t)
    (hst : ∀ st, v.track.station st = t.track.station st) (hc : v.track.counter = t.track.counter) : Completed cmd s v := by
  obtain ⟨hclock, hpins, -, -, hstab, hparams, hpending⟩ := (steady_eq _ _).1 hs
  exact { ended := by rw [hst]; exact h.ended
          number := by rw [hst]; exact h.number
          stall := by rw [hst]; exact h.stall
          others := fun st hne => by rw [hst]; exact h.others st hne
          counter := hc.trans h.counter, clock := hclock.trans h.clock, pins := hpins.trans h.pins
          stab := hstab.trans h.stab, params := hparams.trans h.params, pending := hpending.trans h.pending }

theorem station_remove (x : Track) (n : Nat) (st : Station) : (x.remove n).station st = x.station st := by cases st <;> rfl

/-- OPEN DONE: the track loses the ticket, the lay controller ends the release. -/
theorem openCompletes_frame (k : Ticket) (s : State) : (openCompletes k s).track = s.track.remove k.lay ∧
    (openCompletes k s).lay = s.lay.endRelease k false ∧ (openCompletes k s).ctl = s.ctl := by
  have h := planLaid_frame k.lay ((s.setLay (s.lay.endRelease k false)).setTrack (s.track.remove k.lay))
  refine ⟨h.1, h.2, ?_⟩
  unfold openCompletes planLaid
  split <;> rfl

/-- OPEN DONE: the bound record, if there is one, leaves the plan store, and its course's count falls. -/
theorem plan_openCompletes (k : Ticket) (s : State) :
    (boundOf k.lay s = none → (openCompletes k s).plan = s.plan) ∧
    (∀ b, boundOf k.lay s = some b → (openCompletes k s).plan =
      { s.plan with
        bound := s.plan.bound.filter (fun x => x.lay != k.lay)
        refs := s.plan.refs.setIfInBounds b.course (refCount s b.course - 1) }) := by
  have hb : ∀ o, boundOf k.lay s = o →
      boundOf k.lay ((s.setLay (s.lay.endRelease k false)).setTrack (s.track.remove k.lay)) = o := fun _ h => h
  refine ⟨fun h => ?_, fun b h => ?_⟩
  · rw [openCompletes, planLaid, hb _ h]; rfl
  · rw [openCompletes, planLaid, hb _ h]; rfl

/-- A hold that the capture brings finds the release in flight: the record of the release says so (R62, R65). -/
theorem asLaidRecord_afterHold {c : Capture} (h : MayHold s u) (hc : s.lay.capture = some c) (k : Ticket) :
    asLaidRecord k false u.lay =
      { lay := k.lay, course := k.course, ticket := k.num, x := sat16 c.x, y := sat16 c.y, z := sat16 c.z, w := c.w,
        settle := s.lay.settle, quality := c.quality, slowSettle := k.slow, lateAdhesive := k.spoilt,
        heldRelease := s.lay.heldRelease || (!s.ctl.mode.held && u.ctl.mode.held && s.lay.phase == .release),
        unconfirmed := false, reissued := decide (0 < k.reissue) } := by
  cases h with
  | stays m l => rw [m, l, asLaidRecord, hc]; cases s.ctl.mode.held <;> simp
  | holds f m l => rw [m, l, f, asLaidRecord, Lay.inHold, hc]; simp [Mode.held]

theorem MayHold.lay_keeps (h : MayHold s u) : u.lay.target = s.lay.target ∧ u.lay.phase = s.lay.phase := by
  cases h with
  | stays _ l => rw [l]; exact ⟨rfl, rfl⟩
  | holds _ _ l => rw [l]; exact ⟨rfl, rfl⟩

/-- Settles O26: the release ends on the lay controller as the terms of the capture leave it. -/
theorem openDoneLaysTheBlock : Obligations.OpenDoneLaysTheBlock := by
  intro s src echo brick measured i k c hseen haw hc
  have hcomplete : ∀ u, Informed s u → Completed .openJaws s (openCompletes k (freed .gripper u)) := fun u hu => by
    obtain ⟨htrack, -, -⟩ := openCompletes_frame k (freed .gripper u)
    exact completed_of_steady (completed_freed (cmd := .openJaws) hu) (steady_completeFor .openJaws k 0 _)
      (fun st => by rw [htrack, station_remove]; rfl) (by rw [htrack]; rfl)
  obtain ⟨t, u, v, he, hu, hm, hcomp, rfl, hmode, hplan, hlay, htickets⟩ :=
    exec_done_afterHold (cmd := .openJaws) (brick := brick) (measured := measured) hseen haw hcomplete
  rw [completeFor] at hmode hplan hlay htickets
  obtain ⟨htrack, hend, hctl⟩ := openCompletes_frame k (freed Cmd.openJaws.station u)
  rw [hctl] at hmode
  rw [hend] at hlay
  rw [htrack] at htickets
  have hbound : boundOf k.lay (freed Cmd.openJaws.station u) = boundOf k.lay s := by
    rw [boundOf, boundOf, ← hu.plan]; rfl
  have hrefs : ∀ c, refCount (freed Cmd.openJaws.station u) c = refCount s c := fun c => by
    rw [refCount, refCount, ← hu.plan]; rfl
  have hplan' : (freed Cmd.openJaws.station u).plan = s.plan := hu.plan
  have hmode' : t.ctl.mode = u.ctl.mode := hmode
  obtain ⟨hnone, hsome⟩ := plan_openCompletes k (freed Cmd.openJaws.station u)
  rw [hbound, hplan'] at hnone hsome
  refine ⟨t, he, hcomp, ?_, by rw [hlay]; rfl, by rw [hlay]; rfl, by rw [hlay]; rfl, ?_, ?_, fun hb => ?_, fun b hb => ?_⟩
  · rw [htickets, Track.remove, tickets_freed hu]
  · rw [hlay]; exact hm.lay_keeps.1
  · have hrec := asLaidRecord_afterHold hm hc k
    rw [hlay, hmode']
    exact congrArg₂ (· ++ [·]) hu.asLaid hrec
  · rw [hplan, hnone hb]
  · rw [hplan, hsome b hb, hrefs]

end Sys2Proof.Machine
end

section
/-! SUPPORT. The beginning of a placement (R48, R52) and its phases at each TRAIN arrival (R50, R53 to R55, R60): the offset step and
the verdict on reach and convergence, case by case. -/

namespace Sys2Proof.Machine

variable {s t u : State} {k : Ticket}

/-! ### HANDOVER (R37, R48, R52) -/

theorem approachIfHeld_of (hp : s.lay.phase = .idle) (hm : s.ctl.mode = .lay) (hh : ∃ k ∈ s.track.tickets, k.state = .held) :
    approachIfHeld s = s.setLay (s.lay.enterApproach s.params.hover) := by
  have hs : (heldTicket s).isSome = true := by
    obtain ⟨k, hk, hst⟩ := hh
    exact List.find?_isSome.2 ⟨k, hk, beq_iff_eq.2 hst⟩
  simp only [approachIfHeld, hp, hm, hs, beq_self_eq_true, Bool.and_self, if_true]

theorem approachIfHeld_not (h : s.lay.phase ≠ .idle ∨ s.ctl.mode ≠ .lay ∨ ∀ k ∈ s.track.tickets, k.state ≠ .held) :
    approachIfHeld s = s := by
  refine if_neg fun hc => ?_
  simp only [Bool.and_eq_true, beq_iff_eq, heldTicket, List.find?_isSome] at hc
  obtain ⟨⟨hp, hm⟩, k, hk, hst⟩ := hc
  rcases h with h | h | h
  · exact h hp
  · exact h hm
  · exact h k hk hst

theorem approachIfHeld_frame (s : State) : (approachIfHeld s).track = s.track ∧ (approachIfHeld s).ctl = s.ctl ∧
    (approachIfHeld s).lay.target = s.lay.target := by
  unfold approachIfHeld; split <;> exact ⟨rfl, rfl, rfl⟩

/-- The ticket of a HANDOVER as its DONE leaves it. -/
def heldAtGripper (x : Ticket) : Ticket := { x with pos := .gripper, state := .held }

/-- The part as a HANDOVER DONE leaves it, before the placement begins. -/
def handedOver (k : Ticket) (s : State) : State :=
  (setTicket k.lay heldAtGripper s).setLay { s.lay with target := (boundOf k.lay s).map (·.target) }

theorem completeFor_handover (k : Ticket) (v : Int) (s : State) :
    completeFor .handover k v s = approachIfHeld (handedOver k s) := rfl

theorem exists_held_handedOver (h : k ∈ s.track.tickets) : ∃ x ∈ (handedOver k s).track.tickets, x.state = .held := by
  refine ⟨heldAtGripper k, List.mem_map.2 ⟨k, h, ?_⟩, rfl⟩
  rw [if_pos (beq_self_eq_true _)]

/-- HANDOVER DONE: the ticket is HELD at the gripper, its target is copied, and in LAY the placement begins from IDLE. -/
theorem handoverDone_begins {src echo : Byte} {brick : Bool} {measured : Word} {i : Nat} (hseen : Seen s src .flipper i)
    (haw : Awaits s .handover echo k) :
    ∃ t, exec (.handoverDone src echo brick measured) s = .next t ∧ Completed .handover s t ∧
      t.track.tickets = s.track.tickets.map (fun x => if x.lay = k.lay then heldAtGripper x else x) ∧
      t.plan = s.plan ∧ t.lay.asLaid = s.lay.asLaid ∧ t.lay.target = (boundOf k.lay s).map (·.target) ∧
      (s.lay.phase = .idle → t.ctl.mode = .lay → ∃ l : Lay, t.lay = l.enterApproach s.params.hover) ∧
      (s.lay.phase = .idle → t.ctl.mode ≠ .lay → t.lay.phase = .idle) := by
  have hcomplete : ∀ u, Informed s u → Completed .handover s (completeFor .handover k measured.toInt (freed .flipper u)) :=
    fun u hu => by
      have htrack := (approachIfHeld_frame (handedOver k (freed .flipper u))).1
      exact completed_of_steady (completed_freed (cmd := .handover) hu) (steady_completeFor .handover k _ _)
        (fun st => by rw [completeFor_handover, htrack]; exact station_withTickets _ _ st)
        (by rw [completeFor_handover, htrack]; rfl)
  obtain ⟨t, u, v, he, hu, hm, hcomp, rfl, hmode, hplan, hlay, htickets⟩ :=
    exec_done_afterHold (cmd := .handover) (brick := brick) (measured := measured) hseen haw hcomplete
  obtain ⟨fl, -, -, -, hfind⟩ := haw.flight
  rw [completeFor_handover] at hmode hplan hlay htickets
  generalize hw : handedOver k (freed Cmd.handover.station u) = w at hmode hplan hlay htickets
  obtain ⟨htrack, hctl, htarget⟩ := approachIfHeld_frame w
  have hwplan : w.plan = s.plan := by rw [← hw]; exact hu.plan
  have hwparams : w.params = s.params := by rw [← hw]; exact hu.params
  have hwlaid : w.lay.asLaid = s.lay.asLaid := by rw [← hw]; exact hu.asLaid
  have hwphase : w.lay.phase = s.lay.phase := by rw [← hw]; exact hm.lay_keeps.2
  have hwtickets : w.track.tickets = s.track.tickets.map (fun x => if x.lay = k.lay then heldAtGripper x else x) := by
    rw [← hw, handedOver, setTicket_eq, tickets_freed hu]; rfl
  have hwheld : ∃ x ∈ w.track.tickets, x.state = .held := by
    rw [← hw]; exact exists_held_handedOver (by rw [tickets_freed hu]; exact (find_some hfind).1)
  have hwtarget : w.lay.target = (boundOf k.lay s).map (·.target) := by
    rw [← hw, boundOf, ← hu.plan]; rfl
  rw [hctl] at hmode
  refine ⟨t, he, hcomp, ?_, ?_, ?_, ?_, fun hp hl => ⟨w.lay, ?_⟩, fun hp hl => ?_⟩
  · rw [htickets, htrack, hwtickets]
  · rw [hplan, plan_of_quiet (quiet_approachIfHeld w), hwplan]
  · rw [hlay, ((mail_eq _ _).1 (mail_approachIfHeld w)).2.2.2, hwlaid]
  · rw [hlay, htarget, hwtarget]
  · rw [hlay, approachIfHeld_of (hwphase.trans hp) (hmode ▸ hl) hwheld, hwparams]; rfl
  · rw [hlay, approachIfHeld_not (.inr (.inl (hmode ▸ hl))), hwphase, hp]

/-! ### The offset step (R50, R53, R55, R60) -/

/-- Progress is allowed in no hold with the tracker VALID (R50). -/
theorem progressAllowed_iff (s : State) : progressAllowed s = true ↔ s.ctl.mode.held = false ∧ s.line.state = .valid := by
  simp [progressAllowed]

theorem countSettle_not {l : Lay} (h : l.phase ≠ .settle) : l.countSettle = l := by
  unfold Lay.countSettle
  split
  · exact absurd ‹_› h
  · rfl

theorem countSettle_settle {l : Lay} (h : l.phase = .settle) : l.countSettle = { l with settle := bump l.settle } := by
  simp only [Lay.countSettle, h]

theorem offsetStep_settle (h : s.lay.phase = .settle) : offsetStep s = s.setLay { s.lay with settle := bump s.lay.settle } := by
  unfold offsetStep
  simp only [countSettle_settle h, h, ite_self]

theorem offsetStep_descend (hg : progressAllowed s = true) (h : s.lay.phase = .descend) : offsetStep s =
    s.setLay (s.lay.descend s.params.descendStep (s.clock.ms + BitVec.ofNat 32 s.params.settleTime)) := by
  unfold offsetStep
  simp only [countSettle_not (show s.lay.phase ≠ .settle by rw [h]; decide), hg, if_true, h]

theorem offsetStep_lift (hg : progressAllowed s = true) (h : s.lay.phase = .lift) :
    offsetStep s = s.setLay (s.lay.lift s.params.liftStep s.params.hover) := by
  unfold offsetStep
  simp only [countSettle_not (show s.lay.phase ≠ .settle by rw [h]; decide), hg, if_true, h]

theorem offsetStep_stays (hs : s.lay.phase ≠ .settle)
    (h : ¬ progressAllowed s = true ∨ s.lay.phase ≠ .descend ∧ s.lay.phase ≠ .lift) : offsetStep s = s := by
  unfold offsetStep
  simp only [countSettle_not hs]
  split
  · rename_i hg
    obtain ⟨hd, hl⟩ := h.resolve_left (not_not.2 hg)
    split <;> [exact absurd ‹_› hd; exact absurd ‹_› hl; rfl]
  · rfl

/-! ### The verdict (R52, R54) -/

theorem within_iff (v : Option Int) (tol : Nat) : within v tol = true ↔ ∃ e, v = some e ∧ e.natAbs ≤ tol := by
  cases v <;> simp [within]

/-- R52: every axis has an error, and it is within its tolerance of the command. -/
theorem converged_iff (s : State) : converged s = true ↔ ∃ x y z w, s.stab.e = ⟨some x, some y, some z, some w⟩ ∧
    (x - s.stab.c.x).natAbs ≤ s.params.tolX ∧ (y - s.stab.c.y).natAbs ≤ s.params.tolY ∧
    (z - s.stab.c.z).natAbs ≤ s.params.tolZ ∧ (w - s.stab.c.w).natAbs ≤ s.params.tolW := by
  simp only [converged, Bool.and_eq_true, within_iff, Option.map_eq_some_iff]
  constructor
  · rintro ⟨⟨⟨⟨_, ⟨x, hx, rfl⟩, bx⟩, _, ⟨y, hy, rfl⟩, byy⟩, _, ⟨z, hz, rfl⟩, bz⟩, _, ⟨w, hw, rfl⟩, bw⟩
    exact ⟨x, y, z, w, by rw [← hx, ← hy, ← hz, ← hw], bx, byy, bz, bw⟩
  · rintro ⟨x, y, z, w, he, bx, byy, bz, bw⟩
    rw [he]
    exact ⟨⟨⟨⟨_, ⟨x, rfl, rfl⟩, bx⟩, _, ⟨y, rfl, rfl⟩, byy⟩, _, ⟨z, rfl, rfl⟩, bz⟩, _, ⟨w, rfl, rfl⟩, bw⟩

theorem layVerdict_approach (hg : progressAllowed s = true) (h : s.lay.phase = .approach) : layVerdict s =
    if s.ctl.mode = .lay ∧ s.stab.reach = some true ∧ converged s = true then s.setLay { s.lay with phase := .descend }
    else s := by
  simp only [layVerdict, hg, if_true, h, Bool.and_eq_true, beq_iff_eq, and_assoc]

theorem layVerdict_bed (hg : progressAllowed s = true) (h : s.lay.phase = .descend ∨ s.lay.phase = .settle) : layVerdict s =
    if s.stab.reach = some true then s else s.setLay (s.lay.toApproach s.params.hover) := by
  rcases h with h | h <;> simp only [layVerdict, hg, if_true, h, beq_iff_eq]

theorem layVerdict_stays (h : ¬ progressAllowed s = true ∨ s.lay.phase = .idle ∨ s.lay.phase = .release ∨ s.lay.phase = .lift) :
    layVerdict s = s := by
  rcases h with h | h | h | h
  · exact if_neg h
  all_goals simp only [layVerdict, h, ite_self]

/-- Settles O23: the DONE, then each phase's step and verdict. -/
theorem handoverDoneBeginsThePlacement : Obligations.HandoverDoneBeginsThePlacement := by
  refine ⟨fun s src echo brick measured i k hseen haw => ?_, fun s l p go near hl hp hgo hnear => ?_⟩
  · obtain ⟨t, he, hcomp, htickets, hplan, hlaid, htarget, hin, hout⟩ :=
      handoverDone_begins (brick := brick) (measured := measured) hseen haw
    refine ⟨t, he, hcomp, htickets, hplan, hlaid, htarget, fun hp hl => ?_, hout⟩
    obtain ⟨l, e⟩ := hin hp hl
    rw [e]
    exact ⟨rfl, rfl, rfl, rfl, rfl, rfl, rfl⟩
  · subst hl hp
    rw [← progressAllowed_iff] at hgo
    rw [← converged_iff] at hnear
    rw [hgo, hnear]
    refine ⟨approachIfHeld_of, approachIfHeld_not, offsetStep_settle, fun hg hd hlt => ?_, fun hg hd hle => ?_,
      fun hg hu hlt => ?_, fun hg hu hle => ?_, offsetStep_stays, fun hg ha hm hr hn => ?_, fun hg hb hr => ?_, ?_⟩
    · rw [offsetStep_descend hg hd, Lay.descend, if_neg (Nat.not_le.2 hlt)]
    · rw [offsetStep_descend hg hd, Lay.descend, if_pos hle]; rfl
    · rw [offsetStep_lift hg hu, Lay.lift, if_neg (Nat.not_le.2 hlt)]
    · rw [offsetStep_lift hg hu, Lay.lift, if_pos hle]; rfl
    · rw [layVerdict_approach hg ha, if_pos ⟨hm, hr, hn⟩]
    · rw [layVerdict_bed hg hb, if_neg hr]; rfl
    · by_cases hg : progressAllowed s = true
      · rintro (h | ⟨ha, hn⟩ | ⟨hb, hr⟩ | h)
        · exact absurd hg h
        · rw [layVerdict_approach hg ha, if_neg hn]
        · rw [layVerdict_bed hg hb, if_pos hr]
        · exact layVerdict_stays (.inr h)
      · exact fun _ => layVerdict_stays (.inl hg)

end Sys2Proof.Machine
end

section
/-! SUPPORT. The open time of a ticket and the settle timer (R38, R40, R55), each at its expiry and before it. -/

namespace Sys2Proof.Machine

variable {s : State} {k : Ticket} {num : Half}

/-! ### The open time (R38, R40, R42) -/

/-- The track with a ticket SPOILT that is not yet, and with the purge that this brings. -/
def spoiledTrack (k : Ticket) (x : Track) : Track :=
  x.withTickets (markedTickets k (fun y => { y with spoilt := true }) x.tickets)

theorem openIsDue_iff (s : State) (k : Ticket) : openIsDue s k = true ↔
    k.spoilt = false ∧ ∃ g, k.glueTime = some g ∧ s.params.openTime ≤ (s.clock.ms - g).toNat := by
  unfold openIsDue elapsed
  cases k.glueTime <;> simp

theorem reachOpenTime_due (hf : s.track.find k.lay = some k) (h : openIsDue s k = true) :
    reachOpenTime k.lay s = s.setTrack (spoiledTrack k s.track) := by
  have hs : k.spoilt ≠ true := by rw [((openIsDue_iff s k).1 h).1]; decide
  simp only [reachOpenTime, hf, h, if_true, markSpoilt_eq, if_neg hs, spoiledTrack]

theorem reachOpenTime_notDue {n : Nat} (h : ∀ k, s.track.find n = some k → openIsDue s k = false) : reachOpenTime n s = s := by
  unfold reachOpenTime
  split
  · rename_i k hf
    rw [h k hf]; rfl
  · rfl

theorem reachOpenTimesOf_notDue {l : List Ticket} (h : ∀ x ∈ l, ∀ k, s.track.find x.lay = some k → openIsDue s k = false) :
    reachOpenTimesOf l s = s := by
  unfold reachOpenTimesOf
  induction l with
  | nil => rfl
  | cons x l ih =>
    rw [List.map_cons, List.foldl_cons, reachOpenTime_notDue (h x List.mem_cons_self)]
    exact ih fun y hy => h y (List.mem_cons_of_mem _ hy)

/-- With the lay numbers apart, the ticket found of a lay number is the ticket that carries it. -/
theorem find_of_mem (hp : s.track.tickets.Pairwise (fun a b => a.lay ≠ b.lay)) {x : Ticket} (hx : x ∈ s.track.tickets)
    (hf : s.track.find x.lay = some k) : k = x := by
  obtain ⟨hk, hl⟩ := find_some hf
  exact List.inj_on_of_nodup_map (List.pairwise_map.2 hp) hk hx hl

theorem mem_numbered {l : List Ticket} {x : Ticket} : x ∈ l.filter (fun k => k.num == num) ↔ x ∈ l ∧ x.num = num := by
  rw [List.mem_filter, beq_iff_eq]

theorem exec_openTimeExpiry (num : Half) (s : State) : exec (.openTimeExpiry num) s =
    .next (reachOpenTimesOf (s.track.tickets.filter fun k => k.num == num) s) := rfl

/-! ### The marking at the flipper (R38) -/

theorem spoilAtFlipper_free (h : standsFree s .flipper) : spoilAtFlipper s = s := by
  rw [spoilAtFlipper, (first_none s .flipper).2 h]

theorem remainingOpen_iff (s : State) (k : Ticket) (r : Nat) : remainingOpen s.params.openTime s.clock.ms k = some r ↔
    ∃ g, k.glueTime = some g ∧ s.params.openTime - (s.clock.ms - g).toNat = r := by
  simp only [remainingOpen, elapsed, Option.map_eq_some_iff]

theorem spoilAtFlipper_late {r : Nat} (h : standsFirst s .flipper k) (hs : k.state = .atFlipper) (hn : k.spoilt = false)
    (hr : remainingOpen s.params.openTime s.clock.ms k = some r) (hlt : r < s.params.reserve) :
    spoilAtFlipper s = s.setTrack (spoiledTrack k s.track) := by
  have hn' : ¬ k.spoilt = true := by rw [hn]; decide
  simp only [spoilAtFlipper, (first_some s .flipper k).2 h, hs, hr, hlt, decide_true, if_true, markSpoilt_eq, if_neg hn',
    spoiledTrack]

theorem spoilAtFlipper_stays (h : standsFirst s .flipper k)
    (hk : k.state = .atFlipper → k.spoilt = false → ∀ r, remainingOpen s.params.openTime s.clock.ms k = some r →
      s.params.reserve ≤ r) : spoilAtFlipper s = s := by
  unfold spoilAtFlipper
  rw [(first_some s .flipper k).2 h]
  dsimp only
  split
  · rename_i r hs hr
    split
    · rename_i hlt
      cases hn : k.spoilt with
      | true => rw [markSpoilt_eq, if_pos hn, State.setTrack_self]
      | false => exact absurd (of_decide_eq_true hlt) (Nat.not_lt.2 (hk hs hn r hr))
    · rfl
  · rfl

/-! ### The settle timer (R55) -/

theorem settleIsDue_iff (s : State) : settleIsDue s = true ↔
    ∃ w, s.lay.timer = some w ∧ s.lay.phase = .settle ∧ (s.clock.ms - w).toNat < 2147483648 := by
  unfold settleIsDue reached
  cases s.lay.timer <;> simp

theorem reachSettle_due {x : Ticket} (h : settleIsDue s = true) (hx : heldTicket s = some x) : reachSettle s =
    ((s.setLay { s.lay with timer := none }).setTrack
      (s.track.withTickets (s.track.tickets.map fun y => if y.lay = x.lay then { y with slow := true } else y))).setCtl
      (s.ctl.latch .placeTimeout (BitVec.ofNat 32 x.lay) s.clock.ms) := by
  have hx' : heldTicket (s.setLay { s.lay with timer := none }) = some x := hx
  rw [reachSettle, if_pos h]
  simp only [hx', update_eq]
  rfl

/-- Settles O28: at its expiry each timer marks its ticket, before it nothing. -/
theorem placementTimersMarkTheTicket : Obligations.PlacementTimersMarkTheTicket := by
  intro s num k spoils hspoils
  have hspoils' : spoils = s.setTrack (spoiledTrack k s.track) := hspoils
  subst hspoils'
  refine ⟨fun hnone => ?_, fun g hfilter hfind hg hs hdue => ?_, fun hp hnot => ?_, fun g hfirst hst hg hs hlt => ?_, ?_,
    fun w x hw hphase hreached hx => ?_, fun hnot => ?_⟩
  · rw [exec_openTimeExpiry, reachOpenTimesOf_notDue]
    exact fun x hx => absurd (mem_numbered.1 hx).2 (hnone x (mem_numbered.1 hx).1)
  · have hfilter' : s.track.tickets.filter (fun x => x.num == num) = [k] := hfilter
    rw [exec_openTimeExpiry, hfilter']
    exact congrArg _ (reachOpenTime_due hfind ((openIsDue_iff s k).2 ⟨hs, g, hg, hdue⟩))
  · rw [exec_openTimeExpiry, reachOpenTimesOf_notDue]
    intro x hx y hf
    obtain ⟨hx, hnum⟩ := mem_numbered.1 hx
    obtain rfl := find_of_mem hp hx hf
    refine Bool.eq_false_iff.2 fun hd => ?_
    obtain ⟨hns, g, hg, hdue⟩ := (openIsDue_iff s y).1 hd
    rcases hnot y hx hnum with h | h | ⟨g', hg', h⟩
    · rw [h] at hg; cases hg
    · rw [h] at hns; cases hns
    · rw [hg] at hg'; cases hg'; exact absurd hdue (Nat.not_le.2 h)
  · exact spoilAtFlipper_late hfirst hst hs ((remainingOpen_iff s k _).2 ⟨g, hg, rfl⟩) hlt
  · rintro (hfree | ⟨hfirst, hk⟩)
    · exact spoilAtFlipper_free hfree
    · refine spoilAtFlipper_stays hfirst fun hst hs r hr => ?_
      obtain ⟨g, hg, rfl⟩ := (remainingOpen_iff s k r).1 hr
      rcases hk with h | h | h | ⟨g', hg', h⟩
      · exact absurd hst h
      · rw [h] at hs; cases hs
      · rw [h] at hg; cases hg
      · rw [hg] at hg'; cases hg'; exact h
  · exact congrArg _ (reachSettle_due ((settleIsDue_iff s).2 ⟨w, hw, hphase, hreached⟩) hx)
  · refine congrArg _ (if_neg fun hd => ?_)
    obtain ⟨w, hw, hphase, hreached⟩ := (settleIsDue_iff s).1 hd
    rcases hnot with h | h | ⟨w', hw', h⟩
    · rw [h] at hw; cases hw
    · exact h hphase
    · rw [hw] at hw'; cases hw'; omega

end Sys2Proof.Machine
end

section
/-! SUPPORT. The command timer of a station (R30), and the issue of the station commands at a TRAIN arrival (R31 to R38): which ticket
makes which command due, and that nothing is issued in a hold. -/

namespace Sys2Proof.Machine

variable {s t u : State} {st : Station} {fl : InFlight} {k : Ticket} {c : Cmd}

/-! ### The command timer (R30) -/

theorem stationIsDue_iff (h : (s.track.station st).inflight = some fl) : stationIsDue s st = true ↔
    fl.timer = true ∧ (s.clock.ms - (fl.issued + BitVec.ofNat 32 fl.timeout)).toNat < 2147483648 := by
  rw [stationIsDue, h]
  simp only [reached, Bool.and_eq_true, decide_eq_true_eq]

theorem reachStation_due (h : (s.track.station st).inflight = some fl) (hd : stationIsDue s st = true) :
    reachStation st s = if (s.track.station st).stall = .none then
      latch .stationTimeout (stationCode st) (setStation st
        { (s.track.station st) with stall := .timeout, inflight := some { fl with timer := false } } s)
      else setStation st { (s.track.station st) with inflight := some { fl with timer := false } } s := by
  unfold reachStation
  simp only [hd, h, beq_iff_eq]

theorem reachStation_notDue (hd : ¬ stationIsDue s st = true) : reachStation st s = s := by
  unfold reachStation
  simp only [Bool.eq_false_iff.2 hd]

theorem not_stationIsDue (h : (s.track.station st).inflight = none) : ¬ stationIsDue s st = true := by
  rw [stationIsDue, h]; exact Bool.false_ne_true

/-! ### No issue in a hold (R31) -/

theorem not_mayIssue_held (h : s.ctl.mode.held = true) (c : Cmd) (pos : Station) : mayIssue c pos s = false := by
  rw [mayIssue, Bool.and_eq_false_iff]
  right
  cases hm : s.ctl.mode <;> simp_all [Mode.held, modePermits]

theorem issueFor_held (h : s.ctl.mode.held = true) (c : Cmd) (k : Ticket) (p : Word) (f : Ticket → Ticket) :
    issueFor c k p f s = s := by
  rw [issueFor, not_mayIssue_held h, if_neg Bool.false_ne_true]

theorem issueFeed_mayNot (h : mayIssue .feedOne .feed s = false) : issueFeed s = s := by
  rw [issueFeed, h, Bool.and_false, if_neg Bool.false_ne_true]

theorem requestOpen_held (h : s.ctl.mode.held = true) : requestOpen s = s := by
  have hr : openRequested s = false := by simp [openRequested, progressAllowed, h]
  rw [requestOpen, hr]

/-! ### FEED (R32) -/

theorem feed_due_iff (s : State) :
    ((s.track.first .feed).isNone && decide (s.track.tickets.length < 9) && mayIssue .feedOne .feed s) = true ↔
      standsFree s .feed ∧ s.track.tickets.length < 9 ∧ MayIssue s .feedOne .feed := by
  simp only [Bool.and_eq_true, Option.isNone_iff_eq_none, first_none, decide_eq_true_eq, mayIssue_iff, and_assoc]

/-- The ticket that FEED_ONE brings onto the track joins it as its youngest (R24, R32). -/
def fedTrack (e : QueueEntry) (r : PlanRec) (x : Track) : Track :=
  { x with tickets := x.tickets ++ [newTicket (x.counter + 1) e r], counter := x.counter + 1 }

section
variable {timeout : Nat} (hfree : standsFree s .feed) (hlen : s.track.tickets.length < 9) (hm : MayIssue s .feedOne .feed)
  (hf : Fitted s .feed timeout)
include hfree hlen hm hf

/-- Without a head to bind nothing is fed. -/
theorem issueFeed_unbound (ha : admitHead s = (.none, u)) : issueFeed s = u := by
  rw [issueFeed, if_pos ((feed_due_iff s).2 ⟨hfree, hlen, hm⟩), stationEntry_fitted s .feed timeout hf]
  simp only [ha]

/-- The head that is bound is fed. -/
theorem issueFeed_bound {e : QueueEntry} {r : PlanRec} {g : Target} (ha : admitHead s = (.bound e r g, u)) :
    issueFeed s = launch .feedOne e.lay (BitVec.ofNat 32 e.lay) timeout (u.setTrack (fedTrack e r u.track)) := by
  rw [issueFeed, if_pos ((feed_due_iff s).2 ⟨hfree, hlen, hm⟩), stationEntry_fitted s .feed timeout hf]
  simp only [ha]
  rfl

end

theorem track_readCourse_of {c : Nat} {p : Option CourseRec} (h : readCourse c s = (p, t)) : t.track = s.track := by
  have := track_of_quiet (quiet_readCourse c s)
  rwa [h] at this

theorem track_admitInCourse (e : QueueEntry) (r : PlanRec) (c : CourseRec) (s : State) :
    (admitInCourse e r c s).2.track = s.track := by
  have hp := track_of_quiet (quiet_pointTest (targetOfRecord r c) s)
  unfold admitInCourse
  split
  · rfl
  · split <;> rename_i heq <;> rw [heq] at hp <;> exact hp

/-- An admission request leaves the track alone: it reads, and at most latches a fault and binds the head. -/
theorem track_admitHead (s : State) : (admitHead s).2.track = s.track := by
  unfold admitHead
  split
  · rfl
  · split
    · rfl
    · unfold admitRecord
      split <;> rename_i heq <;> have hread := track_of_quiet (quiet_readPart_of heq)
      · exact hread
      · split <;> rename_i heq' <;> have hcourse := (track_readCourse_of heq').trans hread
        · exact hcourse
        · split
          · exact (track_admitInCourse _ _ _ _).trans hcourse
          · exact hcourse

theorem launched_id (c : Cmd) (k : Ticket) (p : Word) (timeout : Nat) (s : State) :
    launched c k p timeout id s = launch c k.lay p timeout s := by
  rw [← launch_setTicket, setTicket_eq]
  simp only [id, ite_self, List.map_id']
  rfl

/-! ### The tickets that make the commands of the other stations due -/

/-- The ticket that a command is due for, among those that satisfy a condition. -/
theorem filtered_some {p : Prop} [Decidable p] {k x : Ticket} : (if p then some k else none) = some x ↔ k = x ∧ p := by
  rw [Option.ite_none_right_eq_some, Option.some.injEq, and_comm]

theorem ejectTicket_iff (s : State) (k : Ticket) : ejectTicket s = some k ↔
    standsFirst s .saw k ∧ k.state = .atSaw ∧ (k.reject = true ∨ k.purge = true) ∨
      standsFree s .saw ∧ standsFirst s .feed k ∧ k.state = .atFeed ∧ k.purge = true := by
  rw [← first_none, ← first_some, ← first_some, ejectTicket]
  cases hs : s.track.first .saw with
  | some x =>
    simp only [filtered_some, Bool.and_eq_true, Bool.or_eq_true, beq_iff_eq, Option.some.injEq, reduceCtorEq, false_and,
      or_false]
    exact and_congr_right fun e => by subst e; rfl
  | none =>
    cases hf : s.track.first .feed with
    | none => simp
    | some x =>
      simp only [filtered_some, Bool.and_eq_true, beq_iff_eq, Option.some.injEq, reduceCtorEq, false_and, false_or, true_and]
      exact and_congr_right fun e => by subst e; rfl

theorem cutTicket_iff (s : State) (k : Ticket) : cutTicket s = some k ↔
    standsFree s .saw ∧ standsFirst s .feed k ∧ k.state = .atFeed ∧ k.reject = false ∧ k.spoilt = false ∧ k.purge = false := by
  rw [← first_none, ← first_some, cutTicket, ← unmarked_iff]
  cases hs : s.track.first .saw with
  | some x => simp
  | none =>
    cases hf : s.track.first .feed with
    | none => simp
    | some x =>
      simp only [filtered_some, Bool.and_eq_true, beq_iff_eq, Option.some.injEq, true_and]
      exact and_congr_right fun e => by subst e; rfl

/-- A CUT is due for no ticket that an EJECT is due for: with the SAW free they stand on the same ticket of FEED. -/
theorem ejectTicket_of_cutTicket (h : cutTicket s = some k) : ejectTicket s = none := by
  obtain ⟨hfree, hfirst, -, -, -, hpurge⟩ := (cutTicket_iff s k).1 h
  rw [ejectTicket, (first_none s .saw).2 hfree, (first_some s .feed k).2 hfirst]
  simp [hpurge]

theorem issueSaw_eject (h : ejectTicket s = some k) : issueSaw s = issueFor .eject k (layParam k) id s := by
  rw [issueSaw, h]

theorem issueSaw_cut (h : cutTicket s = some k) : issueSaw s =
    issueFor .cut k (if k.cut then BitVec.ofNat 32 (k.length * 10) else 0) (fun x => { x with state := .cutting }) s := by
  rw [issueSaw, ejectTicket_of_cutTicket h, h]

theorem issueSaw_none (he : ejectTicket s = none) (hc : cutTicket s = none) : issueSaw s = s := by rw [issueSaw, he, hc]

/-- R35: the ticket that GLUE is due for. -/
def GlueDue (s : State) (k : Ticket) : Prop :=
  standsFree s .glue ∧ standsFirst s .saw k ∧ k.state = .atSaw ∧ k.reject = false ∧ k.spoilt = false ∧ k.purge = false

theorem issueGlue_due (h : GlueDue s k) :
    issueGlue s = issueFor .glue k (BitVec.ofNat 32 k.glue) (fun x => { x with state := .gluing }) s := by
  obtain ⟨hfree, hfirst, hst, hmarks⟩ := h
  simp only [issueGlue, (first_none s .glue).2 hfree, (first_some s .saw k).2 hfirst, hst, (unmarked_iff k).2 hmarks,
    beq_self_eq_true, Bool.and_self, if_true]

theorem issueGlue_none (h : ∀ k, ¬ GlueDue s k) : issueGlue s = s := by
  unfold issueGlue
  split
  · rename_i k hg hs
    refine if_neg fun hc => h k ?_
    simp only [Bool.and_eq_true, beq_iff_eq, unmarked_iff] at hc
    exact ⟨(first_none s .glue).1 hg, (first_some s .saw k).1 hs, hc.1, hc.2⟩
  · rfl

/-- R36: the ticket that DELIVER is due for. -/
def DeliverDue (s : State) (k : Ticket) : Prop := standsFirst s .shuttle k ∧ standsFree s .flipper

/-- R36: the ticket that LOAD is due for. -/
def LoadDue (s : State) (k : Ticket) : Prop :=
  standsFirst s .glue k ∧ k.state = .atGlue ∧ (s.track.at .shuttle).length < 4

theorem issueShuttle_deliver (h : DeliverDue s k) :
    issueShuttle s = issueFor .deliver k (layParam k) (fun x => { x with state := .delivering }) s := by
  simp only [issueShuttle, (first_some s .shuttle k).2 h.1, (first_none s .flipper).2 h.2]

theorem deliverDue_of_first (hs : s.track.first .shuttle = some k) (hf : s.track.first .flipper = none) : DeliverDue s k :=
  ⟨(first_some s .shuttle k).1 hs, (first_none s .flipper).1 hf⟩

/-- LOAD waits while DELIVER is due (log entry 14). -/
theorem issueShuttle_load (h : ∀ k, ¬ DeliverDue s k) (hl : LoadDue s k) :
    issueShuttle s = issueFor .load k (layParam k) (fun x => { x with state := .loading }) s := by
  obtain ⟨hfirst, hst, hroom⟩ := hl
  unfold issueShuttle
  split
  · exact absurd (deliverDue_of_first ‹_› ‹_›) (h _)
  · simp only [(first_some s .glue k).2 hfirst, hst, hroom, beq_self_eq_true, decide_true, Bool.and_self, if_true]

theorem issueShuttle_none (h : ∀ k, ¬ DeliverDue s k) (hl : ∀ k, ¬ LoadDue s k) : issueShuttle s = s := by
  unfold issueShuttle
  split
  · exact absurd (deliverDue_of_first ‹_› ‹_›) (h _)
  · split
    · rename_i k hg
      refine if_neg fun hc => hl k ?_
      simp only [Bool.and_eq_true, beq_iff_eq, decide_eq_true_eq] at hc
      exact ⟨(first_some s .glue k).1 hg, hc⟩
    · rfl

/-- R38: the ticket that DROP is due for. -/
def DropDue (s : State) (k : Ticket) : Prop :=
  standsFirst s .flipper k ∧ k.state = .atFlipper ∧ (k.spoilt = true ∨ k.purge = true)

/-- R37: the ticket that HANDOVER is due for. -/
def HandoverDue (s : State) (k : Ticket) : Prop :=
  standsFirst s .flipper k ∧ k.state = .atFlipper ∧ k.reject = false ∧ k.spoilt = false ∧
    k.purge = false ∧ standsFree s .gripper ∧ s.lay.phase = .idle ∧
    ∃ g, k.glueTime = some g ∧ s.params.reserve ≤ s.params.openTime - (s.clock.ms - g).toNat

theorem handoverDue_iff (s : State) (k : Ticket) : handoverDue k s = true ↔
    k.state = .atFlipper ∧ (k.reject = false ∧ k.spoilt = false ∧ k.purge = false) ∧ standsFree s .gripper ∧
      s.lay.phase = .idle ∧ ∃ g, k.glueTime = some g ∧ s.params.reserve ≤ s.params.openTime - (s.clock.ms - g).toNat := by
  unfold handoverDue remainingOpen elapsed
  simp only [Bool.and_eq_true, beq_iff_eq, unmarked_iff, Option.isNone_iff_eq_none, first_none, and_assoc]
  cases k.glueTime <;> simp

theorem issueFlipper_first (h : standsFirst s .flipper k) : issueFlipper s =
    if k.state = .atFlipper ∧ (k.spoilt = true ∨ k.purge = true) then issueFor .drop k (layParam k) id s
    else if handoverDue k s = true then issueFor .handover k (layParam k) (fun x => { x with state := .handingOver }) s
    else s := by
  simp only [issueFlipper, (first_some s .flipper k).2 h, Bool.and_eq_true, Bool.or_eq_true, beq_iff_eq]

theorem issueFlipper_drop (h : DropDue s k) : issueFlipper s = issueFor .drop k (layParam k) id s := by
  rw [issueFlipper_first h.1, if_pos h.2]

theorem issueFlipper_handover (h : HandoverDue s k) :
    issueFlipper s = issueFor .handover k (layParam k) (fun x => { x with state := .handingOver }) s := by
  obtain ⟨hfirst, hst, hr, hs, hp, hrest⟩ := h
  rw [issueFlipper_first hfirst, if_neg (by simp [hs, hp]), if_pos ((handoverDue_iff s k).2 ⟨hst, ⟨hr, hs, hp⟩, hrest⟩)]

theorem issueFlipper_none (hd : ∀ k, ¬ DropDue s k) (hh : ∀ k, ¬ HandoverDue s k) : issueFlipper s = s := by
  cases hf : s.track.first .flipper with
  | none => rw [issueFlipper, hf]
  | some k =>
    have hfirst := (first_some s .flipper k).1 hf
    rw [issueFlipper_first hfirst, if_neg fun h => hd k ⟨hfirst, h⟩, if_neg fun h => hh k ?_]
    obtain ⟨hst, ⟨hr, hs, hp⟩, hrest⟩ := (handoverDue_iff s k).1 h
    exact ⟨hfirst, hst, hr, hs, hp, hrest⟩

theorem issueSaw_held (h : s.ctl.mode.held = true) : issueSaw s = s := by
  unfold issueSaw
  split
  · exact issueFor_held h _ _ _ _
  · split
    · exact issueFor_held h _ _ _ _
    · rfl

theorem issueGlue_held (h : s.ctl.mode.held = true) : issueGlue s = s := by
  unfold issueGlue
  simp only [issueFor_held h, ite_self]
  split <;> rfl

theorem issueShuttle_held (h : s.ctl.mode.held = true) : issueShuttle s = s := by
  unfold issueShuttle
  simp only [issueFor_held h, ite_self]
  split
  · rfl
  · split <;> rfl

theorem issueFlipper_held (h : s.ctl.mode.held = true) : issueFlipper s = s := by
  unfold issueFlipper
  simp only [issueFor_held h, ite_self]
  split <;> rfl

/-! ### The obligation, clause by clause -/

/-- R30: the expiry of the command timer. -/
theorem exec_stationTimeout (h : (s.track.station st).inflight = some fl) (hd : stationIsDue s st = true) :
    ((s.track.station st).stall = .none →
      ∃ t, exec (.stationTimeout st) s = .next t ∧
        t.track.station st = { s.track.station st with stall := .timeout, inflight := some { fl with timer := false } } ∧
        (∀ x, x ≠ st → t.track.station x = s.track.station x) ∧ t.track.tickets = s.track.tickets ∧
        t.track.counter = s.track.counter ∧
        t.ctl = s.ctl.latch .stationTimeout (BitVec.ofNat 32 (stationCode st)) s.clock.ms ∧
        t = (s.setTrack t.track).setCtl t.ctl) ∧
    ((s.track.station st).stall ≠ .none →
      ∃ t, exec (.stationTimeout st) s = .next t ∧
        t.track.station st = { s.track.station st with inflight := some { fl with timer := false } } ∧
        (∀ x, x ≠ st → t.track.station x = s.track.station x) ∧ t.track.tickets = s.track.tickets ∧
        t.track.counter = s.track.counter ∧ t = s.setTrack t.track) := by
  have he : exec (.stationTimeout st) s = .next (reachStation st s) := rfl
  rw [he, reachStation_due h hd]
  refine ⟨fun hs => ⟨_, congrArg _ (if_pos hs), ?_⟩, fun hs => ⟨_, congrArg _ (if_neg hs), ?_⟩⟩
  · exact ⟨station_setStation_same _ _ _, fun x hx => station_setStation_ne _ _ hx, tickets_setStation _ _ _,
      counter_setStation _ _ _, rfl, rfl⟩
  · exact ⟨station_setStation_same _ _ _, fun x hx => station_setStation_ne _ _ hx, tickets_setStation _ _ _,
      counter_setStation _ _ _, rfl⟩

/-- R32: FEED_ONE is issued for the head that an admission request binds. -/
theorem issueFeed_issues (s : State) :
    (¬ standsFree s .feed ∨ 9 ≤ s.track.tickets.length ∨ ¬ MayIssue s .feedOne .feed ∨ entryOfRole .feed s = none →
      issueFeed s = s) ∧
    (∀ timeout u, standsFree s .feed → s.track.tickets.length < 9 → MayIssue s .feedOne .feed → Fitted s .feed timeout →
      (admitHead s = (.none, u) → issueFeed s = u) ∧
      (∀ e r g k, admitHead s = (.bound e r g, u) → k = newTicket (s.track.counter + 1) e r →
        issueFeed s = launched .feedOne k (BitVec.ofNat 32 e.lay) timeout id
          (u.setTrack { u.track with tickets := s.track.tickets ++ [k], counter := s.track.counter + 1 }))) := by
  refine ⟨fun h => ?_, fun timeout u hfree hlen hm hf => ⟨issueFeed_unbound hfree hlen hm hf, fun e r g k ha hk => ?_⟩⟩
  · by_cases hdue : standsFree s .feed ∧ s.track.tickets.length < 9 ∧ MayIssue s .feedOne .feed
    · obtain ⟨hfree, hlen, hm⟩ := hdue
      have hnone : entryOfRole .feed s = none :=
        ((h.resolve_left (not_not.2 hfree)).resolve_left (Nat.not_le.2 hlen)).resolve_left (not_not.2 hm)
      rw [issueFeed, stationEntry_none s .feed hnone]
      exact ite_self _
    · rw [issueFeed, if_neg (mt (feed_due_iff s).1 hdue)]
  · have htrack : u.track = s.track := by rw [← track_admitHead s, ha]
    rw [issueFeed_bound hfree hlen hm hf ha, launched_id, hk, fedTrack, htrack]
    rfl

/-- Settles O27: the timer of a station, the holds, and each station's issue by the ticket that makes it due. -/
theorem commandTimerStallsTheStation : Obligations.CommandTimerStallsTheStation := by
  refine ⟨fun s st => ⟨fun hnone => ?_, fun fl hfl => ⟨fun htimer hreached => ?_, fun hnot => ?_⟩⟩, fun s h => ?_,
    issueFeed_issues, fun s eject cut heject hcut => ?_, fun s glue hglue => ?_, fun s deliver load hdeliver hload => ?_,
    fun s drop handover hdrop hhandover => ?_⟩
  · exact congrArg _ (reachStation_notDue (not_stationIsDue hnone))
  · exact exec_stationTimeout hfl ((stationIsDue_iff hfl).2 ⟨htimer, hreached⟩)
  · refine congrArg _ (reachStation_notDue fun hd => ?_)
    obtain ⟨htimer, hreached⟩ := (stationIsDue_iff hfl).1 hd
    rcases hnot with h | h
    · rw [h] at htimer; cases htimer
    · omega
  · exact ⟨issueFeed_mayNot (not_mayIssue_held h _ _), issueSaw_held h, issueGlue_held h, issueShuttle_held h,
      issueFlipper_held h, requestOpen_held h⟩
  · simp only [heject, hcut, ← ejectTicket_iff, ← cutTicket_iff]
    refine ⟨fun k h => ?_, fun k h => ?_, fun h => ?_⟩
    · rw [issueSaw_eject h]; exact issueFor_issues _ _ _ _ _
    · rw [issueSaw_cut h]; exact issueFor_issues _ _ _ _ _
    · exact issueSaw_none (Option.eq_none_iff_forall_ne_some.2 fun k => (h k).1)
        (Option.eq_none_iff_forall_ne_some.2 fun k => (h k).2)
  · refine ⟨fun k h => ?_, fun h => issueGlue_none fun k => mt (hglue k).2 (h k)⟩
    rw [issueGlue_due ((hglue k).1 h)]; exact issueFor_issues _ _ _ _ _
  · refine ⟨fun k h => ?_, fun k hn h => ?_, fun h => ?_⟩
    · rw [issueShuttle_deliver ((hdeliver k).1 h)]; exact issueFor_issues _ _ _ _ _
    · rw [issueShuttle_load (fun x => mt (hdeliver x).2 (hn x)) ((hload k).1 h)]; exact issueFor_issues _ _ _ _ _
    · exact issueShuttle_none (fun k => mt (hdeliver k).2 (h k).1) fun k => mt (hload k).2 (h k).2
  · refine ⟨fun k h => ?_, fun k h => ?_, fun h => ?_⟩
    · rw [issueFlipper_drop ((hdrop k).1 h)]; exact issueFor_issues _ _ _ _ _
    · rw [issueFlipper_handover ((hhandover k).1 h)]; exact issueFor_issues _ _ _ _ _
    · exact issueFlipper_none (fun k => mt (hdrop k).2 (h k).1) fun k => mt (hhandover k).2 (h k).2

end Sys2Proof.Machine
end

section
/-! SUPPORT. STATION RETRY (R27, R45): how a STATION request comes to its station, and which report decides a MISMATCH. -/

namespace Sys2Proof.Machine

variable {s t : State} {who : Sender} {level : Nat} {station : Half} {st : Station} {i : Nat}

/-! ### STATION requests -/

/-- A STATION request (section 12.2). -/
def stationRequest (who : Sender) (station : Half) (action : Part) : Request := requestFor who opStation 0 station 0 action

theorem operate_station (h : Heard s who level) (hl : level ≤ 1) (station : Half) (action : Part) :
    operate who opStation 0 station 0 action s = .next (opStationExec (stationRequest who station action) (arrived .up s)) :=
  operate_performed s who level opStation 0 station 0 action h rfl rfl hl

theorem operate_station_refused (h : Heard s who level) (hl : 1 < level) (station : Half) (action : Part) :
    operate who opStation 0 station 0 action s = .next (replied who 12 .refusedLevel 0 0 (arrived .up s)) :=
  (operate_refused h 0 station 0 action rfl rfl (show minimumLevel opStation < level from hl)).trans
    (congrArg _ (respond_plain rfl 0 station 0 action _ _))

theorem respond_station (action : Part) (code : ReplyCode) (s : State) :
    respond (stationRequest who station action) code s = replied who 12 code 0 0 s := respond_plain rfl _ _ _ _ _ _

theorem stationOfCode_none {n : Nat} (h : 6 ≤ n) : stationOfCode n = none := by
  obtain ⟨m, rfl⟩ := Nat.exists_eq_add_of_le' h
  rfl

theorem opStation_badIndex (h : 6 ≤ station.toNat) (action : Part) (s : State) :
    opStationExec (stationRequest who station action) s = replied who 12 .badIndex 0 0 s := by
  have hst : stationOfCode (stationRequest who station action).index.toNat = none := stationOfCode_none h
  rw [opStationExec, hst]
  exact respond_station _ _ _

theorem opStation_retry (h : stationOfCode station.toNat = some st) (s : State) :
    opStationExec (stationRequest who station 1) s = replied who 12 (retry st s).1 0 0 (retry st s).2 := by
  have hst : stationOfCode (stationRequest who station 1).index.toNat = some st := h
  have haction : field (stationRequest who station 1).data 0 1 = 1 := by
    show field 1 0 1 = 1
    decide
  rw [opStationExec, hst]
  dsimp only
  rw [if_pos haction]
  exact respond_station _ _ _

theorem opStation_discard (h : stationOfCode station.toNat = some st) (s : State) :
    opStationExec (stationRequest who station 2) s = discardAnswer (stationRequest who station 2) st s := by
  have hst : stationOfCode (stationRequest who station 2).index.toNat = some st := h
  have haction : field (stationRequest who station 2).data 0 1 = 2 := by
    show field 2 0 1 = 2
    decide
  rw [opStationExec, hst]
  dsimp only
  rw [if_neg (by rw [haction]; decide), if_pos haction]

/-! ### The latest report of a station (R45, R152, log entry 15) -/

/-- The address index gives this entry the role of the station (R152). -/
def HasRole (s : State) (st : Station) (j : Nat) : Prop :=
  ∃ x, s.axis.index[j]?.join = some x ∧ x.role = stationRole st

/-- The entry of the role of a station that is readable, for a search of the axis table. -/
def readableRole (s : State) (st : Station) (j : Nat) : Bool :=
  match s.axis.index[j]?.join with
  | some e => e.role == stationRole st && !axisUnreadable s j
  | none => false

theorem entryOfRole_eq (s : State) (st : Station) :
    entryOfRole (stationRole st) s = (List.range 24).find? (readableRole s st) := rfl

theorem readableRole_iff (s : State) (st : Station) (j : Nat) :
    readableRole s st j = true ↔ HasRole s st j ∧ axisUnreadable s j = false := by
  unfold readableRole HasRole
  cases s.axis.index[j]?.join <;> simp

/-- The first entry of the role that can be read. -/
theorem entryOfRole_some (hi : i < 24) (he : HasRole s st i) (hr : axisUnreadable s i = false)
    (hlow : ∀ j < i, HasRole s st j → axisUnreadable s j = true) : entryOfRole (stationRole st) s = some i := by
  rw [entryOfRole_eq, List.find?_range_eq_some]
  refine ⟨(readableRole_iff s st i).2 ⟨he, hr⟩, List.mem_range.2 hi, fun j hj => ?_⟩
  rw [Bool.not_eq_true', Bool.eq_false_iff]
  intro hc
  obtain ⟨hjr, hju⟩ := (readableRole_iff s st j).1 hc
  rw [hlow j hj hjr] at hju
  cases hju

theorem entryOfRole_unreadable (h : ∀ j < 24, HasRole s st j → axisUnreadable s j = true) :
    entryOfRole (stationRole st) s = none := by
  rw [entryOfRole_eq, List.find?_eq_none]
  intro j hj hc
  obtain ⟨hjr, hju⟩ := (readableRole_iff s st j).1 hc
  rw [h j (List.mem_range.1 hj) hjr] at hju
  cases hju

/-- An entry of the role whose feedback has been seen, for a search of the captures. -/
def seenRole (s : State) (st : Station) (j : Nat) : Bool :=
  (feedbackOf s j).seen &&
    match s.axis.index[j]?.join with
    | some e => e.role == stationRole st
    | none => false

theorem seenRole_iff (s : State) (st : Station) (j : Nat) :
    seenRole s st j = true ↔ (feedbackOf s j).seen = true ∧ HasRole s st j := by
  unfold seenRole HasRole
  cases s.axis.index[j]?.join <;> simp

theorem reportEntry_readable (h : entryOfRole (stationRole st) s = some i) : reportEntry st s = some i := by
  rw [reportEntry, h]

theorem reportEntry_recent (h : entryOfRole (stationRole st) s = none) :
    reportEntry st s = s.axis.recent.find? (seenRole s st) := by
  rw [reportEntry, h]
  rfl

/-- With no entry that can be read the one captured last of the role decides. -/
theorem reportEntry_last {l m : List Nat} (h : ∀ j < 24, HasRole s st j → axisUnreadable s j = true) (he : HasRole s st i)
    (hs : (feedbackOf s i).seen = true) (hrecent : s.axis.recent = l ++ i :: m)
    (hl : ∀ j ∈ l, HasRole s st j → (feedbackOf s j).seen = false) : reportEntry st s = some i := by
  rw [reportEntry_recent (entryOfRole_unreadable h), List.find?_eq_some_iff_append]
  refine ⟨(seenRole_iff s st i).2 ⟨hs, he⟩, l, m, hrecent, fun j hj => ?_⟩
  rw [Bool.not_eq_true', Bool.eq_false_iff]
  intro hc
  obtain ⟨hjs, hjr⟩ := (seenRole_iff s st j).1 hc
  rw [hl j hj hjr] at hjs
  cases hjs

theorem HasRole.lt {j : Nat} (h : HasRole s st j) : j < 24 := by
  obtain ⟨x, hx, -⟩ := h
  by_contra hj
  rw [Vector.getElem?_eq_none (Nat.not_lt.1 hj)] at hx
  cases hx

/-- Without an entry that can be read and without a capture there is no report. -/
theorem reportEntry_none (h : ∀ j, HasRole s st j →
    axisUnreadable s j = true ∧ (j ∈ s.axis.recent → (feedbackOf s j).seen = false)) : reportEntry st s = none := by
  rw [reportEntry_recent (entryOfRole_unreadable fun j _ hj => (h j hj).1), List.find?_eq_none]
  intro j hj hc
  obtain ⟨hjs, hjr⟩ := (seenRole_iff s st j).1 hc
  rw [(h j hjr).2 hj] at hjs
  cases hjs

theorem holdsBlock_iff (s : State) (st : Station) : holdsBlock s st = true ↔ ∃ k ∈ s.track.tickets, k.pos = st := by
  rw [holdsBlock, first_eq, List.find?_isSome]
  simp only [decide_eq_true_eq]

/-- R45: the report was seen, and its sensor tells of a block exactly when the track holds one. -/
theorem sensorAgrees_iff (h : reportEntry st s = some i) : sensorAgrees st s = true ↔
    (feedbackOf s i).seen = true ∧ ((feedbackOf s i).status.getLsbD 2 = true ↔ ∃ k ∈ s.track.tickets, k.pos = st) := by
  rw [sensorAgrees, h, ← holdsBlock_iff]
  exact Bool.and_eq_true_iff.trans (and_congr_right fun _ => beq_iff_eq.trans Bool.eq_iff_iff)

theorem sensorAgrees_none (h : reportEntry st s = none) : sensorAgrees st s = false := by rw [sensorAgrees, h]

/-! ### RETRY by the stall cause -/

theorem retry_notStalled (h : (s.track.station st).stall = .none) : retry st s = (.notFound, s) := by
  unfold retry
  simp only [h]

theorem retry_inflight {fl : InFlight} (h : (s.track.station st).stall = .timeout ∨ (s.track.station st).stall = .fault)
    (hfl : (s.track.station st).inflight = some fl) : retry st s = (.ok, reissueCommand st fl s) := by
  unfold retry
  rcases h with h | h <;> simp only [h, hfl]

theorem retry_idle (h : (s.track.station st).stall = .timeout ∨ (s.track.station st).stall = .fault)
    (hfl : (s.track.station st).inflight = none) :
    retry st s = (.ok, setStation st { (s.track.station st) with stall := .none } s) := by
  unfold retry
  rcases h with h | h <;> simp only [h, hfl]

theorem retry_mismatch (h : (s.track.station st).stall = .mismatch) : retry st s =
    if sensorAgrees st s = true then (.ok, setStation st { (s.track.station st) with stall := .none } s)
    else (.refusedBusy, s) := by
  unfold retry
  simp only [h]

/-- The numbers follow one another, 1 after 255 (R27). -/
theorem nextNumber_eq (n : Nat) : nextNumber n = if n < 255 then n + 1 else 1 := by
  unfold nextNumber
  split <;> split <;> omega

/-- Settles O56: by the stall cause, and in a MISMATCH by the entry of the latest report. -/
theorem retryReissuesOrClears : Obligations.RetryReissuesOrClears := by
  intro s who level station h
  refine ⟨fun hl => operate_station_refused h hl station 1, fun hl hs => ?_, ?_⟩
  · exact (operate_station h hl station 1).trans (congrArg _ (opStation_badIndex hs 1 _))
  · rintro st r hl hst rfl
    have hexec : ∀ code t, retry st (arrived .up s) = (code, t) →
        exec (.stationRetry who station) s = .next (replied who 12 code 0 0 t) := fun code t hr => by
      refine (operate_station h hl station 1).trans (congrArg _ ?_)
      rw [opStation_retry hst, hr]
    refine ⟨fun hn => hexec _ _ (retry_notStalled hn), fun fl n hstall hfl hn => ?_,
      fun hstall hfl => hexec _ _ (retry_idle hstall hfl), fun i agrees entry hentry hm hi he hreport hagrees => ?_,
      fun hm hnone => ?_⟩
    · rw [hn, ← nextNumber_eq]
      exact hexec _ _ (retry_inflight hstall hfl)
    · have hentry' : ∀ j, entry j ↔ HasRole (arrived .up s) st j := hentry
      simp only [hentry'] at he hreport
      have hrep : reportEntry st (arrived .up s) = some i := by
        rcases hreport with ⟨hr, hlow⟩ | ⟨hall, hs, l, m, hrecent, hlast⟩
        · exact reportEntry_readable (entryOfRole_some hi he hr hlow)
        · exact reportEntry_last hall he hs hrecent hlast
      have hiff : sensorAgrees st (arrived .up s) = true ↔ agrees := (sensorAgrees_iff hrep).trans hagrees.symm
      have hretry := retry_mismatch (s := arrived .up s) hm
      refine ⟨fun ha => hexec _ _ ?_, fun ha => hexec _ _ ?_⟩
      · rw [hretry, if_pos (hiff.2 ha)]; rfl
      · rw [hretry, if_neg (mt hiff.1 ha)]
    · have hrep : reportEntry st (arrived .up s) = none := reportEntry_none fun j hj =>
        hj.elim fun x hx => hnone j x hj.lt hx.1 hx.2
      have hretry := retry_mismatch (s := arrived .up s) hm
      exact hexec _ _ (by rw [hretry, sensorAgrees_none hrep, if_neg Bool.false_ne_true])

end Sys2Proof.Machine
end

section
/-! SUPPORT. STATION DISCARD (R14, R46, R59, R61): the discard ticket, what its removal does to the track and the plan store, and what
it means to the lay controller. -/

namespace Sys2Proof.Machine

variable {s t : State} {who : Sender} {level : Nat} {station : Half} {st : Station} {k : Ticket}

/-! ### The discard ticket -/

theorem discardOf_inflight {fl : InFlight} (h : (s.track.station st).inflight = some fl) :
    discardOf st s = .taken (s.track.find fl.ticket) := by
  rw [discardOf, h]

theorem discardOf_free (h : (s.track.station st).inflight = none) (hfree : standsFree s st) :
    discardOf st s = if (s.track.station st).stall = .none then .nothing else .taken none := by
  rw [discardOf, h, (first_none s st).2 hfree]
  by_cases hs : (s.track.station st).stall = .none <;> simp [stalled, hs]

theorem discardOf_first (h : (s.track.station st).inflight = none) (hk : standsFirst s st k) :
    discardOf st s = if underCommand s k.lay = true then .blocked else .taken (some k) := by
  rw [discardOf, h, (first_some s st k).2 hk]

theorem underCommand_iff (s : State) (n : Nat) : underCommand s n = true ↔
    ∃ x fl, (s.track.station x).inflight = some fl ∧ fl.ticket = n := by
  rw [underCommand, List.any_eq_true]
  constructor
  · rintro ⟨x, -, hx⟩
    split at hx
    · exact ⟨x, _, ‹_›, beq_iff_eq.1 hx⟩
    · cases hx
  · rintro ⟨x, fl, hfl, hn⟩
    refine ⟨x, by cases x <;> decide, ?_⟩
    simp only [hfl, hn, beq_self_eq_true]

/-! ### The removal -/

/-- The station with nothing in flight and no stall. -/
def cleared (st : Station) (s : State) : State :=
  setStation st { (s.track.station st) with inflight := none, stall := .none } s

theorem cleared_idle (h : (s.track.station st).inflight = none) :
    cleared st s = setStation st { (s.track.station st) with stall := .none } s := by
  rw [cleared, ← h]

theorem discard_some (st : Station) (k : Ticket) (s : State) :
    discard st (some k) s = dropTicket k false (discardPlacement k (cleared st s)) := rfl

theorem discardPlacement_eq (k : Ticket) (s : State) : ∃ l, discardPlacement k s = s.setLay l := by
  unfold discardPlacement
  split
  · exact ⟨_, rfl⟩
  · exact ⟨_, rfl⟩
  · exact ⟨s.lay, rfl⟩

theorem reissue_eq (n : Nat) (c : Bool) (s : State) : ∃ p, reissue n c s = s.setPlan p := by
  unfold reissue
  split
  · exact ⟨s.plan, rfl⟩
  · exact ⟨_, rfl⟩

/-- A discard changes the track, the plan store and the lay controller alone. -/
theorem discard_frame (st : Station) (k : Ticket) (s : State) :
    (discard st (some k) s).track = (cleared st s).track.remove k.lay ∧
    (discard st (some k) s).lay = (discardPlacement k (cleared st s)).lay ∧
    discard st (some k) s = ((s.setTrack (discard st (some k) s).track).setPlan (discard st (some k) s).plan).setLay
      (discard st (some k) s).lay := by
  obtain ⟨l, hl⟩ := discardPlacement_eq k (cleared st s)
  rw [discard_some, hl, dropTicket]
  obtain ⟨p, hp⟩ := reissue_eq k.lay false
    (((cleared st s).setLay l).setTrack (((cleared st s).setLay l).track.remove k.lay))
  rw [hp]
  exact ⟨rfl, rfl, rfl⟩

/-- A discard's reissue does not count (R46): the record returns with its count, and has not failed. -/
theorem plan_discard {b : BoundEntry} (hb : boundOf k.lay s = some b) : (discard st (some k) s).plan =
    { s.plan with
      bound := s.plan.bound.filter (fun x => x.lay ≠ k.lay)
      queue := insertByLay { lay := b.lay, course := b.course, failed := false, reissue := b.reissue, slot := b.slot }
        s.plan.queue } := by
  obtain ⟨l, hl⟩ := discardPlacement_eq k (cleared st s)
  have hb' : boundOf k.lay (((cleared st s).setLay l).setTrack (((cleared st s).setLay l).track.remove k.lay)) = some b := hb
  rw [discard_some, hl, dropTicket, reissue_some hb', State.setPlan_plan]
  simp only [ne_eq, decide_not, ← Bool.beq_eq_decide_eq]
  rfl

/-! ### The lay controller (R59, R61) -/

theorem lay_discardPlacement_releasing (h : k.state = .releasing) (s : State) :
    (discardPlacement k s).lay = s.lay.endRelease k true := by
  unfold discardPlacement
  simp only [h, State.setLay_lay]

theorem lay_discardPlacement_held (h : k.state = .held) (s : State) : (discardPlacement k s).lay = s.lay.discardHeld := by
  unfold discardPlacement
  simp only [h, State.setLay_lay]

theorem lay_discardPlacement_other (hh : k.state ≠ .held) (hr : k.state ≠ .releasing) (s : State) :
    (discardPlacement k s).lay = s.lay := by
  unfold discardPlacement
  split
  · exact absurd ‹_› hr
  · exact absurd ‹_› hh
  · rfl

theorem discardHeld_before {l : Lay} (h : l.phase = .idle ∨ l.phase = .approach) : l.discardHeld = l.enterIdle := by
  rcases h with h | h <;> simp only [Lay.discardHeld, h]

theorem discardHeld_bed {l : Lay} (h : l.phase = .descend ∨ l.phase = .settle) :
    l.discardHeld = { l with phase := .lift, timer := none, openPending := false, capture := none } := by
  rcases h with h | h <;> simp only [Lay.discardHeld, h]

/-! ### The request -/

theorem exec_discard (h : Heard s who level) (hl : level ≤ 1) (hst : stationOfCode station.toNat = some st) :
    exec (.stationDiscard who station) s = .next (discardAnswer (stationRequest who station 2) st (arrived .up s)) :=
  (operate_station h hl station 2).trans (congrArg _ (opStation_discard hst _))

theorem discardAnswer_nothing (h : discardOf st s = .nothing) (action : Part) :
    discardAnswer (stationRequest who station action) st s = replied who 12 .notFound 0 0 s := by
  rw [discardAnswer, h]
  rfl

theorem discardAnswer_blocked (h : discardOf st s = .blocked) (action : Part) :
    discardAnswer (stationRequest who station action) st s = replied who 12 .refusedBusy 0 0 s := by
  rw [discardAnswer, h]
  rfl

theorem discardAnswer_taken (h : discardOf st s = .taken (some k)) (action : Part) :
    discardAnswer (stationRequest who station action) st s =
      replied who 12 .ok 0 (packPart [(4, k.lay)]) (discard st (some k) s) := by
  rw [discardAnswer, h]
  rfl

theorem discardAnswer_empty (h : discardOf st s = .taken none) (action : Part) :
    discardAnswer (stationRequest who station action) st s = replied who 12 .ok 0 0 (cleared st s) := by
  rw [discardAnswer, h]
  rfl

/-- Settles O57: which ticket the discard takes, then what its removal leaves. -/
theorem discardRemovesTheTicket : Obligations.DiscardRemovesTheTicket := by
  intro s who level station h
  refine ⟨fun hl => operate_station_refused h hl station 2, fun hl hs => ?_, ?_⟩
  · exact (operate_station h hl station 2).trans (congrArg _ (opStation_badIndex hs 2 _))
  · rintro st r hl hst rfl
    rw [exec_discard h hl hst]
    refine ⟨fun hfl hs hfree => ?_, fun hfl hs hfree => ?_, fun k x fl hfl hk hx hn => ?_, fun k hk => ?_⟩
    · exact congrArg _ (discardAnswer_nothing ((discardOf_free (s := arrived .up s) hfl hfree).trans (if_pos hs)) 2)
    · refine congrArg _ ((discardAnswer_empty ((discardOf_free (s := arrived .up s) hfl hfree).trans (if_neg hs)) 2).trans ?_)
      rw [cleared_idle (s := arrived .up s) hfl]
      rfl
    · have hu : underCommand (arrived .up s) k.lay = true := (underCommand_iff _ _).2 ⟨x, fl, hx, hn⟩
      exact congrArg _ (discardAnswer_blocked ((discardOf_first (s := arrived .up s) hfl hk).trans (if_pos hu)) 2)
    · have htaken : discardOf st (arrived .up s) = .taken (some k) := by
        rcases hk with ⟨fl, hfl, hfind⟩ | ⟨hfl, hfirst, hfree⟩
        · rw [discardOf_inflight (s := arrived .up s) hfl, ← hfind]; rfl
        · refine (discardOf_first (s := arrived .up s) hfl hfirst).trans (if_neg fun hu => ?_)
          obtain ⟨x, fl, hx, hn⟩ := (underCommand_iff _ _).1 hu
          exact hfree x fl hx hn
      obtain ⟨htrack, hlay, hall⟩ := discard_frame st k (arrived .up s)
      refine ⟨_, congrArg _ (discardAnswer_taken htaken 2), htrack, fun b e hb he => ?_, fun hr => ?_, fun hh hp => ?_,
        fun hh hp => ?_, fun hh hr => ?_, hall⟩
      · rw [plan_discard (s := arrived .up s) hb, he]; rfl
      · rw [hlay, lay_discardPlacement_releasing hr]
        exact ⟨rfl, rfl, rfl, rfl⟩
      · rw [hlay, lay_discardPlacement_held hh]
        exact discardHeld_before hp
      · rw [hlay, lay_discardPlacement_held hh]
        exact discardHeld_bed hp
      · rw [hlay, lay_discardPlacement_other hh hr]
        rfl

end Sys2Proof.Machine
end

section
/-! SUPPORT. The release gate at an outbound END arrival (R56, R57, R62): its conditions, what its judgement leaves of the lay
controller, and that the rest of the arrival leaves that alone; and the request for OPEN (R39, R58). -/

namespace Sys2Proof.Machine

variable {s : State} {k : Ticket} {d : Part}

/-! ### The conditions of the gate (R56) -/

theorem freshStamp_iff (last stamp : Option Word) :
    freshStamp last stamp = true ↔ ∃ n m, last = some n ∧ stamp = some m ∧ (n - m).toNat ≤ 2 := by
  cases last <;> cases stamp <;> simp [freshStamp]

theorem fineFresh_iff (s : State) (r : Role) : fineFresh s r = true ↔ ∃ i last m,
    entryOfRole r s = some i ∧ s.ring.lastCycle = some last ∧ (feedbackOf s i).stamp = some m ∧ (last - m).toNat ≤ 2 := by
  rw [fineFresh]
  cases entryOfRole r s <;> simp [freshStamp_iff]

/-- Every axis has a gate error, and it is within its tolerance. -/
theorem errWithin_iff (s : State) : errWithin s = true ↔ ∃ x y z w, s.stab.err = ⟨some x, some y, some z, some w⟩ ∧
    x.natAbs ≤ s.params.tolX ∧ y.natAbs ≤ s.params.tolY ∧ z.natAbs ≤ s.params.tolZ ∧ w.natAbs ≤ s.params.tolW := by
  simp only [errWithin, Bool.and_eq_true, within_iff]
  constructor
  · rintro ⟨⟨⟨⟨x, hx, bx⟩, y, hy, byy⟩, z, hz, bz⟩, w, hw, bw⟩
    exact ⟨x, y, z, w, by rw [← hx, ← hy, ← hz, ← hw], bx, byy, bz, bw⟩
  · rintro ⟨x, y, z, w, he, bx, byy, bz, bw⟩
    rw [he]
    exact ⟨⟨⟨⟨x, rfl, bx⟩, y, rfl, byy⟩, z, rfl, bz⟩, w, rfl, bw⟩

theorem quad_full_iff (q : Quad Bool) :
    q = ⟨true, true, true, true⟩ ↔ q.x = true ∧ q.y = true ∧ q.z = true ∧ q.w = true := by
  cases q; simp

/-- R128 for a user whose safe side is FALSE. -/
theorem resolve_false_iff (s : State) (i : Nat) : resolve false s i = true ↔ s.mgmt.unreadable.contains (37 + i) = false ∧
    ((termHeld s i).value = .isTrue ∨ (termHeld s i).value = .unknown ∧ (termHeld s i).unknownAs = true) := by
  rw [resolve, termUnreadable, termPart]
  cases s.mgmt.unreadable.contains (37 + i) <;> cases (termHeld s i).value <;> simp

/-- The conditions of R56 on a course and the content of its descriptor's first part. -/
def GateOpen (s : State) (course : Nat) (d : Part) : Prop :=
  s.line.state = .valid ∧ s.ctl.mode = .lay ∧
    (∀ r ∈ [Role.fineX, .fineY, .fineZ, .fineW], ∃ i last m, entryOfRole r s = some i ∧ s.ring.lastCycle = some last ∧
      (feedbackOf s i).stamp = some m ∧ (last - m).toNat ≤ 2) ∧
    (∃ x y z w, s.stab.err = ⟨some x, some y, some z, some w⟩ ∧ x.natAbs ≤ s.params.tolX ∧ y.natAbs ≤ s.params.tolY ∧
      z.natAbs ≤ s.params.tolZ ∧ w.natAbs ≤ s.params.tolW) ∧
    s.guard.outcome.noRelease = false ∧ s.axis.slot = ⟨true, true, true, true⟩ ∧ s.lay.asLaid.length < 64 ∧
    s.mgmt.unreadable.contains (197 + 2 * course + 1) = false ∧
    (field d 1 1 = 255 ∨ s.mgmt.unreadable.contains (37 + field d 1 1) = false ∧
      ((termHeld s (field d 1 1)).value = .isTrue ∨
        (termHeld s (field d 1 1)).value = .unknown ∧ (termHeld s (field d 1 1)).unknownAs = true))

/-- All of R56 but the course's term. -/
theorem gateConditions_iff (s : State) : gateConditions s = true ↔ s.line.state = .valid ∧ s.ctl.mode = .lay ∧
    (∀ r ∈ [Role.fineX, .fineY, .fineZ, .fineW], fineFresh s r = true) ∧ errWithin s = true ∧
    s.guard.outcome.noRelease = false ∧ s.axis.slot = ⟨true, true, true, true⟩ ∧ s.lay.asLaid.length < 64 := by
  simp only [gateConditions, Bool.and_eq_true, beq_iff_eq, Bool.not_eq_true', decide_eq_true_eq, quad_full_iff,
    List.forall_mem_cons, List.not_mem_nil, false_implies, implies_true, and_true]
  tauto

/-- The term condition of a course whose first part reads clean. -/
theorem courseTermOpen_iff {c : Nat} (h : PartClean s (coursePart c 0)) : courseTermOpen c (some d) s = true ↔
    s.mgmt.unreadable.contains (coursePart c 1) = false ∧ (field d 1 1 = 255 ∨ resolve false s (field d 1 1) = true) := by
  rw [courseTermOpen, courseUnreadable_eq, contains_of_partClean h, Bool.false_or]
  simp only [Bool.and_eq_true, Bool.not_eq_true', Bool.or_eq_true, beq_iff_eq]

/-- The model's test of the gate is R56. -/
theorem gateOpen_iff {c : Nat} (h : PartClean s (coursePart c 0)) :
    (courseTermOpen c (some d) s && gateConditions s) = true ↔ GateOpen s c d := by
  rw [Bool.and_eq_true, courseTermOpen_iff h, gateConditions_iff, errWithin_iff, resolve_false_iff]
  simp only [fineFresh_iff]
  unfold GateOpen coursePart
  tauto

/-! ### The judgement (R56, R57, R62) -/

theorem gateJudged_iff (s : State) : gateJudged s = true ↔ s.lay.phase = .settle ∧ s.ctl.mode.held = false := by
  simp [gateJudged]

theorem heldTicket_none (h : ∀ k ∈ s.track.tickets, k.state ≠ .held) : heldTicket s = none :=
  List.find?_eq_none.2 fun k hk => by simpa using h k hk

theorem judgeGate_none (h : heldTicket s = none) : judgeGate s = settleGate false s := by
  rw [judgeGate, h]

theorem judgeGate_clean (hk : heldTicket s = some k) (hc : PartClean s (coursePart k.course 0)) : judgeGate s =
    settleGate (courseTermOpen k.course (some (peekPart s (coursePart k.course 0))) s && gateConditions s) s := by
  rw [judgeGate, hk]
  simp only [readPart_clean s _ hc]
  rfl

/-- An open gate below K counts. -/
theorem openGate_below {l : Lay} {n : Nat} {st : Stab} (h : min 255 (l.gate + 1) < n) :
    l.openGate n st = { l with gate := min 255 (l.gate + 1) } :=
  if_neg (Nat.not_le.2 h)

/-- An open gate from K on counts, captures and asks for OPEN. -/
theorem openGate_from {l : Lay} {n : Nat} {st : Stab} (h : n ≤ min 255 (l.gate + 1)) : l.openGate n st =
    { l with gate := min 255 (l.gate + 1), capture := some (captureNow st), openPending := true } :=
  if_pos h

/-- In a hold, and out of SETTLE, no gate is judged. -/
theorem lay_gateAtEnd_unjudged (h : gateJudged s = false) : (gateAtEnd s).lay = { s.lay with gateDue := false } := by
  rw [gateAtEnd, h]
  rfl

theorem lay_gateAtEnd_closed (h : gateJudged s = true) (hd : s.lay.gateDue = false ∨ heldTicket s = none) :
    (gateAtEnd s).lay = { s.lay with gate := 0, openPending := false, gateDue := false } := by
  have hclose : (if s.lay.gateDue then judgeGate s else settleGate false s) = settleGate false s := by
    rcases hd with hd | hk
    · rw [hd]; rfl
    · rw [judgeGate_none hk, ite_self]
  rw [gateAtEnd, if_pos h, hclose]
  rfl

theorem lay_gateAtEnd_due (h : gateJudged s = true) (hd : s.lay.gateDue = true) (hk : heldTicket s = some k)
    (hc : PartClean s (coursePart k.course 0)) : (gateAtEnd s).lay =
      { (if courseTermOpen k.course (some (peekPart s (coursePart k.course 0))) s && gateConditions s then
          s.lay.openGate s.params.releaseK s.stab else s.lay.closeGate) with gateDue := false } := by
  rw [gateAtEnd, if_pos h, if_pos hd, judgeGate_clean hk hc]
  rfl

section
variable (h : gateJudged s = true) (hd : s.lay.gateDue = true) (hk : heldTicket s = some k)
  (hc : PartClean s (coursePart k.course 0))
include h hd hk hc

theorem lay_gateAtEnd_counts (ho : GateOpen s k.course (peekPart s (coursePart k.course 0)))
    (hlt : min 255 (s.lay.gate + 1) < s.params.releaseK) :
    (gateAtEnd s).lay = { s.lay with gate := min 255 (s.lay.gate + 1), gateDue := false } := by
  rw [lay_gateAtEnd_due h hd hk hc, if_pos ((gateOpen_iff hc).2 ho), openGate_below hlt]

theorem lay_gateAtEnd_captures (ho : GateOpen s k.course (peekPart s (coursePart k.course 0)))
    (hle : s.params.releaseK ≤ min 255 (s.lay.gate + 1)) : (gateAtEnd s).lay =
      { s.lay with
        gate := min 255 (s.lay.gate + 1), capture := some (captureNow s.stab), openPending := true, gateDue := false } := by
  rw [lay_gateAtEnd_due h hd hk hc, if_pos ((gateOpen_iff hc).2 ho), openGate_from hle]

theorem lay_gateAtEnd_shut (ho : ¬ GateOpen s k.course (peekPart s (coursePart k.course 0))) :
    (gateAtEnd s).lay = { s.lay with gate := 0, openPending := false, gateDue := false } := by
  rw [lay_gateAtEnd_due h hd hk hc, if_neg (mt (gateOpen_iff hc).1 ho)]
  rfl

end

/-! ### The END arrival -/

theorem lay_judgeSlot (r : Role) (s : State) : (judgeSlot r s).lay = s.lay := by
  unfold judgeSlot
  split
  · rfl
  · dsimp only
    split
    · rfl
    · split <;> rfl

theorem lay_outboundEnd (s : State) : (outboundEnd s).lay = (gateAtEnd s).lay := by
  rw [outboundEnd, judgeSlots, clearSlots, State.setAxis_lay]
  simp only [lay_judgeSlot]

theorem lay_enqueue (p : Port) (c : Cell) (s : State) : (enqueue p c s).lay = s.lay := by
  obtain ⟨r, hr⟩ := enqueue_eq p c s
  rw [hr, State.setRing_lay]

theorem passUp_end {c : Cell} (h : c.kind = kindEnd) (s : State) : passUp c s = enqueue .down c (outboundEnd s) := by
  have htrain : ¬ kindEnd = kindTrain := by decide
  have hset : ¬ kindEnd = kindSet := by decide
  have hmgt : ¬ kindEnd = kindMgt := by decide
  rw [passUp, h, if_neg htrain, if_neg hset, if_neg hmgt, if_pos rfl]

/-- An outbound END arrival judges the gate, and nothing else of it reaches the lay controller (R141). -/
theorem exec_outboundEnd_lay (h : Synced .up s) (dst src flags : Byte) (payload : BitVec 192) :
    ∃ t, exec (.outboundEndArrival dst src flags payload) s = .next t ∧ t.lay = (gateAtEnd (arrived .up s)).lay := by
  have hgood := isGood_goodCell dst src kindEnd flags payload
  refine ⟨_, congrArg Host.Outcome.next ((receive_good .up _ s h hgood).trans (passUp_end rfl _)), ?_⟩
  rw [lay_enqueue, lay_outboundEnd]

/-! ### The request for OPEN (R39, R58) -/

theorem openRequested_iff (s : State) : openRequested s = true ↔
    s.ctl.mode = .lay ∧ s.line.state = .valid ∧ s.lay.phase = .settle ∧ s.lay.openPending = true := by
  simp only [openRequested, Bool.and_eq_true, progressAllowed_iff, beq_iff_eq, and_assoc]
  refine ⟨fun ⟨_, hline, hmode, hrest⟩ => ⟨hmode, hline, hrest⟩, fun ⟨hmode, hline, hrest⟩ => ⟨?_, hline, hmode, hrest⟩⟩
  rw [hmode]
  rfl

/-- R31 for OPEN: the gripper is free, and the mode is LAY or GUARD. -/
theorem mayIssue_open_iff (s : State) : mayIssue .openJaws .gripper s = true ↔
    ((s.track.station .gripper).inflight = none ∧ (s.track.station .gripper).stall = .none) ∧
      (s.ctl.mode = .lay ∨ s.ctl.mode = .guard) := by
  rw [mayIssue_iff]
  constructor
  · rintro ⟨hidle, hclear, hmode⟩
    exact ⟨⟨hidle, hclear _ List.mem_cons_self⟩, hmode.imp_right And.left⟩
  · rintro ⟨⟨hidle, hstall⟩, hmode⟩
    exact ⟨hidle, fun _ h => List.mem_singleton.1 h ▸ hstall, hmode.imp_right fun h => ⟨h, by decide, by decide⟩⟩

/-- The request is granted: OPEN goes in flight for the HELD ticket, and the lay controller enters RELEASE. -/
theorem requestOpen_granted {timeout : Nat} (hr : openRequested s = true) (hk : heldTicket s = some k)
    (hm : mayIssue .openJaws .gripper s = true) (hf : Fitted s .gripper timeout) : requestOpen s =
      (launched .openJaws k (BitVec.ofNat 32 k.lay) timeout (fun x => { x with state := .releasing }) s).setLay
        s.lay.enterRelease := by
  rw [requestOpen, hr, hk]
  simp only [hm, if_true, stationEntry_fitted s .gripper timeout hf]
  rw [← launch_setTicket]
  rfl

theorem requestOpen_unasked (h : openRequested s = false ∨ heldTicket s = none) : requestOpen s = s := by
  rw [requestOpen]
  split
  · rename_i hr hk
    rcases h with h | h
    · rw [h] at hr; cases hr
    · rw [h] at hk; cases hk
  · rfl

theorem requestOpen_declined (h : mayIssue .openJaws .gripper s = false ∨ entryOfRole .gripper s = none) :
    requestOpen s = s := by
  rw [requestOpen]
  split
  · rcases h with h | h
    · rw [h]; rfl
    · rw [stationEntry_none s .gripper h, ite_self]
  · rfl

/-- Settles O14: the gate of `gateAtEnd` is judged by R56, and the request for OPEN is granted to a free gripper. -/
theorem secondEndClosesTheGate : Obligations.SecondEndClosesTheGate := by
  refine ⟨fun s dst src flags payload hsync => ?_, fun s asked hasked => ?_⟩
  · obtain ⟨t, he, hlay⟩ := exec_outboundEnd_lay hsync dst src flags payload
    refine ⟨fun hp hm hd => ⟨t, he, hlay.trans ?_⟩, fun hm => ⟨t, he, hlay.trans ?_⟩, ?_⟩
    · exact lay_gateAtEnd_closed ((gateJudged_iff _).2 ⟨hp, hm⟩) (hd.imp_right heldTicket_none)
    · exact lay_gateAtEnd_unjudged (Bool.eq_false_iff.2 fun h =>
        Bool.false_ne_true (((gateJudged_iff _).1 h).2.symm.trans hm))
    · rintro k d n isOpen hp hm hd hk hc rfl rfl hopen
      have hj : gateJudged (arrived .up s) = true := (gateJudged_iff _).2 ⟨hp, hm⟩
      refine ⟨t, he, fun ho hlt => ?_, fun ho hle => ?_, fun ho => ?_⟩
      · exact hlay.trans (lay_gateAtEnd_counts hj hd hk hc (hopen.1 ho) hlt)
      · exact hlay.trans (lay_gateAtEnd_captures hj hd hk hc (hopen.1 ho) hle)
      · exact hlay.trans (lay_gateAtEnd_shut hj hd hk hc (mt hopen.2 ho))
  · rw [← openRequested_iff] at hasked
    refine ⟨fun k timeout ha hk hi hs hf => ?_, ?_⟩
    · have hr := hasked.1 ha
      have hmode := ((openRequested_iff s).1 hr).1
      exact requestOpen_granted hr hk ((mayIssue_open_iff s).2 ⟨⟨hi, hs⟩, .inl hmode⟩) hf
    · have hbusy : ¬ ((s.track.station .gripper).inflight = none ∧ (s.track.station .gripper).stall = .none) →
          mayIssue .openJaws .gripper s = false := fun h =>
        Bool.eq_false_iff.2 fun hm => h ((mayIssue_open_iff s).1 hm).1
      rintro (h | h | h | h | h)
      · exact requestOpen_unasked (.inl (Bool.eq_false_iff.2 (mt hasked.2 h)))
      · exact requestOpen_unasked (.inr h)
      · exact requestOpen_declined (.inl (hbusy fun hf => h hf.1))
      · exact requestOpen_declined (.inl (hbusy fun hf => h hf.2))
      · exact requestOpen_declined (.inr h)

end Sys2Proof.Machine
end

section
/-! SUPPORT. A TRAIN arrival with no part of table memory in error: the work ahead of the stabilizer leaves table memory as it was,
the fine axes are what their parts say, and every command keeps its stroke and its step (R77, R78, R81). -/

namespace Sys2Proof.Machine

variable {s t u : State}

/-! ### Work that leaves table memory and its markings (R129, R178) -/

theorem TableClean.partClean (h : TableClean s) (n : Nat) : PartClean s n :=
  ⟨by rw [h.flips]; rfl, by rw [h.flips]; rfl, by rw [partMarked, h.unreadable, h.poisoned]; rfl⟩

/-- Table memory and the markings of its parts in `t` are those of `s`. -/
structure ReadsAs (s t : State) : Prop where
  mem : t.mem = s.mem
  marked : partMarked t = partMarked s

theorem ReadsAs.trans (h : ReadsAs s t) (h' : ReadsAs t u) : ReadsAs s u :=
  ⟨h'.mem.trans h.mem, h'.marked.trans h.marked⟩

theorem ReadsAs.partClean (h : ReadsAs s t) {n : Nat} (hc : PartClean s n) : PartClean t n := by
  unfold PartClean
  rw [h.mem, h.marked]
  exact hc

theorem readsAs_report (s : State) : ReadsAs s (report s) :=
  ⟨congrArg Prod.fst (tables_report s), marked_report s⟩

theorem ReadsAs.noted (h : ReadsAs s t) (i : Nat) : ReadsAs s (noteTerm i t) := by
  have hlatch : ReadsAs t (latch .termHold i t) := ⟨rfl, rfl⟩
  unfold noteTerm
  dsimp only
  split
  · exact (h.trans hlatch).trans (readsAs_report _)
  · exact h.trans (readsAs_report _)

/-- The evaluation of a term whose part is clean (R128, R129). -/
theorem evalTerm_clean {i : Nat} (h : PartClean s (termPart i)) : ∃ x, evalTerm i s = noteTerm i (setHeld i x s) := by
  unfold evalTerm
  rw [readPart_clean s _ h]
  exact ⟨_, rfl⟩

theorem readsAs_evalTerms (l : List Nat) (h : ∀ n, PartClean s n) : ReadsAs s (evalTerms l s) := by
  unfold evalTerms
  induction l generalizing s with
  | nil => exact ⟨rfl, rfl⟩
  | cons i l ih =>
    obtain ⟨x, hx⟩ := evalTerm_clean (h (termPart i))
    have hset : ReadsAs s (setHeld i x s) := ⟨rfl, rfl⟩
    have hi : ReadsAs s (evalTerm i s) := hx ▸ hset.noted i
    exact hi.trans (ih fun n => hi.partClean (h n))

/-- A scrub read that finds a clean part changes the management unit's own position and counts alone (R178). -/
theorem scrubStep_clean (h : PartClean s s.mgmt.scrub) :
    ∃ m, scrubStep s = s.setMgmt m ∧ m.unreadable = s.mgmt.unreadable := by
  unfold scrubStep
  dsimp only
  rw [readPart_clean s _ h]
  split
  · rename_i hn
    cases hn
  · exact ⟨_, rfl, rfl⟩

theorem readsAs_scrubStep (h : PartClean s s.mgmt.scrub) : ReadsAs s (scrubStep s) := by
  obtain ⟨m, hm, hu⟩ := scrubStep_clean h
  refine ⟨by rw [hm, State.setMgmt_mem], funext fun n => ?_⟩
  rw [hm, partMarked, State.setMgmt_mgmt, hu, State.setMgmt_guard, partMarked]

theorem readsAs_gateAtTrain (s : State) : ReadsAs s (gateAtTrain s) := by
  unfold gateAtTrain settleGate; dsimp only; split <;> exact ⟨rfl, rfl⟩

theorem readsAs_approachIfHeld (s : State) : ReadsAs s (approachIfHeld s) := by
  unfold approachIfHeld; split <;> exact ⟨rfl, rfl⟩

theorem readsAs_offsetStep (s : State) : ReadsAs s (offsetStep s) := by
  unfold offsetStep; dsimp only; split
  · split <;> exact ⟨rfl, rfl⟩
  · exact ⟨rfl, rfl⟩

/-- With no part in error, a TRAIN arrival comes to the stabilizer's computation with table memory as it was (log entry 7). -/
theorem readsAs_beforeStab (l : List Nat) (cycle : Word) (period : Half) (h : ∀ n, PartClean s n) :
    ReadsAs s (beforeStab l cycle period s) := by
  have hb : ReadsAs s (beginTrain cycle period s) := ⟨rfl, rfl⟩
  have hg := hb.trans (readsAs_gateAtTrain _)
  have he := hg.trans (readsAs_evalTerms l fun n => hg.partClean (h n))
  have hs := he.trans (readsAs_scrubStep (he.partClean (h _)))
  exact (hs.trans (readsAs_approachIfHeld _)).trans (readsAs_offsetStep _)

/-! ### The fine axes (R81) -/

/-- The fine axis of a role as table memory and the feedback store give it, none without a readable entry. -/
def fineAt (s : State) (r : Role) : Option FineAxis :=
  (entryOfRole r s).map fun i =>
    { stroke := (axisRec (peekPart s (axisPart i))).a, step := (axisRec (peekPart s (axisPart i))).b, actual := actualOf s i }

theorem fineAt_some {r : Role} {i : Nat} (h : entryOfRole r s = some i) : fineAt s r =
    some { stroke := (axisRec (peekPart s (axisPart i))).a, step := (axisRec (peekPart s (axisPart i))).b,
           actual := actualOf s i } := by
  rw [fineAt, h]; rfl

/-- The four fine axes as table memory and the feedback store give them. -/
def finesAt (s : State) : Quad (Option FineAxis) := Quad.map (fineAt s) fineRoles

theorem readFine_clean (h : ∀ n, PartClean s n) (r : Role) : readFine r s = (fineAt s r, s) := by
  unfold readFine fineAt
  cases entryOfRole r s with
  | none => rfl
  | some i => simp only [readAxis, readPart_clean s _ (h (axisPart i))]; rfl

theorem readFines_clean (h : ∀ n, PartClean s n) : readFines s = (finesAt s, s) := by
  simp only [readFines, readFine_clean h]
  rfl

theorem entryOfRole_congr (hi : t.axis.index = s.axis.index) (hu : ∀ i, axisUnreadable t i = axisUnreadable s i) (r : Role) :
    entryOfRole r t = entryOfRole r s := by
  simp only [entryOfRole, hi, hu]

theorem axisUnreadable_clean (h : ∀ n, PartClean s n) (i : Nat) : axisUnreadable s i = false :=
  contains_of_partClean (h (axisPart i))

theorem finesAt_congr (h : ∀ n, PartClean s n) (hr : ReadsAs s t) (hi : t.axis.index = s.axis.index)
    (hf : t.axis.feedback = s.axis.feedback) : finesAt t = finesAt s := by
  have hu : ∀ i, axisUnreadable t i = axisUnreadable s i := fun i => by
    rw [axisUnreadable_clean h, axisUnreadable_clean fun n => hr.partClean (h n)]
  have hpeek : peekPart t = peekPart s := funext fun n => by rw [peekPart, hr.mem, peekPart]
  have hactual : actualOf t = actualOf s := funext fun i => by rw [actualOf, feedbackOf, hf]; rfl
  have hfine : fineAt t = fineAt s := funext fun r => by rw [fineAt, entryOfRole_congr hi hu, hpeek, hactual, fineAt]
  rw [finesAt, hfine, finesAt]

theorem finesAt_beforeStab (l : List Nat) (cycle : Word) (period : Half) (h : ∀ n, PartClean s n) :
    finesAt (beforeStab l cycle period s) = finesAt s := by
  obtain ⟨-, -, -, haxis, -⟩ := (quiet_eq _ _).1 (quiet_beforeStab l cycle period s)
  exact finesAt_congr h (readsAs_beforeStab l cycle period h) (by rw [haxis]; rfl) (by rw [haxis]; rfl)

/-- The stabilizer's computation on clean parts, with a sample to work from and without (R69, R70). -/
theorem stab_stabCompute_clean (h : ∀ n, PartClean s n) (fr : Bool) : (stabCompute fr s).stab =
    match stageSample s with
    | none => { s.stab with cPrev := s.stab.c }
    | some k => stagesOf fr k (finesAt s) s := by
  simp only [stabCompute, readFines_clean h]
  cases stageSample s <;> rfl

/-! ### Strokes and steps (R77, R78) -/

/-- A command moves by the step of its axis at most, and stays within the stroke. -/
def KeepsStroke (f : FineAxis) (c c' : Int) : Prop :=
  (c' - c).natAbs ≤ f.step ∧ (c.natAbs ≤ f.stroke → c'.natAbs ≤ f.stroke)

theorem KeepsStroke.rfl' (f : FineAxis) (c : Int) : KeepsStroke f c c :=
  ⟨by rw [Int.sub_self]; exact Nat.zero_le _, id⟩

theorem natAbs_sat_le (n : Nat) (v : Int) : (sat (-(n : Int)) n v).natAbs ≤ n := by
  unfold sat; omega

theorem natAbs_targetOf_le (phase : Phase) (reach : Option Bool) (e : Option Int) (n : Nat) :
    (targetOf phase reach e n).natAbs ≤ n := by
  cases phase with
  | idle => exact Nat.zero_le _
  | approach =>
    rw [targetOf]
    split
    · exact natAbs_sat_le _ _
    · exact Nat.zero_le _
  | descend | settle | release | lift => exact natAbs_sat_le _ _

/-- A step toward a target within the stroke keeps the stroke. -/
theorem keepsStroke_stepCommand (f : FineAxis) (c : Int) {g : Int} (hg : g.natAbs ≤ f.stroke) :
    KeepsStroke f c (stepCommand c g f.step) := by
  unfold KeepsStroke stepCommand sat
  omega

/-- Each fine axis that has an entry keeps its stroke and its step. -/
structure Moves (fines : Quad (Option FineAxis)) (c c' : Quad Int) : Prop where
  x : ∀ f, fines.x = some f → KeepsStroke f c.x c'.x
  y : ∀ f, fines.y = some f → KeepsStroke f c.y c'.y
  z : ∀ f, fines.z = some f → KeepsStroke f c.z c'.z
  w : ∀ f, fines.w = some f → KeepsStroke f c.w c'.w

theorem Moves.rfl' (fines : Quad (Option FineAxis)) (c : Quad Int) : Moves fines c c :=
  ⟨fun f _ => .rfl' f _, fun f _ => .rfl' f _, fun f _ => .rfl' f _, fun f _ => .rfl' f _⟩

theorem moves_commandAll (fr : Bool) (phase : Phase) (reach : Option Bool) (e : Quad (Option Int))
    (fines : Quad (Option FineAxis)) (c : Quad Int) : Moves fines c (commandAll fr phase reach e fines c) := by
  have haxis : ∀ (d : Option Int) (o : Option FineAxis) (v : Int) f, o = some f →
      KeepsStroke f v (commandOf phase reach d o v) := by
    rintro d _ v f rfl
    exact keepsStroke_stepCommand f v (natAbs_targetOf_le phase reach d f.stroke)
  cases fr with
  | true => exact .rfl' fines c
  | false => exact ⟨haxis _ _ _, haxis _ _ _, haxis _ _ _, haxis _ _ _⟩

theorem moves_stabCompute (h : ∀ n, PartClean s n) (fr : Bool) :
    Moves (finesAt s) s.stab.c (stabCompute fr s).stab.c := by
  rw [stab_stabCompute_clean h]
  cases stageSample s with
  | none => exact .rfl' _ _
  | some k => exact moves_commandAll fr _ _ _ _ _

/-! ### The arrival -/

theorem stab_outboundTrain_eq (cycle : Word) (period : Half) (s : State) : (outboundTrain cycle period s).stab =
    (stabCompute (frozen s) (beforeStab (List.range 32) cycle period s)).stab := by
  obtain ⟨-, -, -, -, hstab, -, -⟩ := (steady_eq _ _).1 (steady_outboundTrain cycle period s)
  exact hstab.trans (State.setStab_stab _ _)

theorem stab_beforeStab (l : List Nat) (cycle : Word) (period : Half) (s : State) :
    (beforeStab l cycle period s).stab = s.stab := by
  obtain ⟨-, -, -, -, hstab, -⟩ := (quiet_eq _ _).1 (quiet_beforeStab l cycle period s)
  exact hstab

theorem moves_outboundTrain (cycle : Word) (period : Half) (h : ∀ n, PartClean s n) :
    Moves (finesAt s) s.stab.c (outboundTrain cycle period s).stab.c := by
  have hclean : ∀ n, PartClean (beforeStab (List.range 32) cycle period s) n := fun n =>
    (readsAs_beforeStab _ cycle period h).partClean (h n)
  have hm := moves_stabCompute hclean (frozen s)
  rwa [finesAt_beforeStab _ cycle period h, stab_beforeStab, ← stab_outboundTrain_eq] at hm

/-- An outbound TRAIN arrival is a train of the other blocks, and its cell is passed on (R138, R140). -/
theorem exec_outboundTrain_stab (h : Synced .up s) (dst src flags : Byte) (hf : flags.getLsbD 0 = false) (cycle : Word)
    (period : Half) (rest : BitVec 144) : ∃ t, exec (.outboundTrainArrival dst src flags cycle period rest) s = .next t ∧
      t.stab = (outboundTrain cycle period (arrived .up s)).stab := by
  have hgood := isGood_goodCell dst src kindTrain flags (trainPayload cycle period rest)
  refine ⟨_, congrArg Host.Outcome.next (receive_good .up _ s h hgood), ?_⟩
  have hret : isReturn (goodCell dst src kindTrain flags (trainPayload cycle period rest)) = false := hf
  rw [passGood, passUp, goodCell_kind, if_pos rfl, passTrain, hret, trainPayload_cycle, trainPayload_period]
  obtain ⟨r, hr⟩ := enqueue_eq .down (goodCell dst src kindTrain flags (trainPayload cycle period rest))
    (outboundTrain cycle period (arrived .up s))
  simp only [Bool.false_eq_true, if_false, hr, State.setRing_stab]

end Sys2Proof.Machine
end

section
/-! SUPPORT. The whole of the stabilizer at a TRAIN arrival out of every hold (R71 to R80): with no cause of a hold and no part in
error nothing ahead of the computation changes the mode, and the stages are what the rules give. -/

namespace Sys2Proof.Machine

variable {s t : State}

/-! ### No cause of a hold (R131, R183) -/

/-- No cause of a hold is active, and no term is the global hold term. -/
structure Calm (s : State) : Prop where
  term : s.params.holdTerm = 255
  causes : s.ctl.conditions = ⟨false, false, false, false⟩
  sources : conditionsNow s = ⟨false, false, false, false⟩

theorem Watched.calmState (h : Watched s) (hm : s.ctl.mode.held = false) (ht : s.params.holdTerm = 255) : Calm s :=
  ⟨ht, h.calm hm, h.causes.symm.trans (h.calm hm)⟩

theorem report_calm (h : Calm s) : report s = s := by
  have htake : takeCauses s = s := by rw [takeCauses, h.sources, ← h.causes]; rfl
  unfold report
  dsimp only
  rw [htake, h.causes]
  simp [Conditions.any]

theorem Calm.setTerms (h : Calm s) (v : Terms) : Calm (s.setTerms v) := by
  refine ⟨h.term, h.causes, ?_⟩
  rw [← h.sources]
  simp only [conditionsNow, termCause, State.setTerms_params, h.term]
  rfl

/-- The evaluation of a term that is not the hold term changes the terms alone. -/
theorem evalTerm_calm {i : Nat} (h : Calm s) (hi : i ≠ 255) (hc : PartClean s (termPart i)) :
    ∃ v, evalTerm i s = s.setTerms v := by
  obtain ⟨x, hx⟩ := evalTerm_clean hc
  refine ⟨{ s.terms with held := s.terms.held.setIfInBounds i x }, hx.trans ?_⟩
  have hset : Calm (setHeld i x s) := h.setTerms _
  have hterm : (setHeld i x s).params.holdTerm ≠ i := fun e => hi (e.symm.trans h.term)
  rw [noteTerm]
  simp only [decide_eq_false hterm, Bool.false_and, Bool.false_eq_true, if_false, report_calm hset]
  rfl

theorem evalTerms_calm {l : List Nat} (hl : ∀ i ∈ l, i ≠ 255) (h : Calm s) (hc : ∀ n, PartClean s n) :
    ∃ v, evalTerms l s = s.setTerms v := by
  unfold evalTerms
  induction l generalizing s with
  | nil => exact ⟨s.terms, rfl⟩
  | cons i l ih =>
    obtain ⟨v, hv⟩ := evalTerm_calm h (hl i List.mem_cons_self) (hc _)
    obtain ⟨w, hw⟩ := ih (fun j hj => hl j (List.mem_cons_of_mem _ hj)) (h.setTerms v) hc
    exact ⟨w, by rw [List.foldl_cons, hv, hw, State.setTerms_twice]⟩

/-! ### The placement as the stabilizer sees it (R50, R52) -/

/-- What the stabilizer takes from the lay controller: the phase, O_z and the target (R75 to R77). -/
def place (l : Lay) : Phase × Nat × Option Target := (l.phase, l.oz, l.target)

theorem place_eq (l m : Lay) : place l = place m ↔ l.phase = m.phase ∧ l.oz = m.oz ∧ l.target = m.target := by
  simp [place]

/-- What the offset step takes from the other blocks. -/
structure SameGround (s t : State) : Prop where
  bed : place t.lay = place s.lay
  mode : t.ctl.mode = s.ctl.mode
  tracker : t.line.state = s.line.state
  tickets : t.track = s.track
  params : t.params = s.params

theorem place_approachIfHeld (h : SameGround s t) : place (approachIfHeld t).lay = place (approachIfHeld s).lay := by
  obtain ⟨hphase, -, htarget⟩ := (place_eq _ _).1 h.bed
  have hheld : heldTicket t = heldTicket s := by rw [heldTicket, h.tickets, heldTicket]
  rw [approachIfHeld, approachIfHeld, hphase, h.mode, hheld, h.params]
  split
  · exact (place_eq _ _).2 ⟨rfl, rfl, htarget⟩
  · exact h.bed

theorem params_of_quiet (h : quiet t = quiet s) : t.params = s.params := by
  obtain ⟨-, -, -, -, -, -, -, hparams, -⟩ := (quiet_eq t s).1 h
  exact hparams

theorem SameGround.approached (h : SameGround s t) : SameGround (approachIfHeld s) (approachIfHeld t) := by
  have hline : ∀ x, (approachIfHeld x).line.state = x.line.state := fun x => congrArg Prod.fst (track4_approachIfHeld x)
  have hctl : ∀ x, (approachIfHeld x).ctl = x.ctl := fun x => (approachIfHeld_frame x).2.1
  have hparams : ∀ x, (approachIfHeld x).params = x.params := fun x => params_of_quiet (quiet_approachIfHeld x)
  have htrack : ∀ x, (approachIfHeld x).track = x.track := fun x => (approachIfHeld_frame x).1
  exact ⟨place_approachIfHeld h, by rw [hctl, hctl, h.mode], by rw [hline, hline, h.tracker],
    by rw [htrack, htrack, h.tickets], by rw [hparams, hparams, h.params]⟩

theorem place_countSettle (l : Lay) : place l.countSettle = place l := by
  unfold Lay.countSettle; split <;> rfl

theorem place_descend {l m : Lay} (h : place l = place m) (step : Nat) (w v : Word) :
    place (l.descend step w) = place (m.descend step v) := by
  obtain ⟨hphase, hoz, htarget⟩ := (place_eq _ _).1 h
  rw [Lay.descend, Lay.descend, hoz]
  split
  · exact (place_eq _ _).2 ⟨rfl, rfl, htarget⟩
  · exact (place_eq _ _).2 ⟨hphase, rfl, htarget⟩

theorem place_lift {l m : Lay} (h : place l = place m) (step hover : Nat) :
    place (l.lift step hover) = place (m.lift step hover) := by
  obtain ⟨hphase, hoz, htarget⟩ := (place_eq _ _).1 h
  rw [Lay.lift, Lay.lift, hoz]
  split
  · rfl
  · exact (place_eq _ _).2 ⟨hphase, rfl, htarget⟩

/-- R50 stage 1 gives the same phase, O_z and target from the same ones. -/
theorem place_offsetStep (h : SameGround s t) : place (offsetStep t).lay = place (offsetStep s).lay := by
  have hgo : progressAllowed t = progressAllowed s := by rw [progressAllowed, h.mode, h.tracker, progressAllowed]
  have hl : place t.lay.countSettle = place s.lay.countSettle := by
    rw [place_countSettle, place_countSettle, h.bed]
  have hphase : t.lay.countSettle.phase = s.lay.countSettle.phase := ((place_eq _ _).1 hl).1
  unfold offsetStep
  dsimp only
  rw [hgo, hphase, h.params]
  split
  · split
    · exact place_descend hl _ _ _
    · exact place_lift hl _ _
    · exact hl
  · exact hl

theorem gateAtTrain_frame (s : State) : ∃ l, gateAtTrain s = s.setLay l ∧ place l = place s.lay := by
  unfold gateAtTrain settleGate
  dsimp only
  split <;> exact ⟨_, rfl, rfl⟩

/-- Out of every hold, with no part in error, the gate, the terms and the scrub of a TRAIN arrival change the lay controller in
its gate alone (log entry 7). -/
theorem sameGround_scrubbed {l : List Nat} (hl : ∀ i ∈ l, i ≠ 255) (cycle : Word) (period : Half) (h : Calm s)
    (hc : ∀ n, PartClean s n) :
    SameGround s (scrubStep (evalTerms l (gateAtTrain (beginTrain cycle period s)))) := by
  obtain ⟨g, hg, hplace⟩ := gateAtTrain_frame (beginTrain cycle period s)
  have hcalm : Calm ((beginTrain cycle period s).setLay g) := ⟨h.term, h.causes, h.sources⟩
  obtain ⟨v, hv⟩ := evalTerms_calm hl hcalm hc
  have hclean : ∀ n, PartClean (((beginTrain cycle period s).setLay g).setTerms v) n := hc
  obtain ⟨m, hm, -⟩ := scrubStep_clean (hclean _)
  rw [hg, hv, hm]
  exact ⟨hplace, rfl, rfl, rfl, rfl⟩

theorem place_beforeStab {l : List Nat} (hl : ∀ i ∈ l, i ≠ 255) (cycle : Word) (period : Half) (h : Calm s)
    (hc : ∀ n, PartClean s n) :
    place (beforeStab l cycle period s).lay = place (offsetStep (approachIfHeld s)).lay :=
  place_offsetStep (sameGround_scrubbed hl cycle period h hc).approached

/-! ### The stages, each as its rule gives it -/

/-- The samples give no velocity: a re-anchored one, or an interval out of 200 µs … 50 ms (R71). -/
def Still (k j : Sample) : Prop := k.reanchor = true ∨ sampleInterval k j < 200 ∨ 50000 < sampleInterval k j

theorem still_iff (k j : Sample) :
    (k.reanchor || decide (sampleInterval k j < 200) || decide (50000 < sampleInterval k j)) = true ↔ Still k j := by
  simp only [Bool.or_eq_true, decide_eq_true_eq, or_assoc, Still]

theorem velocity_still {k j : Sample} (h : Still k j) : velocity k (some j) = ⟨0, 0, 0, 0⟩ :=
  if_pos ((still_iff k j).2 h)

theorem velocity_moving {k j : Sample} (h : ¬ Still k j) : velocity k (some j) =
    ⟨velocityOf k.x j.x (sampleInterval k j), velocityOf k.y j.y (sampleInterval k j),
      velocityOf k.z j.z (sampleInterval k j), 0⟩ :=
  if_neg (mt (still_iff k j).1 h)

/-- R71: the velocity, from the previous sample where it counts. -/
theorem velocity_unique {k : Sample} {prev : Option Sample} {v : Quad Int}
    (hmoving : ∀ j, prev = some j → k.reanchor = false → 200 ≤ (k.tm - j.tm).toInt → (k.tm - j.tm).toInt ≤ 50000 →
      v = ⟨max (-2000) (min 2000 (((k.x - j.x) * 1000).tdiv (k.tm - j.tm).toInt)),
        max (-2000) (min 2000 (((k.y - j.y) * 1000).tdiv (k.tm - j.tm).toInt)),
        max (-2000) (min 2000 (((k.z - j.z) * 1000).tdiv (k.tm - j.tm).toInt)), 0⟩)
    (hstill : prev = none ∨ k.reanchor = true ∨
      (∃ j, prev = some j ∧ ((k.tm - j.tm).toInt < 200 ∨ 50000 < (k.tm - j.tm).toInt)) → v = ⟨0, 0, 0, 0⟩) :
    v = velocity k prev := by
  cases prev with
  | none => exact hstill (.inl rfl)
  | some j =>
    by_cases h : Still k j
    · rw [velocity_still h]
      exact hstill (.inr (h.imp_right fun hdt => ⟨j, rfl, hdt⟩))
    · obtain ⟨hanchor, hdt⟩ := not_or.1 h
      obtain ⟨hlow, hhigh⟩ := not_or.1 hdt
      rw [velocity_moving h]
      exact hmoving j rfl (Bool.eq_false_iff.2 hanchor) (Int.not_lt.1 hlow) (Int.not_lt.1 hhigh)

/-- R75: E with no target and with one. -/
def errorsOf (g : Option Target) (oz : Nat) (p : Quad Int) (fines : Quad (Option FineAxis)) : Quad (Option Int) :=
  match g with
  | some t => errorAll t oz p fines
  | none => Quad.all none

/-- R80: Err with no target and with one. -/
def gateErrorsOf (g : Option Target) (oz : Nat) (q : Quad Int) (fines : Quad (Option FineAxis)) : Quad (Option Int) :=
  match g with
  | some t => gateErrorAll t oz q fines
  | none => Quad.all none

theorem errorsOf_unique {g : Option Target} {oz : Nat} {p : Quad Int} {fines : Quad (Option FineAxis)} {e : Quad (Option Int)}
    (hnone : g = none → e = ⟨none, none, none, none⟩)
    (hsome : ∀ t, g = some t → e = ⟨fines.x.map fun _ => sat32 (t.x - p.x), fines.y.map fun _ => sat32 (t.y - p.y),
      fines.z.map fun _ => sat32 (t.z + oz - p.z), fines.w.map fun _ => wrapYaw (t.w - p.w)⟩) :
    e = errorsOf g oz p fines := by
  cases g with
  | none => exact hnone rfl
  | some t => rw [hsome t rfl]; simp only [errorsOf, errorAll, errorOf, Int.add_zero]

theorem gateErrorsOf_unique {g : Option Target} {oz : Nat} {q : Quad Int} {fines : Quad (Option FineAxis)}
    {err : Quad (Option Int)} (hnone : g = none → err = ⟨none, none, none, none⟩)
    (hsome : ∀ t, g = some t → err = gateErrorAll t oz q fines) : err = gateErrorsOf g oz q fines := by
  cases g with
  | none => exact hnone rfl
  | some t => exact hsome t rfl

/-- An axis with an E has an entry. -/
structure Entered (e : Quad (Option Int)) (fines : Quad (Option FineAxis)) : Prop where
  x : fines.x = none → e.x = none
  y : fines.y = none → e.y = none
  z : fines.z = none → e.z = none
  w : fines.w = none → e.w = none

theorem entered_errorsOf (g : Option Target) (oz : Nat) (p : Quad Int) (fines : Quad (Option FineAxis)) :
    Entered (errorsOf g oz p fines) fines := by
  cases g with
  | none => exact ⟨fun _ => rfl, fun _ => rfl, fun _ => rfl, fun _ => rfl⟩
  | some g =>
    exact ⟨fun h => Option.map_eq_none_iff.2 h, fun h => Option.map_eq_none_iff.2 h, fun h => Option.map_eq_none_iff.2 h,
      fun h => Option.map_eq_none_iff.2 h⟩

theorem axisReach_none (m : Nat) (f : Option FineAxis) : axisReach m none f = none := by
  cases f <;> rfl

/-- The verdict is absent when an axis has no E (R76). -/
theorem reachVerdict_absent {m : Nat} {e : Quad (Option Int)} {fines : Quad (Option FineAxis)}
    (h : e.x = none ∨ e.y = none ∨ e.z = none ∨ e.w = none) : reachVerdict m e fines = none := by
  have hleft : ∀ b, bothReach none b = none := fun b => rfl
  have hright : ∀ b, bothReach b none = none := fun b => by cases b <;> rfl
  rw [reachVerdict]
  rcases h with h | h | h | h <;> rw [h] <;> simp only [axisReach_none, hleft, hright]

/-- R76: the verdict, when every axis has an E and when one has none. -/
theorem reachVerdict_unique {m : Nat} {e : Quad (Option Int)} {fines : Quad (Option FineAxis)} {reach : Option Bool}
    (hentered : Entered e fines)
    (hall : ∀ ex ey ez ew fx fy fz fw, e = ⟨some ex, some ey, some ez, some ew⟩ →
      fines = ⟨some fx, some fy, some fz, some fw⟩ →
      reach = some (decide ((ex.natAbs : Int) ≤ (fx.stroke : Int) - m ∧ (ey.natAbs : Int) ≤ (fy.stroke : Int) - m ∧
        (ez.natAbs : Int) ≤ (fz.stroke : Int) - m ∧ ew.natAbs ≤ fw.stroke)))
    (hnone : e.x = none ∨ e.y = none ∨ e.z = none ∨ e.w = none → reach = none) :
    reach = reachVerdict m e fines := by
  by_cases hsome : e.x = none ∨ e.y = none ∨ e.z = none ∨ e.w = none
  · rw [hnone hsome, reachVerdict_absent hsome]
  · obtain ⟨hx, hy, hz, hw⟩ : e.x ≠ none ∧ e.y ≠ none ∧ e.z ≠ none ∧ e.w ≠ none := by simpa only [not_or] using hsome
    obtain ⟨ex, hex⟩ := Option.ne_none_iff_exists'.1 hx
    obtain ⟨ey, hey⟩ := Option.ne_none_iff_exists'.1 hy
    obtain ⟨ez, hez⟩ := Option.ne_none_iff_exists'.1 hz
    obtain ⟨ew, hew⟩ := Option.ne_none_iff_exists'.1 hw
    obtain ⟨fx, hfx⟩ := Option.ne_none_iff_exists'.1 (mt hentered.x hx)
    obtain ⟨fy, hfy⟩ := Option.ne_none_iff_exists'.1 (mt hentered.y hy)
    obtain ⟨fz, hfz⟩ := Option.ne_none_iff_exists'.1 (mt hentered.z hz)
    obtain ⟨fw, hfw⟩ := Option.ne_none_iff_exists'.1 (mt hentered.w hw)
    have he : e = ⟨some ex, some ey, some ez, some ew⟩ := by rw [← hex, ← hey, ← hez, ← hew]
    have hf : fines = ⟨some fx, some fy, some fz, some fw⟩ := by rw [← hfx, ← hfy, ← hfz, ← hfw]
    rw [hall ex ey ez ew fx fy fz fw he hf, he, hf]
    simp only [reachVerdict, axisReach, bothReach, ← Bool.decide_and, and_assoc, Int.natCast_zero, Int.sub_zero,
      Int.ofNat_le]

/-- R77: the target, 0 where the command returns to rest. -/
theorem targetOf_eq (phase : Phase) (reach : Option Bool) (d : Option Int) (n : Nat) : targetOf phase reach d n =
    if phase = .idle ∨ phase = .approach ∧ reach ≠ some true then 0 else max (-(n : Int)) (min (n : Int) (d.getD 0)) := by
  cases phase with
  | approach => by_cases hr : reach = some true <;> simp [targetOf, sat, hr]
  | idle => simp [targetOf]
  | descend | settle | release | lift => simp [targetOf, sat]

/-- R78: the command of an axis with an entry and without one. -/
theorem commandOf_unique {phase : Phase} {reach : Option Bool} {goal : Option Int → FineAxis → Int}
    {cmd : Option FineAxis → Option Int → Int → Int}
    (hgoal : ∀ d f, goal d f = if phase = .idle ∨ phase = .approach ∧ reach ≠ some true then 0
      else max (-(f.stroke : Int)) (min (f.stroke : Int) (d.getD 0)))
    (hnone : ∀ d c, cmd none d c = c)
    (hsome : ∀ f d c, cmd (some f) d c = c + max (-(f.step : Int)) (min (f.step : Int) (goal d f - c)))
    (o : Option FineAxis) (d : Option Int) (c : Int) : cmd o d c = commandOf phase reach d o c := by
  cases o with
  | none => exact hnone d c
  | some f =>
    rw [hsome, hgoal, ← targetOf_eq]
    rfl

/-! ### The stages together -/

/-- The stages out of every hold, from what they read of the state (R69). -/
theorem stagesOf_eq (k : Sample) (fines : Quad (Option FineAxis)) (s : State) : stagesOf false k fines s =
    let p := predict k (velocity k s.line.prev) (horizon s.params.lAct s.clock.us k)
    let q := predict k (velocity k s.line.prev) (gateAge s.clock.us k)
    let e := errorsOf s.lay.target s.lay.oz p fines
    let reach := reachVerdict s.params.reachMargin e fines
    { c := ⟨commandOf s.lay.phase reach e.x fines.x s.stab.c.x, commandOf s.lay.phase reach e.y fines.y s.stab.c.y,
        commandOf s.lay.phase reach e.z fines.z s.stab.c.z, commandOf s.lay.phase reach e.w fines.w s.stab.c.w⟩
      cPrev := s.stab.c, pAct := some p, pNow := some q, e := e, reach := reach
      err := gateErrorsOf s.lay.target s.lay.oz q fines, used := some (k.seq, k.quality) } := by
  cases h : s.lay.target <;> simp only [stagesOf, h, commandAll] <;> rfl

/-- The stages read the samples, the time, the parameters, the placement and the commands that stand, and nothing else. -/
theorem stagesOf_congr {k : Sample} {fines : Quad (Option FineAxis)} {l : Lay} (hprev : t.line.prev = s.line.prev)
    (hclock : t.clock = s.clock) (hparams : t.params = s.params) (hstab : t.stab = s.stab) (hplace : place t.lay = place l) :
    stagesOf false k fines t = stagesOf false k fines (s.setLay l) := by
  obtain ⟨hphase, hoz, htarget⟩ := (place_eq _ _).1 hplace
  rw [stagesOf_eq, stagesOf_eq, hprev, hclock, hparams, hstab, hphase, hoz, htarget]
  rfl

/-- R69, log entry 7: out of every hold, the stabilizer after a TRAIN arrival is that of the stages on the placement that the
offset step leaves. -/
theorem stab_outboundTrain_stages {k : Sample} (cycle : Word) (period : Half) (hv : s.line.state = .valid)
    (hk : s.line.cur = some k) (hm : s.ctl.mode.held = false) (h : Calm s) (hc : ∀ n, PartClean s n) :
    (outboundTrain cycle period s).stab =
      stagesOf false k (finesAt s) (s.setLay (offsetStep (approachIfHeld s)).lay) := by
  have hfr : frozen s = false := by rw [frozen, hm, hv]; rfl
  have hplace := place_beforeStab (l := List.range 32) (fun i hi => by rw [List.mem_range] at hi; omega) cycle period h hc
  have hfines := finesAt_beforeStab (List.range 32) cycle period hc
  have hreads := readsAs_beforeStab (List.range 32) cycle period hc
  have htrack := state_beforeStab (List.range 32) cycle period s
  have hquiet := quiet_beforeStab (List.range 32) cycle period s
  rw [stab_outboundTrain_eq, hfr]
  generalize beforeStab (List.range 32) cycle period s = b at hplace hfines hreads htrack hquiet ⊢
  obtain ⟨hclock, -, -, -, hstab, -, -, hparams, -⟩ := (quiet_eq _ _).1 hquiet
  simp only [track4, Prod.mk.injEq] at htrack
  obtain ⟨hstate, hcur, hprev, -, -⟩ := htrack
  have hsample : stageSample b = some k := by rw [stageSample, hstate, hv]; exact hcur.trans hk
  rw [stab_stabCompute_clean fun n => hreads.partClean (hc n), hsample, hfines]
  exact stagesOf_congr hprev hclock hparams hstab hplace

/-- The arrival of the cell itself leaves all that the stages read. -/
theorem stab_outboundTrain_arrived {k : Sample} (cycle : Word) (period : Half) (hv : s.line.state = .valid)
    (hk : s.line.cur = some k) (hm : s.ctl.mode.held = false) (h : Calm s) (hc : ∀ n, PartClean s n) :
    (outboundTrain cycle period (arrived .up s)).stab =
      stagesOf false k (finesAt s) (s.setLay (offsetStep (approachIfHeld s)).lay) := by
  have hground : SameGround s (arrived .up s) := ⟨rfl, rfl, rfl, rfl, rfl⟩
  have hstages := stab_outboundTrain_stages (s := arrived .up s) cycle period hv hk hm ⟨h.term, h.causes, h.sources⟩ hc
  exact hstages.trans (stagesOf_congr rfl rfl rfl rfl (place_offsetStep hground.approached))

/-- Settles O12: the frozen commands by `stab_outboundTrain`, stroke and step by `moves_outboundTrain`, and out of every hold
each stage by its rule. -/
theorem trainFreezesFineCommandsInAHold : Obligations.TrainFreezesFineCommandsInAHold := by
  intro s dst src flags cycle period rest hsync hflags
  obtain ⟨t, hexec, ht⟩ := exec_outboundTrain_stab hsync dst src flags hflags cycle period rest
  obtain ⟨hprev, hfrozen, hidle⟩ := stab_outboundTrain cycle period (arrived .up s)
  rw [← ht] at hprev hfrozen hidle
  refine ⟨t, hexec, hprev, hfrozen, hidle, fun hc r i c c' hentry haxis => ?_, ?_⟩
  · have hmoves : Moves (finesAt s) s.stab.c (outboundTrain cycle period (arrived .up s)).stab.c :=
      moves_outboundTrain cycle period (s := arrived .up s) hc.partClean
    rw [← ht] at hmoves
    have hfine := fineAt_some hentry
    rcases haxis with ⟨rfl, rfl, rfl⟩ | ⟨rfl, rfl, rfl⟩ | ⟨rfl, rfl, rfl⟩ | ⟨rfl, rfl, rfl⟩
    · exact hmoves.x _ hfine
    · exact hmoves.y _ hfine
    · exact hmoves.z _ hfine
    · exact hmoves.w _ hfine
  · rintro k _ clip v p q far near fine e err reach goal cmd hv hk hm hc hw hterm rfl hclip hfine hmoving hstill rfl rfl hp hq
      hnoTarget htarget hreach hnoReach hgoal hcmdNone hcmdSome
    obtain rfl : clip = sat32 := funext hclip
    obtain rfl : fine = finesAt s := hfine
    obtain rfl := velocity_unique hmoving hstill
    have herror := errorsOf_unique (fun h => (hnoTarget h).1) fun g h => (htarget g h).1
    have hgateError := gateErrorsOf_unique (fun h => (hnoTarget h).2) fun g h => (htarget g h).2
    have hverdict := reachVerdict_unique (herror ▸ entered_errorsOf _ _ _ _) hreach hnoReach
    have hcommand := commandOf_unique hgoal hcmdNone hcmdSome
    rw [ht, stab_outboundTrain_arrived cycle period hv hk hm (hw.calmState hm hterm) hc.partClean, stagesOf_eq]
    simp only [hcommand, hverdict, hgateError, herror, hp, hq]
    rfl

end Sys2Proof.Machine
end

section
/-! SUPPORT. The frame assembler of the tracker line (R87 to R91, R101): one rule for each of its states, what a frame leaves in it
character by character, and the frame that completes. -/

namespace Sys2Proof.Machine

variable {s : State} {b low high : Byte} {flag bad : Bool} {body : List Byte} {n k : Nat}

/-! ### A byte, by the state of the assembler (R89) -/

theorem takeByte_hunt (h : s.line.asm.state = .hunt) :
    takeByte b flag s =
      if b = syncByte s ∧ flag = false then setAsm { Assembler.initial with state := .length } s else s := by
  unfold takeByte
  simp only [h, Bool.and_eq_true, beq_iff_eq, Bool.not_eq_true']

theorem takeByte_length (h : s.line.asm.state = .length) :
    takeByte b flag s =
      if b.toNat = bodyLength s then
        setAsm { s.line.asm with state := .body, parityBad := s.line.asm.parityBad || flag } s
      else
        setAsm Assembler.initial
          (countLine (fun c => { c with lengthErr := bump c.lengthErr, discards := bump c.discards }) s) := by
  unfold takeByte
  simp only [h]

theorem takeByte_body (h : s.line.asm.state = .body) :
    takeByte b flag s = setAsm { s.line.asm with
      state := if s.line.asm.body.length + 1 < bodyLength s then .body else .check
      parityBad := s.line.asm.parityBad || flag
      body := s.line.asm.body ++ [b] } s := by
  unfold takeByte
  simp only [h, List.length_append, List.length_singleton]

theorem takeByte_crcHigh (h : s.line.asm.state = .check) (hc : s.line.asm.crcHigh = none) :
    takeByte b flag s = setAsm { s.line.asm with crcHigh := some b, parityBad := s.line.asm.parityBad || flag } s := by
  unfold takeByte
  simp only [h, hc]

theorem takeByte_crcLow (h : s.line.asm.state = .check) (hc : s.line.asm.crcHigh = some high) :
    takeByte low flag s =
      completeFrame s.line.asm.body (s.line.asm.parityBad || flag) (high ++ low) (setAsm Assembler.initial s) := by
  unfold takeByte
  simp only [h, hc]

/-! ### A frame, character by character -/

/-- The characters of a frame but the last: sync, length, body, and the CRC's high byte (R193). -/
def frameHead (s : State) (body : List Byte) (high : Byte) : List Byte :=
  syncByte s :: BitVec.ofNat 8 (bodyLength s) :: (body ++ [high])

/-- The assembler that has taken `n` characters of a frame since it hunted, all but the last at most (R89). -/
def Assembler.reading (body : List Byte) (high : Byte) (n : Nat) : Assembler :=
  { state := if n = 0 then .hunt else if n = 1 then .length else if n < body.length + 2 then .body else .check
    parityBad := false
    body := body.take (n - 2)
    crcHigh := if n = body.length + 3 then some high else none }

/-- Out of the loop test the assembler hunts for sample frames, in it for REACQUIRE frames (R89, R101). -/
theorem frame_sample (h : s.params.trkLoop = false) : syncByte s = 0xB6 ∧ bodyLength s = 20 := by
  rw [syncByte, bodyLength, h]
  exact ⟨rfl, rfl⟩

theorem frame_looped (h : s.params.trkLoop = true) : syncByte s = 0xB7 ∧ bodyLength s = 12 := by
  rw [syncByte, bodyLength, h]
  exact ⟨rfl, rfl⟩

theorem bodyLength_lt (s : State) : bodyLength s < 256 := by unfold bodyLength; split <;> decide

theorem frameHead_length (s : State) (body : List Byte) (high : Byte) : (frameHead s body high).length = body.length + 3 := by
  simp [frameHead]

theorem reading_zero (body : List Byte) (high : Byte) : Assembler.reading body high 0 = Assembler.initial := by
  simp [Assembler.reading, Assembler.initial]

/-- Each character of a frame but the last moves the assembler on by one. -/
theorem takeByte_reading (hlen : body.length = bodyLength s) (ha : s.line.asm = .reading body high n)
    (hb : (frameHead s body high)[n]? = some b) : takeByte b false s = setAsm (.reading body high (n + 1)) s := by
  match n with
  | 0 =>
    have hsync : b = syncByte s := by simpa [frameHead, eq_comm] using hb
    rw [takeByte_hunt (by rw [ha]; rfl), if_pos ⟨hsync, rfl⟩]
    simp [Assembler.reading, Assembler.initial]
  | 1 =>
    have hlength : b = BitVec.ofNat 8 (bodyLength s) := by simpa [frameHead, eq_comm] using hb
    have hnat : b.toNat = bodyLength s := by
      rw [hlength, BitVec.toNat_ofNat, Nat.mod_eq_of_lt (bodyLength_lt s)]
    have hpos : 0 < body.length := by rw [hlen]; unfold bodyLength; split <;> decide
    rw [takeByte_length (by rw [ha]; rfl), if_pos hnat, ha]
    simp [Assembler.reading, hpos]
  | n + 2 =>
    have hb' : (body ++ [high])[n]? = some b := by simpa [frameHead] using hb
    obtain hn | rfl | hn := Nat.lt_trichotomy n body.length
    · have hget : body[n] = b := by simpa [List.getElem?_append_left hn, hn] using hb'
      have htake : (body.take n).length = n := List.length_take_of_le hn.le
      rw [takeByte_body (by rw [ha]; simp [Assembler.reading, hn]), ha]
      have hnext : n + 1 + 2 ≠ body.length + 3 := by omega
      have hgrown : body.take n ++ [body[n]] = body.take (n + 1) := List.take_append_getElem hn
      simp [Assembler.reading, htake, ← hlen, ← hget, hgrown, hn.ne, show n ≠ body.length + 1 by omega]
      rfl
    · have hget : high = b := by simpa using hb'
      have hwhole : body.take (body.length + 1) = body := List.take_of_length_le (Nat.le_succ _)
      rw [takeByte_crcHigh (by rw [ha]; simp [Assembler.reading]) (by rw [ha]; simp [Assembler.reading]), ha]
      simp [Assembler.reading, hget, hwhole]
    · have hout : (body ++ [high]).length ≤ n := by rw [List.length_append]; exact hn
      rw [List.getElem?_eq_none hout] at hb'
      cases hb'

/-- Characters that arrive with the right parity bit. -/
def unflagged (l : List Byte) : List (Byte × Bool) := l.map fun b => (b, false)

/-- The characters of a frame with their parity flags; the last may be flagged. -/
def frameChars (s : State) (body : List Byte) (high low : Byte) (bad : Bool) : List (Byte × Bool) :=
  unflagged (frameHead s body high) ++ [(low, bad)]

theorem takeBytes_append (l l' : List (Byte × Bool)) (s : State) :
    takeBytes (l ++ l') s = takeBytes l' (takeBytes l s) := List.foldl_append

/-- The characters of a frame from number `k` to number `n`, the last one not among them. -/
theorem takeBytes_reading (hlen : body.length = bodyLength s) (ha : s.line.asm = .reading body high k) (hk : k ≤ n)
    (hn : n ≤ body.length + 3) :
    takeBytes (((unflagged (frameHead s body high)).take n).drop k) s = setAsm (.reading body high n) s := by
  induction n, hk using Nat.le_induction with
  | base =>
    rw [List.drop_eq_nil_of_le (List.length_take_le _ _), ← ha]
    rfl
  | succ n hk ih =>
    obtain ⟨b, hb⟩ : ∃ b, (frameHead s body high)[n]? = some b :=
      ⟨_, List.getElem?_eq_getElem (by rw [frameHead_length]; omega)⟩
    have hchar : (unflagged (frameHead s body high))[n]? = some (b, false) := by
      rw [unflagged, List.getElem?_map, hb]; rfl
    have hsize : k ≤ ((unflagged (frameHead s body high)).take n).length := by
      rw [List.length_take, unflagged, List.length_map, frameHead_length]; omega
    rw [List.take_add_one, hchar, List.drop_append_of_le_length hsize, takeBytes_append, ih (by omega)]
    exact takeByte_reading (s := setAsm (.reading body high n) s) hlen rfl hb

/-- The rest of a frame from character `k` on completes it. -/
theorem takeBytes_rest (hlen : body.length = bodyLength s) (ha : s.line.asm = .reading body high k)
    (hk : k ≤ body.length + 3) :
    takeBytes ((frameChars s body high low bad).drop k) s =
      completeFrame body bad (high ++ low) (setAsm Assembler.initial s) := by
  have hsize : (unflagged (frameHead s body high)).length = body.length + 3 := by
    rw [unflagged, List.length_map, frameHead_length]
  have hread := takeBytes_reading hlen ha hk le_rfl
  rw [List.take_of_length_le hsize.le] at hread
  have hlast : ∀ t, t = setAsm (.reading body high (body.length + 3)) s →
      takeByte low bad t = completeFrame body bad (high ++ low) (setAsm Assembler.initial s) := by
    rintro t rfl
    have hbody : (Assembler.reading body high (body.length + 3)).body = body :=
      List.take_of_length_le (by omega)
    rw [takeByte_crcLow (high := high) (by simp [setAsm, Assembler.reading]) (by simp [setAsm, Assembler.reading])]
    rw [show (setAsm (.reading body high (body.length + 3)) s).line.asm.body = body from hbody]
    rfl
  rw [frameChars, List.drop_append_of_le_length (hsize ▸ hk), takeBytes_append]
  exact hlast _ hread

/-- A hunting assembler takes a whole frame, whatever it held of an earlier one. -/
theorem takeBytes_frame (hlen : body.length = bodyLength s) (hh : s.line.asm.state = .hunt) :
    takeBytes (frameChars s body high low bad) s =
      completeFrame body bad (high ++ low) (setAsm Assembler.initial s) := by
  have hfirst : ∀ l, takeBytes ((syncByte s, false) :: l) s = takeBytes ((syncByte s, false) :: l) (setAsm .initial s) := by
    intro l
    show takeBytes l (takeByte _ _ _) = takeBytes l (takeByte _ _ _)
    rw [takeByte_hunt hh, takeByte_hunt (s := setAsm .initial s) rfl, if_pos ⟨rfl, rfl⟩, if_pos ⟨rfl, rfl⟩]
    rfl
  exact (hfirst _).trans (takeBytes_rest (s := setAsm .initial s) hlen (reading_zero body high).symm (Nat.zero_le _))

end Sys2Proof.Machine
end

section
/-! SUPPORT. What a character on TRK_RXD and a whole frame come to (R87 to R92, R101): the character's parity flag, the four ends of a
frame, the sample frame on a quiet line and the REACQUIRE frame in the loop test. -/

namespace Sys2Proof.Machine

variable {s : State} {b data low high : Byte} {parity bad : Bool} {body : List Byte} {crc : Half} {p : Nat} {l : Line}

/-! ### One character (R87, R88, R101) -/

theorem parityFlag_iff : parityFlag p data parity = true ↔
    p = 1 ∧ oddOnes data ≠ parity ∨ 2 ≤ p ∧ oddOnes data = parity := by
  unfold parityFlag
  obtain rfl | rfl | hp : p = 0 ∨ p = 1 ∨ 2 ≤ p := by omega
  · simp
  · simp
  · simp [show p ≠ 0 by omega, show p ≠ 1 by omega, hp]

/-- A character with the parity bit that agrees with it is not flagged, and with the other one it is where there is parity. -/
theorem parityFlag_goodParity (p : Nat) (b : Byte) (bad : Bool) :
    parityFlag p b (goodParity p b != bad) = (bad && p != 0) := by
  unfold parityFlag goodParity
  obtain rfl | rfl | hp : p = 0 ∨ p = 1 ∨ 2 ≤ p := by omega
  · simp
  · cases oddOnes b <;> cases bad <;> rfl
  · have h0 : p ≠ 0 := by omega
    have h1 : p ≠ 1 := by omega
    cases hb : oddOnes b <;> cases bad <;> simp [h0, h1]

theorem flag_raised (hb : bad = true) (hp : p ≠ 0) : (bad && p != 0) = true := by simp [hb, hp]

theorem flag_absent (h : bad = false ∨ p = 0) : (bad && p != 0) = false := by rcases h with h | h <;> simp [h]

theorem receiveCharacter_looped (h : s.params.trkLoop = true) (stop : Bool) : receiveCharacter data parity stop s = s := by
  rw [receiveCharacter, if_pos h]

theorem receiveCharacter_inBreak (h : s.params.trkLoop = false) (hb : s.line.inBreak = true) (stop : Bool) :
    receiveCharacter data parity stop s = s.setLine { s.line with breakDue := none } := by
  rw [receiveCharacter, if_neg (by rw [h]; exact Bool.false_ne_true)]
  exact if_pos hb

theorem receiveCharacter_stopped (h : s.params.trkLoop = false) (hb : s.line.inBreak = false) :
    receiveCharacter data parity true s =
      takeByte data (parityFlag s.params.parity data parity) (s.setLine { s.line with breakDue := none }) := by
  rw [receiveCharacter, if_neg (by rw [h]; exact Bool.false_ne_true), takeCharacter,
    if_neg (by rw [State.setLine_line, hb]; exact Bool.false_ne_true), if_pos rfl]
  rfl

theorem receiveCharacter_framing (h : s.params.trkLoop = false) (hb : s.line.inBreak = false) :
    receiveCharacter data parity false s =
      abandonFrame (countLine (fun c => { c with framing := bump c.framing })
        (s.setLine { s.line with breakDue := none })) := by
  rw [receiveCharacter, if_neg (by rw [h]; exact Bool.false_ne_true), takeCharacter,
    if_neg (by rw [State.setLine_line, hb]; exact Bool.false_ne_true), if_neg Bool.false_ne_true]

theorem abandonFrame_hunt (h : s.line.asm.state = .hunt) : abandonFrame s = s := by rw [abandonFrame, h]

theorem abandonFrame_begun (h : s.line.asm.state ≠ .hunt) :
    abandonFrame s = s.setLine { s.line with
      asm := Assembler.initial, count := { s.line.count with discards := bump s.line.count.discards } } := by
  unfold abandonFrame
  split
  · rename_i hh
    exact absurd hh h
  all_goals rfl

/-! ### The ends of a frame (R90, R101) -/

theorem completeFrame_badParity (body : List Byte) (crc : Half) (s : State) :
    completeFrame body true crc s =
      countLine (fun c => { c with discards := bump c.discards, parityBad := bump c.parityBad }) s := rfl

theorem completeFrame_badCrc (h : crc16 (BitVec.ofNat 8 (bodyLength s) :: body) ≠ crc) :
    completeFrame body false crc s =
      countLine (fun c => { c with discards := bump c.discards, crcErr := bump c.crcErr }) s := by
  rw [completeFrame, if_neg Bool.false_ne_true, if_pos (by simpa using h)]

theorem completeFrame_looped (hl : s.params.trkLoop = true) (h : crc16 (BitVec.ofNat 8 (bodyLength s) :: body) = crc) :
    completeFrame body false crc s = countLine (fun c => { c with loopFrames := bump c.loopFrames }) s := by
  rw [completeFrame, if_neg Bool.false_ne_true, if_neg (by simp [h]), if_pos hl]

theorem completeFrame_sample (hl : s.params.trkLoop = false) (h : crc16 (BitVec.ofNat 8 (bodyLength s) :: body) = crc) :
    completeFrame body false crc s = judge (candidateOf body s.clock.us) (noteSequence (be16 body 0) s) := by
  rw [completeFrame, if_neg Bool.false_ne_true, if_neg (by simp [h]), if_neg (by simp [hl])]

/-! ### A sample frame on a quiet line (R90) -/

/-- TRK_RXD is observed and at mark, and no break is awaited. -/
structure Listening (s : State) : Prop where
  loop : s.params.trkLoop = false
  mark : s.line.inBreak = false
  due : s.line.breakDue = none

theorem receiveCharacter_listening (h : Listening s) :
    receiveCharacter b (goodParity s.params.parity b != bad) true s = takeByte b (bad && s.params.parity != 0) s := by
  rw [receiveCharacter_stopped h.loop h.mark, parityFlag_goodParity, ← h.due]
  rfl

/-- The characters of a frame reach the assembler in turn, as long as the line stays as it is up to the last. -/
theorem receiveFrame_takeBytes (l : List Byte)
    (h : ∀ k ≤ l.length, Listening (takeBytes (unflagged (l.take k)) s)) :
    receiveFrame (l ++ [low]) bad s = takeBytes (unflagged l ++ [(low, bad && s.params.parity != 0)]) s := by
  induction l generalizing s with
  | nil => exact receiveCharacter_listening (h 0 le_rfl)
  | cons b l ih =>
    have hfirst : receiveCharacter b (goodParity s.params.parity b) true s = takeByte b false s := by
      have hlisten : Listening s := h 0 (Nat.zero_le _)
      simpa using receiveCharacter_listening (b := b) (bad := false) hlisten
    have hparams : (takeByte b false s).params = s.params := ((quiet_eq _ _).1 (quiet_takeByte b false s)).2.2.2.2.2.2.2.1
    have hrest := ih (s := takeByte b false s) fun k hk => h (k + 1) (Nat.succ_le_succ hk)
    rw [hparams] at hrest
    have hcons : receiveFrame (b :: (l ++ [low])) bad s =
        receiveFrame (l ++ [low]) bad (receiveCharacter b (goodParity s.params.parity b) true s) := by
      cases l <;> rfl
    rw [List.cons_append, hcons]
    exact (congrArg _ hfirst).trans hrest

/-- The sync character of a sample frame finds the line at mark and the assembler hunting: whatever else they held is gone (R89,
log entry 21). -/
theorem receiveFrame_fresh (h : s.params.trkLoop = false) (hb : s.line.inBreak = false) (hh : s.line.asm.state = .hunt)
    (c : Byte) (l : List Byte) :
    receiveFrame (0xB6 :: c :: l) bad s =
      receiveFrame (0xB6 :: c :: l) bad (s.setLine { s.line with breakDue := none, asm := Assembler.initial }) := by
  have hchar : ∀ u : State, u.params.trkLoop = false → u.line.inBreak = false → u.line.asm.state = .hunt →
      receiveCharacter 0xB6 (goodParity u.params.parity 0xB6) true u =
        setAsm { Assembler.initial with state := .length } (u.setLine { u.line with breakDue := none }) := by
    intro u hu hmark hhunt
    obtain ⟨hsync, -⟩ := frame_sample (s := u.setLine { u.line with breakDue := none }) hu
    have hflag := parityFlag_goodParity u.params.parity 0xB6 false
    rw [Bool.bne_false, Bool.false_and] at hflag
    rw [receiveCharacter_stopped hu hmark, hflag,
      takeByte_hunt (s := u.setLine { u.line with breakDue := none }) hhunt, if_pos ⟨hsync.symm, rfl⟩]
  refine congrArg (receiveFrame (c :: l) bad) ((hchar s h hb hh).trans ?_)
  exact (hchar (s.setLine { s.line with breakDue := none, asm := Assembler.initial }) h hb rfl).symm

theorem bytes16_join (v : Half) : v.extractLsb' 8 8 ++ v.extractLsb' 0 8 = v := by
  apply BitVec.eq_of_getLsbD_eq
  intro i hi
  simp only [BitVec.getLsbD_append, BitVec.getLsbD_extractLsb']
  by_cases h : i < 8
  · simp [h]
  · simp [h, show i - 8 < 8 by omega, show 8 + (i - 8) = i by omega]

theorem bytes32_join (v : Word) :
    (v.extractLsb' 24 8 ++ v.extractLsb' 16 8) ++ (v.extractLsb' 8 8 ++ v.extractLsb' 0 8) = v := by
  apply BitVec.eq_of_getLsbD_eq
  intro i hi
  simp only [BitVec.getLsbD_append, BitVec.getLsbD_extractLsb']
  split
  · split
    · simp_all
    · simp [show i - 8 < 8 by omega, show 8 + (i - 8) = i by omega]
  · split
    · simp_all [show 16 + (i - (8 + 8)) = i by omega]
    · simp [show i - 16 - 8 < 8 by omega, show 24 + (i - 16 - 8) = i by omega]

/-- A sample frame on a line at mark, its assembler hunting, completes; its last character may be flagged. -/
theorem receiveFrame_sample {seq latency : Half} {x y z : Word} {yaw : Half} {quality status : Byte}
    (hloop : s.params.trkLoop = false) (hmark : s.line.inBreak = false) (hhunt : s.line.asm.state = .hunt) :
    receiveFrame (0xB6 :: 20 :: (sampleBody seq latency x y z yaw quality status ++ bytes16 crc)) bad s =
      completeFrame (sampleBody seq latency x y z yaw quality status) (bad && s.params.parity != 0) crc
        (s.setLine { s.line with breakDue := none, asm := Assembler.initial }) := by
  rw [receiveFrame_fresh hloop hmark hhunt]
  obtain ⟨u, hu⟩ : ∃ u, u = s.setLine { s.line with breakDue := none, asm := Assembler.initial } := ⟨_, rfl⟩
  obtain ⟨body, hbody⟩ : ∃ body, body = sampleBody seq latency x y z yaw quality status := ⟨_, rfl⟩
  have huloop : u.params.trkLoop = false := hu ▸ hloop
  obtain ⟨hsync, hlength⟩ := frame_sample huloop
  have hlen : body.length = bodyLength u := hlength.symm ▸ hbody ▸ rfl
  have hasm : u.line.asm = .reading body (crc.extractLsb' 8 8) 0 := by rw [reading_zero, hu]; rfl
  have hframe : 0xB6 :: 20 :: (body ++ bytes16 crc) = frameHead u body (crc.extractLsb' 8 8) ++ [crc.extractLsb' 0 8] := by
    rw [frameHead, hlength, hsync]
    simp [bytes16]
  have hquiet : ∀ k ≤ (frameHead u body (crc.extractLsb' 8 8)).length,
      Listening (takeBytes (unflagged ((frameHead u body (crc.extractLsb' 8 8)).take k)) u) := by
    intro k hk
    have hread := takeBytes_reading hlen hasm (Nat.zero_le k) (frameHead_length _ _ _ ▸ hk)
    rw [List.drop_zero, unflagged, ← List.map_take, ← unflagged] at hread
    rw [hread]
    exact ⟨huloop, hu ▸ hmark, hu ▸ rfl⟩
  have hwhole := takeBytes_rest (low := crc.extractLsb' 0 8) (bad := bad && u.params.parity != 0) hlen hasm (Nat.zero_le _)
  rw [List.drop_zero, frameChars, bytes16_join] at hwhole
  rw [← hu, ← hbody, hframe, receiveFrame_takeBytes _ hquiet, hwhole, hu]
  rfl

end Sys2Proof.Machine
end

section
/-! SUPPORT. The statements on characters and frames (R87 to R92, R101). -/

namespace Sys2Proof.Machine

variable {s : State} {seq latency : Half} {x y z : Word} {yaw : Half} {quality status : Byte} {body : List Byte} {crc : Half}
  {bad : Bool} {l : Line} {f : TxFrame} {n : Nat} {noise : Half}

/-- Settles O29: `receiveCharacter` by the line, then `takeByte` by the state of the assembler. -/
theorem characterMovesTheAssembler : Obligations.CharacterMovesTheAssembler := by
  intro s data parity stop flag l hl hflag
  have hf : parityFlag s.params.parity data parity = flag := Bool.eq_iff_iff.2 (parityFlag_iff.trans hflag.symm)
  obtain ⟨u, hu⟩ : ∃ u, u = s.setLine l := ⟨_, rfl⟩
  have hline : u.line = l := hu ▸ rfl
  refine ⟨fun h => congrArg _ (receiveCharacter_looped h stop), fun h hb => ?_, fun h hb hstop => ?_, fun h hb hstop => ?_⟩
  · rw [hl]
    exact congrArg _ (receiveCharacter_inBreak h hb stop)
  · have he : exec (.characterReceive data parity stop) s =
        .next (abandonFrame (countLine (fun c => { c with framing := bump c.framing }) u)) := by
      rw [hstop, hu, hl]
      exact congrArg _ (receiveCharacter_framing h hb)
    refine ⟨fun hh => ?_, fun hh => ?_⟩ <;> rw [← hline] at hh
    · rw [he, abandonFrame_hunt (s := countLine _ u) hh, hu]
      rfl
    · rw [he, abandonFrame_begun (s := countLine _ u) hh, hu]
      rfl
  · have he : exec (.characterReceive data parity stop) s = .next (takeByte data flag u) := by
      rw [hstop, hu, hl, ← hf]
      exact congrArg _ (receiveCharacter_stopped h hb)
    obtain ⟨hsync, hlength⟩ := frame_sample (s := u) (hu ▸ h)
    rw [he]
    refine ⟨fun hh hb => ?_, fun hh hb => ?_, fun hh hd => ?_, fun hh hd => ?_, fun hh => ?_, fun hh hc => ?_⟩ <;>
      rw [← hline] at hh
    · rw [takeByte_hunt hh, hsync, if_pos hb, hu]
      rfl
    · rw [takeByte_hunt hh, hsync, if_neg fun e => hb.elim (absurd e.1) fun hb => by simp [hb] at e, hu]
    · rw [takeByte_length hh, hlength, if_pos (by rw [hd]; rfl), hu]
      rfl
    · have hne : ¬ data.toNat = 20 := fun e => hd (BitVec.eq_of_toNat_eq e)
      rw [takeByte_length hh, hlength, if_neg hne, hu]
      rfl
    · rw [takeByte_body hh, hlength, hu]
      rfl
    · rw [← hline] at hc
      rw [takeByte_crcHigh hh hc, hu]
      rfl

/-! ### Sample frames (R90 to R92) -/

/-- The candidate of a sample frame, field by field (section 5.3, R193). -/
theorem candidateOf_sampleBody (ta : Word) :
    candidateOf (sampleBody seq latency x y z yaw quality status) ta =
      { seq := seq, x := x.toInt, y := y.toInt, z := z.toInt, w := yaw.toNat, lat := min 5000 latency.toNat, ta := ta,
        tm := ta - BitVec.ofNat 32 (min 5000 latency.toNat), quality := quality, status := status, used := false,
        reanchor := false } := by
  have hx : be32 (sampleBody seq latency x y z yaw quality status) 4 = x := bytes32_join x
  have hy : be32 (sampleBody seq latency x y z yaw quality status) 8 = y := bytes32_join y
  have hz : be32 (sampleBody seq latency x y z yaw quality status) 12 = z := bytes32_join z
  have hseq : be16 (sampleBody seq latency x y z yaw quality status) 0 = seq := bytes16_join seq
  have hlat : be16 (sampleBody seq latency x y z yaw quality status) 2 = latency := bytes16_join latency
  have hyaw : be16 (sampleBody seq latency x y z yaw quality status) 16 = yaw := bytes16_join yaw
  rw [candidateOf, hx, hy, hz, hseq, hlat, hyaw]
  rfl

/-- The line after a whole sample frame on it, as the frame's end finds it. -/
def framed (s : State) : State := s.setLine { s.line with breakDue := none, asm := Assembler.initial }

theorem exec_sampleFrame (hloop : s.params.trkLoop = false) (hmark : s.line.inBreak = false)
    (hhunt : s.line.asm.state = .hunt) :
    exec (.sampleFrameComplete seq latency x y z yaw quality status crc bad) s =
      .next (completeFrame (sampleBody seq latency x y z yaw quality status) (bad && s.params.parity != 0) crc (framed s)) :=
  congrArg _ (receiveFrame_sample hloop hmark hhunt)

/-- A sample frame that completes correctly: its sequence number is noted, its candidate judged (R91, R92). -/
theorem exec_sampleFrame_correct (hloop : s.params.trkLoop = false) (hmark : s.line.inBreak = false)
    (hhunt : s.line.asm.state = .hunt) (hbad : bad = false ∨ s.params.parity = 0)
    (hcrc : crc16 (20 :: sampleBody seq latency x y z yaw quality status) = crc) :
    exec (.sampleFrameComplete seq latency x y z yaw quality status crc bad) s =
      .next (judge (candidateOf (sampleBody seq latency x y z yaw quality status) s.clock.us) (noteSequence seq (framed s))) := by
  obtain ⟨-, hlength⟩ := frame_sample (s := framed s) hloop
  have hseq : be16 (sampleBody seq latency x y z yaw quality status) 0 = seq := bytes16_join seq
  rw [exec_sampleFrame hloop hmark hhunt, flag_absent hbad, completeFrame_sample (s := framed s) hloop (by rw [hlength]; exact hcrc), hseq]
  rfl

theorem noteSequence_eq (seq : Half) (s : State) :
    noteSequence seq s = s.setLine { s.line with
      lastSeq := some seq
      count := { s.line.count with
        seqGaps := if s.line.lastSeq = none ∨ s.line.lastSeq = some (seq - 1) then s.line.count.seqGaps
          else bump s.line.count.seqGaps } } := by
  have hgap : ∀ v : Half, seq = v + 1#16 ↔ v = seq - 1#16 := fun v =>
    ⟨fun e => by rw [e, BitVec.add_sub_cancel], fun e => by rw [e, BitVec.sub_add_cancel]⟩
  unfold noteSequence
  cases s.line.lastSeq with
  | none => simp
  | some v => by_cases hv : v = seq - 1#16 <;> simp [hv, hgap v]

theorem ignoredCandidate_iff (c : Sample) (s : State) : ignoredCandidate c s = true ↔
    s.pins.trkReady = false ∨ c.status.getLsbD 0 = false ∨ c.quality.toNat < s.params.minQuality ∨ 36000 ≤ c.w := by
  simp [ignoredCandidate, Sample.lock, or_assoc]

/-- Settles O30: the ends of the frame, and the candidate that is ignored. -/
theorem sampleFrameIsCheckedAndIgnored : Obligations.SampleFrameIsCheckedAndIgnored := by
  intro s seq latency x y z yaw quality status crc bad l hloop hmark hhunt hl
  have hframed : framed s = s.setLine l := hl ▸ rfl
  obtain ⟨-, hlength⟩ := frame_sample (s := framed s) hloop
  refine ⟨fun hbad hp => ?_, fun hbad hcrc => ?_, fun hbad hcrc hign => ?_⟩
  · rw [exec_sampleFrame hloop hmark hhunt, flag_raised hbad hp, completeFrame_badParity, hframed]
    rfl
  · rw [exec_sampleFrame hloop hmark hhunt, flag_absent hbad, completeFrame_badCrc (by rw [hlength]; exact hcrc), hframed]
    rfl
  · have hcand : ignoredCandidate (candidateOf (sampleBody seq latency x y z yaw quality status) s.clock.us)
        (noteSequence seq (framed s)) = true := by
      rw [ignoredCandidate_iff, candidateOf_sampleBody]
      exact hign
    rw [exec_sampleFrame_correct hloop hmark hhunt hbad hcrc, judge, if_pos hcand, noteSequence_eq, hframed, hl]
    rfl

end Sys2Proof.Machine
end

section
/-! SUPPORT. The reacquire transmitter and the looped receiver (R99 to R101): the characters that a frame being sent brings to the
receiver, the frame that is sent whole, and the frame that falls due. -/

namespace Sys2Proof.Machine

variable {s : State} {body : List Byte} {crc : Half} {f : TxFrame} {n : Nat} {noise : Half} {bad : Bool}

/-! ### The characters of the frame being sent (R101) -/

/-- In the loop test the frame being sent is a REACQUIRE frame of this body and this CRC. -/
structure Looping (s : State) (f : TxFrame) (body : List Byte) (crc : Half) : Prop where
  loop : s.params.trkLoop = true
  sending : s.line.sending = some f
  size : body.length = 12
  bytes : f.bytes = 0xB7 :: 12 :: (body ++ bytes16 crc)

theorem zipIdx_flag_last (l : List Byte) (b : Byte) (bad : Bool) :
    (l ++ [b]).zipIdx.map (fun c => (c.1, bad && c.2 == l.length)) = unflagged l ++ [(b, bad)] := by
  have hinit : l.zipIdx.map (fun c => (c.1, bad && c.2 == l.length)) = unflagged l := by
    apply List.ext_getElem
    · simp [unflagged]
    · intro i hi _
      have hne : i ≠ l.length := by simpa using Nat.ne_of_lt (by simpa using hi)
      simp [unflagged, hne]
  rw [List.zipIdx_append, List.map_append, hinit]
  simp

/-- A CRC without noise is not disturbed, and with noise it is. -/
theorem xor_noise (v w : Half) : v = v ^^^ w ↔ w = 0 := by
  refine ⟨fun e => ?_, fun e => e ▸ BitVec.xor_zero.symm⟩
  calc w = v ^^^ (v ^^^ w) := by rw [← BitVec.xor_assoc, BitVec.xor_self, BitVec.zero_xor]
    _ = 0 := by rw [← e, BitVec.xor_self]; rfl

theorem xor_quiet (v : Half) : v ^^^ 0 = v := BitVec.xor_zero

theorem bytes16_xor (v w : Half) : List.zipWith (· ^^^ ·) (bytes16 v) (bytes16 w) = bytes16 (v ^^^ w) := by
  simp [bytes16, BitVec.extractLsb'_xor]

/-- The characters of a REACQUIRE frame, its CRC disturbed by `noise`. -/
def loopChars (s : State) (body : List Byte) (crc noise : Half) (bad : Bool) : List (Byte × Bool) :=
  frameChars s body ((crc ^^^ noise).extractLsb' 8 8) ((crc ^^^ noise).extractLsb' 0 8) bad

theorem Looping.bodyLength (h : Looping s f body crc) : body.length = bodyLength s := by
  rw [(frame_looped h.loop).2, h.size]

theorem Looping.loopChars_length (h : Looping s f body crc) : (loopChars s body crc noise bad).length = 16 := by
  simp [loopChars, frameChars, unflagged, frameHead_length, h.size]

theorem Looping.loopBytes (h : Looping s f body crc) :
    loopBytes f n noise bad = ((loopChars s body crc noise bad).take n).drop f.fed := by
  have hfirst : f.bytes.take 14 = 0xB7 :: 12 :: body := by rw [h.bytes]; simp [h.size]
  have hcrc : f.bytes.drop 14 = bytes16 crc := by rw [h.bytes]; simp [h.size]
  have hhead : frameHead s body ((crc ^^^ noise).extractLsb' 8 8) =
      0xB7 :: 12 :: (body ++ [(crc ^^^ noise).extractLsb' 8 8]) := by
    obtain ⟨hsync, hlength⟩ := frame_looped h.loop
    rw [frameHead, hsync, hlength]
    rfl
  have hbytes : f.bytes.take 14 ++ List.zipWith (· ^^^ ·) (f.bytes.drop 14) (bytes16 noise) =
      frameHead s body ((crc ^^^ noise).extractLsb' 8 8) ++ [(crc ^^^ noise).extractLsb' 0 8] := by
    rw [hfirst, hcrc, bytes16_xor, hhead]
    simp [bytes16]
  have hsize : 15 = (frameHead s body ((crc ^^^ noise).extractLsb' 8 8)).length := by rw [frameHead_length, h.size]
  rw [Machine.loopBytes, hbytes, hsize, zipIdx_flag_last]
  rfl

/-- The line with `n` characters of the frame being sent at the looped receiver. -/
def fedTo (f : TxFrame) (n : Nat) (s : State) : State := s.setLine { s.line with sending := some { f with fed := n } }

theorem loopFeed_none (h : s.params.trkLoop = false ∨ s.line.sending = none) : loopFeed n noise bad s = s := by
  unfold loopFeed
  split
  · rename_i hloop hsend
    rcases h with h | h
    · rw [h] at hloop; cases hloop
    · rw [h] at hsend; cases hsend
  · rfl

theorem Looping.loopFeed (h : Looping s f body crc) :
    loopFeed n noise bad s =
      takeBytes (((loopChars s body crc noise (bad && s.params.parity != 0)).take n).drop f.fed) (fedTo f (max f.fed n) s) := by
  unfold Machine.loopFeed
  rw [h.loop, h.sending]
  simp only
  rw [h.loopBytes]
  rfl

/-- The looped receiver that has taken the characters up to `f.fed` takes those up to `n`, the frame not yet whole. -/
theorem Looping.loopFeed_part (h : Looping s f body crc) (hfed : f.fed ≤ n) (hn : n < 16)
    (ha : s.line.asm = .reading body (crc.extractLsb' 8 8) f.fed) :
    Machine.loopFeed n 0 false s = setAsm (.reading body (crc.extractLsb' 8 8) n) (fedTo f n s) := by
  have hsize : (unflagged (frameHead s body (crc.extractLsb' 8 8))).length = 15 := by
    rw [unflagged, List.length_map, frameHead_length, h.size]
  have htake : (loopChars s body crc 0 false).take n = (unflagged (frameHead s body (crc.extractLsb' 8 8))).take n := by
    rw [loopChars, xor_quiet, frameChars, List.take_append_of_le_length (by omega)]
  rw [h.loopFeed, Bool.false_and, htake, max_eq_right hfed]
  exact takeBytes_reading (s := fedTo f n s) h.bodyLength ha hfed (by rw [h.size]; omega)

/-- The rest of the frame being sent completes it. -/
theorem Looping.loopFeed_rest (h : Looping s f body crc) (hfed : f.fed < 16)
    (ha : s.line.asm = .reading body ((crc ^^^ noise).extractLsb' 8 8) f.fed) :
    Machine.loopFeed 16 noise bad s =
      completeFrame body (bad && s.params.parity != 0) (crc ^^^ noise) (setAsm Assembler.initial (fedTo f 16 s)) := by
  rw [h.loopFeed, List.take_of_length_le h.loopChars_length.le, max_eq_right hfed.le]
  refine (takeBytes_rest (s := fedTo f 16 s) h.bodyLength ha (by rw [h.size]; omega)).trans ?_
  rw [bytes16_join]

/-- A hunting looped receiver that has taken none of the frame takes the whole of it. -/
theorem Looping.loopFeed_whole (h : Looping s f body crc) (hfed : f.fed = 0) (hh : s.line.asm.state = .hunt) :
    Machine.loopFeed 16 noise bad s =
      completeFrame body (bad && s.params.parity != 0) (crc ^^^ noise) (setAsm Assembler.initial (fedTo f 16 s)) := by
  rw [h.loopFeed, List.take_of_length_le h.loopChars_length.le, hfed, List.drop_zero, Nat.zero_max]
  refine (takeBytes_frame (s := fedTo f 16 s) h.bodyLength hh).trans ?_
  rw [bytes16_join]

/-- Settles O32: the whole frame by `loopFeed`, then the ends of a frame. -/
theorem loopFrameIsCounted : Obligations.LoopFrameIsCounted := by
  intro s noise bad
  refine ⟨fun f body l hloop hsend hfed hsize hbytes hh hl => ?_, fun h => congrArg _ (loopFeed_none h)⟩
  have h : Looping s f body (crc16 (12 :: body)) := ⟨hloop, hsend, hsize, hbytes⟩
  have hfeed : exec (.loopFrame noise bad) s = .next (completeFrame body (bad && s.params.parity != 0)
      (crc16 (12 :: body) ^^^ noise) (s.setLine l)) := by
    rw [hl]
    exact congrArg _ (h.loopFeed_whole hfed hh)
  obtain ⟨-, hlength⟩ := frame_looped (s := s.setLine l) hloop
  refine ⟨fun hn hb => ?_, fun hn hb => ?_, fun hb hp => ?_⟩
  · rw [hfeed, flag_absent hb, completeFrame_looped (s := s.setLine l) hloop (by rw [hlength, hn, xor_quiet]; rfl)]
    rfl
  · have hcrc : crc16 (12 :: body) ≠ crc16 (12 :: body) ^^^ noise := fun e => hn ((xor_noise _ _).1 e)
    rw [hfeed, flag_absent hb, completeFrame_badCrc (s := s.setLine l) (by rw [hlength]; exact hcrc)]
    rfl
  · rw [hfeed, flag_raised hb hp, completeFrame_badParity]
    rfl

/-! ### The transmitter (R99, R100) -/

theorem reachSent_not (h : frameIsSent s = false) : reachSent s = s := by
  rw [reachSent, if_neg (by rw [h]; exact Bool.false_ne_true)]

theorem reachSent_sent (hs : s.line.sending = some f) (h : charsTime 16 s.params ≤ (s.clock.us - f.begun).toNat) :
    reachSent s = beginWaiting (countLine (fun c => { c with reacquireSent := bump c.reacquireSent }) (loopFeed 16 0 false s)) := by
  rw [reachSent, if_pos]
  rw [frameIsSent, hs]
  exact decide_eq_true h

theorem frameIsSent_false (h : s.line.sending = none ∨
    ∃ f, s.line.sending = some f ∧ (s.clock.us - f.begun).toNat < charsTime 16 s.params) : frameIsSent s = false := by
  rw [frameIsSent]
  rcases h with h | ⟨f, h, ht⟩ <;> rw [h]
  exact decide_eq_false (Nat.not_le.2 ht)

/-- What O36 calls the assembler that has taken `n` characters is `Assembler.reading`. -/
theorem Looping.taken (h : Looping s f body crc) {n : Nat} :
    ({ state := if n = 0 then .hunt else if n = 1 then .length else if n < 14 then .body else .check
       parityBad := false, body := body.take (n - 2), crcHigh := if n = 15 then f.bytes[14]? else none } : Assembler) =
      .reading body (crc.extractLsb' 8 8) n := by
  have hhigh : f.bytes[14]? = some (crc.extractLsb' 8 8) := by
    rw [h.bytes]
    simp [bytes16, h.size]
  rw [Assembler.reading, hhigh, h.size]

/-- Settles O36: `reachSent` out of and in the loop test, and `loopCatchUp` as a part of the frame. -/
theorem sentFrameIsFollowedByThePending : Obligations.SentFrameIsFollowedByThePending := by
  intro s
  refine ⟨fun f hloop hs ht => ?_, fun h => congrArg _ (reachSent_not (frameIsSent_false h)), fun h => ?_,
    fun f body taken next hloop hsend hsize hbytes htaken hnext => ?_⟩
  · refine congrArg _ ((reachSent_sent hs ht).trans ?_)
    rw [loopFeed_none (.inl hloop)]
    rfl
  · unfold loopCatchUp
    split
    · exact loopFeed_none h
    · rfl
  have h : Looping s f body (crc16 (12 :: body)) := ⟨hloop, hsend, hsize, hbytes⟩
  have htake : ∀ n, taken n = .reading body ((crc16 (12 :: body)).extractLsb' 8 8) n := fun n => (htaken n).trans h.taken
  refine ⟨fun hfed ht => ?_, fun hfed ha ht => ?_, fun n hn hfed hlt ha => ?_⟩
  · refine congrArg _ ((reachSent_sent hsend ht).trans ?_)
    rw [h.loopFeed, List.drop_eq_nil_of_le (hfed.symm ▸ List.length_take_le _ _), hnext]
    rfl
  · have hasm : s.line.asm = .reading body ((crc16 (12 :: body) ^^^ 0).extractLsb' 8 8) f.fed := by
      rw [xor_quiet, ← htake, ha]
    obtain ⟨-, hlength⟩ := frame_looped (s := setAsm Assembler.initial (fedTo f 16 s)) hloop
    refine congrArg _ ((reachSent_sent hsend ht).trans ?_)
    rw [h.loopFeed_rest hfed hasm, Bool.false_and, xor_quiet,
      completeFrame_looped (s := setAsm Assembler.initial (fedTo f 16 s)) hloop (by rw [hlength]; rfl), hnext]
    rfl
  · have hsent : charsSent (elapsed s.clock.us f.begun) s.params = n := by
      rw [charsSent, elapsed, ← hn]
      exact min_eq_right hlt.le
    rw [loopCatchUp, hsend]
    dsimp only
    rw [hsent, h.loopFeed_part hfed hlt (by rw [← htake, ha]), htake]
    rfl

/-- Settles O35: `reachReacquire` makes the frame due, built from P_now as it stands. -/
theorem reacquireFrameFallsDue : Obligations.ReacquireFrameFallsDue := by
  intro s d body f hd hsome hnone hf
  have hframe : reacquireFrame s.stab.pNow = f := by
    rw [hf]
    cases hp : s.stab.pNow with
    | none => rw [hnone hp]; rfl
    | some p => rw [hsome p hp]; rfl
  have hdue : reacquireIsDue s = (s.line.running && reached s.clock.ms (d + 100)) := by rw [reacquireIsDue, hd]
  have hreach : s.line.running = true → (s.clock.ms - (d + 100)).toNat < 2147483648 →
      exec .reacquireDue s = .next (frameDue (d + 100) s) := by
    intro hrun ht
    have hnow : reacquireIsDue s = true := by rw [hdue, hrun]; exact decide_eq_true ht
    refine congrArg Host.Outcome.next (?_ : reachReacquire s = _)
    rw [reachReacquire, if_pos hnow, hd]
    rfl
  refine ⟨fun hrun ht hs => ?_, fun hrun ht hs => ?_, fun h => ?_⟩
  · rw [hreach hrun ht, frameDue, hs, hframe]
  · obtain ⟨g, hg⟩ := Option.ne_none_iff_exists'.1 hs
    rw [hreach hrun ht, frameDue, hg, hframe]
  · have hnot : ¬ reacquireIsDue s = true := by
      rw [hdue]
      rcases h with h | h
      · simp [h]
      · rw [reached, decide_eq_false (Nat.not_lt.2 h), Bool.and_false]
        exact Bool.false_ne_true
    refine congrArg Host.Outcome.next (?_ : reachReacquire s = _)
    rw [reachReacquire, if_neg hnot]

end Sys2Proof.Machine
end

section
/-! SUPPORT. The changes of the tracker state (R96, R97): what the receiving side of the line keeps while causes are reported and the
mode changes (`receiver`), and what an entry to LOST does to the mode controller. -/

namespace Sys2Proof.Machine

variable {s t u : State} {cause : Nat} {w : Word}

theorem undisturbed_of_quiet (h : quiet t = quiet s) : Undisturbed s t := by
  obtain ⟨h1, h2, h3, h4, h5, h6, h7, h8, h9⟩ := (quiet_eq t s).1 h
  exact ⟨h1, h2, h3, h4, h5, h6, h7, h8, h9⟩

/-! ### The receiving side of the line -/

/-- The tracker line without what the reacquire transmitter holds. -/
def receiver (l : Line) : Line := { l with running := false, lastDue := none, sending := none, waiting := none }

theorem receiver_frameDue (d : Word) (s : State) : receiver (frameDue d s).line = receiver s.line := by
  unfold frameDue; split <;> rfl

theorem receiver_refreshTx (s : State) : receiver (refreshTx s).line = receiver s.line := by
  unfold refreshTx
  split
  · split
    · rfl
    · exact receiver_frameDue _ _
  · rfl

theorem receiver_setMode (m : Mode) (s : State) : receiver (setMode m s).line = receiver s.line := receiver_refreshTx _

theorem receiver_enterHold (s : State) : receiver (enterHold s).line = receiver s.line := receiver_setMode _ _

theorem receiver_report (s : State) : receiver (report s).line = receiver s.line := by
  unfold report
  dsimp only
  split
  · exact receiver_enterHold _
  · rfl

/-! ### The causes reported (R183, R185) -/

/-- HOLD is entered with the return mode of R185; the causes are taken, the faults stand. -/
theorem ctl_enterHold (s : State) : ∃ c, (enterHold s).ctl =
    { s.ctl with
      ret := some (if s.ctl.recovery then .guard else s.ctl.mode), recovery := false, mode := .hold, holdN := true
      conditions := c } := by
  have hset : ∀ v : State, (setMode .hold v).ctl = { v.ctl with mode := .hold, holdN := true } := fun v =>
    (ctl_lay_refreshTx _).1
  unfold enterHold takeCauses
  generalize hc : conditionsNow (setMode .hold (endRecovery (s.setCtl { s.ctl with
    ret := some (if s.ctl.recovery then .guard else s.ctl.mode) }))) = c
  exact ⟨c, by rw [State.setCtl_ctl, hset]; rfl⟩

theorem report_eq (s : State) : report s = takeCauses s ∨
    s.ctl.mode.held = false ∧ (conditionsNow s).any = true ∧ report s = enterHold (takeCauses s) := by
  unfold report
  dsimp only
  split
  · rename_i h
    obtain ⟨hfree, hany⟩ := Bool.and_eq_true_iff.1 h
    have hmode : (takeCauses s).ctl.mode.held = false := by simpa using hfree
    exact .inr ⟨hmode, hany, rfl⟩
  · exact .inl rfl

theorem report_held (h : s.ctl.mode.held = true) : report s = takeCauses s := by
  rcases report_eq s with he | ⟨hfree, -, -⟩
  · exact he
  · rw [h] at hfree; cases hfree

/-- A cause that is active in GUARD or LAY brings HOLD. -/
theorem report_holds (h : s.ctl.mode.held = false) (hc : (conditionsNow s).any = true) :
    report s = enterHold (takeCauses s) := by
  have hcond : (!s.ctl.mode.held && (conditionsNow s).any) = true := by rw [h, hc]; rfl
  exact if_pos hcond

theorem faults_report (s : State) : (report s).ctl.faults = s.ctl.faults ∧ (report s).ctl.first = s.ctl.first := by
  obtain ⟨c, hc⟩ := ctl_enterHold (takeCauses s)
  rcases report_eq s with he | ⟨-, -, he⟩ <;> rw [he]
  · exact ⟨rfl, rfl⟩
  · rw [hc]
    exact ⟨rfl, rfl⟩

/-- The TRACKER cause as its owner defines it (R183). -/
def trackerCause (s : State) : Bool := s.line.state == .lost || s.line.state == .none

/-- Once the causes are reported, TRACKER is as its owner defines it. -/
theorem tracker_report (s : State) : (report s).ctl.conditions.tracker = trackerCause (report s) := by
  rcases report_eq s with he | ⟨-, -, he⟩ <;> rw [he] <;> rfl

/-! ### LOST (R97) -/

/-- With the tracker LOST the causes are reported: what that does to the mode controller. -/
theorem becomesLost_report (hstate : u.line.state = .lost)
    (hctl : u.ctl = if s.line.state = .none then s.ctl else s.ctl.latch .trackerLost (BitVec.ofNat 32 cause) s.clock.ms) :
    BecomesLost cause s (report u) := by
  have hlost : (report u).line.state = .lost := (congrArg Line.state (receiver_report u) :).trans hstate
  obtain ⟨hmode, hret, hrec⟩ : u.ctl.mode = s.ctl.mode ∧ u.ctl.ret = s.ctl.ret ∧ u.ctl.recovery = s.ctl.recovery := by
    rw [hctl]
    unfold Ctl.latch
    split
    · exact ⟨rfl, rfl, rfl⟩
    · split <;> exact ⟨rfl, rfl, rfl⟩
  obtain ⟨hfaults, hfirst⟩ := faults_report u
  refine ⟨hlost, ?_, fun hn => ?_, fun hn => ?_, fun hm => ?_, fun hm => ?_⟩
  · rw [tracker_report, trackerCause, hlost]
    rfl
  · rw [hfaults, hfirst, hctl, if_neg hn]
    exact ⟨rfl, rfl⟩
  · rw [hfaults, hfirst, hctl, if_pos hn]
    exact ⟨rfl, rfl⟩
  · have hany : (conditionsNow u).any = true := by simp [Conditions.any, conditionsNow, hstate]
    obtain ⟨c, hc⟩ := ctl_enterHold (takeCauses u)
    rw [report_holds (hmode.symm ▸ hm) hany, hc, ← hmode, ← hrec]
    exact ⟨rfl, rfl, rfl, rfl⟩
  · rw [report_held (hmode.symm ▸ hm), ← hmode, ← hret]
    exact ⟨rfl, rfl⟩

theorem ctl_refreshTx (s : State) : (refreshTx s).ctl = s.ctl := (ctl_lay_refreshTx s).1

theorem enterLost_lost (h : s.line.state = .lost) : enterLost cause s = s := by rw [enterLost, h]

theorem becomesLost_enterLost (h : s.line.state ≠ .lost) : BecomesLost cause s (enterLost cause s) := by
  have hstate : ∀ v : State, v.line.state = .lost → (refreshTx v).line.state = .lost := fun v hv =>
    (congrArg Line.state (receiver_refreshTx v) :).trans hv
  unfold enterLost
  split
  · rename_i hlost
    exact absurd hlost h
  · rename_i hnone
    exact becomesLost_report (hstate _ rfl) (by rw [ctl_refreshTx, if_pos hnone]; rfl)
  all_goals
    rename_i hv
    exact becomesLost_report (hstate _ rfl) (by rw [ctl_refreshTx, if_neg (by rw [hv]; decide)]; rfl)

theorem receiver_enterLost (cause : Nat) (s : State) :
    receiver (enterLost cause s).line = receiver { s.line with state := .lost } := by
  unfold enterLost
  split
  · rename_i h
    rw [← h]
  all_goals
    rw [receiver_report, receiver_refreshTx]
    rfl

theorem state_enterLost (cause : Nat) (s : State) : (enterLost cause s).line.state = .lost :=
  (congrArg Line.state (receiver_enterLost cause s) :)

/-! ### STALE and VALID (R96) -/

theorem receiver_enterStale (s : State) : receiver (enterStale s).line = receiver { s.line with state := .stale } := by
  unfold enterStale
  split
  · rename_i h
    rw [← h]
  · rw [receiver_report, receiver_refreshTx]
    rfl

theorem receiver_enterValid (s : State) : receiver (enterValid s).line = receiver { s.line with state := .valid } := by
  rw [enterValid, receiver_report, receiver_refreshTx]
  rfl

/-- Whatever HOLD does to the lay controller, the gate count and the pending request stand (R62). -/
theorem MayHold.gate (h : MayHold s t) : t.lay.gate = s.lay.gate ∧ t.lay.openPending = s.lay.openPending := by
  cases h with
  | stays _ hlay => rw [hlay]; exact ⟨rfl, rfl⟩
  | holds _ _ hlay => rw [hlay]; exact ⟨rfl, rfl⟩

theorem mayHold_refreshTx (s : State) : MayHold s (refreshTx s) :=
  .stays (congrArg Ctl.mode (ctl_refreshTx s)) (ctl_lay_refreshTx s).2

/-- R57, R97: on entry to STALE the gate count is 0 and no request is pending. -/
theorem gate_enterStale (h : s.line.state ≠ .stale) :
    (enterStale s).lay.gate = 0 ∧ (enterStale s).lay.openPending = false := by
  unfold enterStale
  split
  · rename_i hs
    exact absurd hs h
  · exact (mayHold_refreshTx _).reported.gate

theorem faults_enterStale (s : State) : (enterStale s).ctl.faults = s.ctl.faults := by
  unfold enterStale
  split
  · rfl
  · rw [(faults_report _).1, ctl_refreshTx]
    rfl

/-! ### The expiries (R96) -/

theorem passed_some {i : Option Word} (h : i = some w) : passed s i = decide ((s.clock.us - w).toNat < 2147483648) := by
  rw [h]; rfl

theorem passed_false {i : Option Word} (h : i = none ∨ ∃ w, i = some w ∧ 2147483648 ≤ (s.clock.us - w).toNat) :
    passed s i = false := by
  rcases h with h | ⟨w, h, ht⟩
  · rw [h]; rfl
  · rw [passed_some h, decide_eq_false (Nat.not_lt.2 ht)]

theorem reachStale_not (h : s.line.state ≠ .valid ∨ passed s s.line.staleAt = false) : reachStale s = s := by
  refine if_neg fun hc => ?_
  obtain ⟨hp, hv⟩ := Bool.and_eq_true_iff.1 hc
  rcases h with h | h
  · exact h (beq_iff_eq.1 hv)
  · rw [h] at hp; cases hp

theorem reachLost_not (h : s.line.state = .none ∨ s.line.state = .lost ∨ passed s s.line.lostAt = false) : reachLost s = s := by
  refine if_neg fun hc => ?_
  obtain ⟨hp, hv⟩ := Bool.and_eq_true_iff.1 hc
  rcases h with h | h | h
  · rw [h] at hv; cases hv
  · rw [h] at hv; cases hv
  · rw [h] at hp; cases hp

/-- Settles O34: `enterStale` and `enterLost` at their instants, nothing otherwise. -/
theorem trackerExpiriesAgeTheSample : Obligations.TrackerExpiriesAgeTheSample := by
  intro s
  refine ⟨fun w hw ht hv => ?_, fun h => ?_, fun w hw ht hv => ?_, fun h => ?_⟩
  · have hreach : reachStale s = enterStale s := if_pos (by rw [passed_some hw, decide_eq_true ht, hv]; rfl)
    obtain ⟨hgate, hopen⟩ := gate_enterStale (s := s) (by rw [hv]; decide)
    exact ⟨_, congrArg Host.Outcome.next hreach, undisturbed_of_quiet (quiet_enterStale s),
      (congrArg Line.state (receiver_enterStale s) :), hgate, hopen, faults_enterStale s,
      (congrArg Line.cur (receiver_enterStale s) :)⟩
  · exact congrArg Host.Outcome.next (reachStale_not (h.imp_right passed_false))
  · have hstate : (s.line.state == .valid || s.line.state == .stale) = true := by rcases hv with hv | hv <;> rw [hv] <;> rfl
    have hreach : reachLost s = enterLost 1 s := if_pos (by rw [passed_some hw, decide_eq_true ht, hstate]; rfl)
    exact ⟨_, congrArg Host.Outcome.next hreach, undisturbed_of_quiet (quiet_enterLost 1 s),
      becomesLost_enterLost (by rcases hv with hv | hv <;> rw [hv] <;> decide),
      (congrArg Line.cur (receiver_enterLost 1 s) :)⟩
  · exact congrArg Host.Outcome.next (reachLost_not (h.imp_right (·.imp_right passed_false)))

/-! ### A break and TRK_READY (R88, R98) -/

theorem BecomesLost.of_same (h : BecomesLost cause u t) (hs : u.line.state = s.line.state) (hc : u.ctl = s.ctl)
    (hk : u.clock = s.clock) : BecomesLost cause s t := by
  obtain ⟨hstate, hactive, hlatched, hsilent, hhold, hheld⟩ := h
  rw [hs, hc, hk] at hlatched
  rw [hs, hc] at hsilent
  rw [hc] at hhold hheld
  exact ⟨hstate, hactive, hlatched, hsilent, hhold, hheld⟩

/-- Any frame begun is abandoned: the assembler hunts, and a frame begun is a discard (R86 to R90). -/
theorem abandonFrame_line (s : State) : ∃ a : Assembler, a.state = .hunt ∧ abandonFrame s = s.setLine { s.line with
    asm := a
    count := { s.line.count with
      discards := if s.line.asm.state = .hunt then s.line.count.discards else bump s.line.count.discards } } := by
  by_cases h : s.line.asm.state = .hunt
  · exact ⟨s.line.asm, h, by rw [abandonFrame_hunt h, if_pos h]; rfl⟩
  · exact ⟨Assembler.initial, rfl, by rw [abandonFrame_begun h, if_neg h]⟩

/-- Settles O33: the line as the break or the level leaves it, then `enterLost`. -/
theorem breakAndReadyLossLoseTheTracker : Obligations.BreakAndReadyLossLoseTheTracker := by
  intro s
  refine ⟨fun h => ?_, fun hloop hmark => ?_, rfl, ?_, fun h => ?_, fun h => ?_⟩
  · refine congrArg Host.Outcome.next (if_pos ?_ : detectBreak s = s)
    rcases h with h | h <;> simp [h]
  · obtain ⟨a, ha, he⟩ := abandonFrame_line (s.setLine { s.line with inBreak := true, breakDue := none })
    obtain ⟨u, hu⟩ : ∃ u, u = countLine (fun c => { c with breaks := bump c.breaks })
        (abandonFrame (s.setLine { s.line with inBreak := true, breakDue := none })) := ⟨_, rfl⟩
    have hbreak : detectBreak s = enterLost 2 u := hu ▸ if_neg (by simp [hloop, hmark])
    rw [he] at hu
    have hline := receiver_enterLost 2 u
    refine ⟨_, congrArg Host.Outcome.next hbreak, undisturbed_of_quiet ((quiet_enterLost 2 u).trans (hu ▸ rfl)), ?_,
      state_enterLost 2 u, ?_, ?_, ?_, fun h => ?_, fun h => ?_⟩
    · exact (congrArg Line.inBreak hline :).trans (hu ▸ rfl)
    · exact (congrArg (·.asm.state) hline :).trans (hu ▸ ha)
    · exact (congrArg (·.count.breaks) hline :).trans (hu ▸ rfl)
    · exact (congrArg (·.count.discards) hline :).trans (hu ▸ rfl)
    · exact (becomesLost_enterLost (hu ▸ h)).of_same (hu ▸ rfl) (hu ▸ rfl) (hu ▸ rfl)
    · rw [enterLost_lost (hu ▸ h), hu]
      exact ⟨rfl, rfl⟩
  · exact congrArg Host.Outcome.next (if_pos (beq_self_eq_true _) : setReady s.pins.trkReady s = s)
  · refine congrArg Host.Outcome.next (?_ : setReady true s = _)
    rw [setReady, h]
    rfl
  · obtain ⟨u, hu⟩ : ∃ u, u = countLine (fun c => { c with readyChanges := bump c.readyChanges })
        (s.setPins { s.pins with trkReady := false }) := ⟨_, rfl⟩
    have hready : setReady false s = enterLost 3 u := by
      rw [setReady, h, hu]
      rfl
    have hquiet := (quiet_enterLost 3 u).trans (hu ▸ rfl : quiet u = quiet (s.setPins { s.pins with trkReady := false }))
    have hund := undisturbed_of_quiet hquiet
    refine ⟨_, congrArg Host.Outcome.next hready, hund.pins, hund, ?_, state_enterLost 3 u, fun h => ?_, fun h => ?_⟩
    · exact (congrArg (·.count.readyChanges) (receiver_enterLost 3 u) :).trans (hu ▸ rfl)
    · exact (becomesLost_enterLost (hu ▸ h)).of_same (hu ▸ rfl) (hu ▸ rfl) (hu ▸ rfl)
    · rw [enterLost_lost (hu ▸ h), hu]
      exact ⟨rfl, rfl⟩

end Sys2Proof.Machine
end

section
/-! SUPPORT. The judgement of a candidate (R92 to R97): the jump test, what an acceptance leaves on the receiving side of the line, and
what the evaluation of the tracker's terms keeps of it. -/

namespace Sys2Proof.Machine

variable {s t u : State} {c : Sample} {jump : Bool}

/-! ### What an evaluation of terms keeps of the tracker -/

theorem terms_refreshTx (s : State) : (refreshTx s).terms = s.terms := by
  have hdue : ∀ (d : Word) (x : State), (frameDue d x).terms = x.terms := fun d x => by
    unfold frameDue; split <;> rfl
  unfold refreshTx
  split
  · split
    · rfl
    · exact hdue _ _
  · rfl

theorem terms_setMode (m : Mode) (s : State) : (setMode m s).terms = s.terms := terms_refreshTx _

theorem terms_enterHold (s : State) : (enterHold s).terms = s.terms := terms_setMode _ _

theorem terms_report (s : State) : (report s).terms = s.terms := by
  rcases report_eq s with he | ⟨-, -, he⟩ <;> rw [he]
  · rfl
  · exact terms_enterHold _

/-- The receiving side of the line and the tracker word stand, and a TRACKER cause that is as its owner defines it stays so. -/
structure Carries (s t : State) : Prop where
  line : receiver t.line = receiver s.line
  word : t.terms.tracker = s.terms.tracker
  cause : s.ctl.conditions.tracker = trackerCause s → t.ctl.conditions.tracker = trackerCause t

theorem Carries.refl (s : State) : Carries s s := ⟨rfl, rfl, id⟩

theorem Carries.trans (h : Carries s t) (h' : Carries t u) : Carries s u :=
  ⟨h'.line.trans h.line, h'.word.trans h.word, h'.cause ∘ h.cause⟩

theorem Carries.reported (h : Carries s t) : Carries s (report t) :=
  h.trans ⟨receiver_report t, congrArg Terms.tracker (terms_report t), fun _ => tracker_report t⟩

theorem Carries.latched (h : Carries s t) (k : FaultKind) (d : Nat) : Carries s (latch k d t) := by
  refine h.trans ⟨rfl, rfl, fun hc => Eq.trans ?_ hc⟩
  show (t.ctl.latch _ _ _).conditions.tracker = _
  unfold Ctl.latch
  split <;> rfl

theorem carries_setGuard (s : State) (v : Guard) : Carries s (s.setGuard v) := ⟨rfl, rfl, id⟩
theorem carries_setMgmt (s : State) (v : Mgmt) : Carries s (s.setMgmt v) := ⟨rfl, rfl, id⟩
theorem carries_setMem (s : State) (v : TableMem) : Carries s (s.setMem v) := ⟨rfl, rfl, id⟩
theorem carries_setHeld (i : Nat) (h : TermHeld) (s : State) : Carries s (setHeld i h s) := ⟨rfl, rfl, id⟩

theorem carries_uncorrectablePart (n : Nat) (s : State) : Carries s (uncorrectablePart n s).2 := by
  have hmark : Carries s (markUnreadable n s) := carries_setMgmt _ _
  unfold uncorrectablePart
  split
  · exact ((carries_setGuard _ _).latched _ _).reported
  · exact (carries_setMem _ _).latched _ _
  · split
    · exact .refl s
    · exact carries_setMem _ _
  · exact hmark.latched _ _
  · exact hmark.latched _ _
  · exact ((hmark.latched _ _).trans (carries_setHeld _ _ _)).reported
  · exact hmark.latched _ _

theorem carries_writeBack (w : Nat) (f : WordFinding) (s : State) : Carries s (writeBack w f s) := by
  unfold writeBack
  split
  · exact carries_setMem _ _
  · exact .refl s

theorem carries_readPart (n : Nat) (s : State) : Carries s (readPart n s).2 := by
  have hback : ∀ a b w f v g, Carries s (writeBack v g (writeBack w f (countWords a b s))) := fun a b w f v g =>
    ((carries_setMgmt _ _).trans (carries_writeBack w f _)).trans (carries_writeBack v g _)
  unfold readPart
  dsimp only
  split
  · exact (carries_setMgmt _ _).trans (carries_uncorrectablePart _ _)
  · split
    · exact hback _ _ _ _ _ _
    · exact (hback _ _ _ _ _ _).trans (carries_uncorrectablePart _ _)

theorem carries_noteTerm (i : Nat) (s : State) : Carries s (noteTerm i s) := by
  unfold noteTerm
  dsimp only
  split
  · exact ((Carries.refl s).latched _ _).reported
  · exact (Carries.refl s).reported

theorem carries_evalTerm (i : Nat) (s : State) : Carries s (evalTerm i s) := by
  have hread := carries_readPart (termPart i) s
  unfold evalTerm
  split <;> rename_i heq <;> rw [heq] at hread
  · exact hread.trans (carries_noteTerm _ _)
  · exact (hread.trans (carries_setHeld _ _ _)).trans (carries_noteTerm _ _)

theorem carries_evalTerms (l : List Nat) (s : State) : Carries s (evalTerms l s) := by
  unfold evalTerms
  induction l generalizing s with
  | nil => exact .refl s
  | cons i l ih => exact (carries_evalTerm i s).trans (ih _)

/-! ### The judgement (R92, R93) -/

theorem jumpsFrom_iff (limit : Nat) (c k : Sample) (prev : Option Sample) : jumpsFrom limit c k prev = true ↔
    ∃ p a, a = max 0 (min 20000 (c.tm - k.tm).toInt) ∧ p = predict k (velocity k prev) a.toNat ∧
      (limit < (c.x - p.x).natAbs ∨ limit < (c.y - p.y).natAbs ∨ limit < (c.z - p.z).natAbs) := by
  have hspell : jumpsFrom limit c k prev = true ↔
      (limit < (c.x - (predict k (velocity k prev) (max 0 (min 20000 (c.tm - k.tm).toInt)).toNat).x).natAbs ∨
        limit < (c.y - (predict k (velocity k prev) (max 0 (min 20000 (c.tm - k.tm).toInt)).toNat).y).natAbs) ∨
        limit < (c.z - (predict k (velocity k prev) (max 0 (min 20000 (c.tm - k.tm).toInt)).toNat).z).natAbs := by
    simp only [jumpsFrom, exceeds, Bool.or_eq_true, decide_eq_true_eq]
    rfl
  rw [hspell, or_assoc]
  constructor
  · exact fun h => ⟨_, _, rfl, rfl, h⟩
  · rintro ⟨_, _, rfl, rfl, h⟩
    exact h

theorem jumpTest_iff (c : Sample) (s : State) : jumpTest c s = true ↔
    (s.line.state = .valid ∨ s.line.state = .stale) ∧
      ∃ k, s.line.cur = some k ∧ jumpsFrom s.params.jumpLimit c k s.line.prev = true := by
  unfold jumpTest
  split
  · rename_i hstate hcur
    simp [hstate, hcur]
  · rename_i hstate hcur
    simp [hstate, hcur]
  · rename_i hvalid hstale
    refine ⟨fun h => (Bool.false_ne_true h).elim, ?_⟩
    rintro ⟨hv | hv, k, hk, -⟩
    · exact (hvalid k hv hk).elim
    · exact (hstale k hv hk).elim

theorem judge_rejected (hi : ignoredCandidate c s = false) (hj : jumpTest c s = true) (hr : s.line.rejectRun < 2) :
    judge c s = rejectSample s := by
  rw [judge, hi, hj, if_neg Bool.false_ne_true, if_pos rfl, if_pos hr]

theorem judge_accepted (hi : ignoredCandidate c s = false) (hj : jumpTest c s = false ∨ 2 ≤ s.line.rejectRun) :
    judge c s = acceptSample c (jumpTest c s) s := by
  rw [judge, hi, if_neg Bool.false_ne_true]
  cases hjump : jumpTest c s with
  | false => rfl
  | true =>
    have hrun : ¬ s.line.rejectRun < 2 := Nat.not_lt.2 (hj.resolve_left (by rw [hjump]; decide))
    rw [if_pos rfl, if_neg hrun]

/-! ### The acceptance (R94 to R97) -/

theorem displacesUnused_iff (s : State) : displacesUnused s = true ↔ ∃ k, s.line.cur = some k ∧ k.used = false := by
  unfold displacesUnused
  split <;> rename_i h <;> simp [h]

theorem stateOnAcceptance_lost (h : passed s s.line.lostAt = true) : stateOnAcceptance s = enterLost 1 s := if_pos h

theorem stateOnAcceptance_stale (hl : passed s s.line.lostAt = false) (h : passed s s.line.staleAt = true) :
    stateOnAcceptance s = enterStale s := by
  rw [stateOnAcceptance, hl, if_neg Bool.false_ne_true, if_pos h]

theorem stateOnAcceptance_valid (hl : passed s s.line.lostAt = false) (h : passed s s.line.staleAt = false) :
    stateOnAcceptance s = enterValid s := by
  rw [stateOnAcceptance, hl, h, if_neg Bool.false_ne_true, if_neg Bool.false_ne_true]

/-- Whatever state an acceptance brings, the rest of the receiving side stands. -/
theorem receiver_stateOnAcceptance (s : State) :
    ∃ x, receiver (stateOnAcceptance s).line = receiver { s.line with state := x } := by
  unfold stateOnAcceptance
  split
  · exact ⟨_, receiver_enterLost 1 s⟩
  · split
    · exact ⟨_, receiver_enterStale s⟩
    · exact ⟨_, receiver_enterValid s⟩

/-- R95, R127: the tracker word reaches the terms; the receiving side of the line and the gate stay as the acceptance left them. -/
theorem handTrackerWord_leaves (c : Sample) (s : State) :
    receiver (handTrackerWord c s).line = receiver s.line ∧
      (handTrackerWord c s).terms.tracker = some { word := c.word, stamp := s.ring.lastCycle } ∧
      (s.ctl.conditions.tracker = trackerCause s →
        (handTrackerWord c s).ctl.conditions.tracker = trackerCause (handTrackerWord c s)) ∧
      (handTrackerWord c s).lay.gate = s.lay.gate ∧ (handTrackerWord c s).lay.openPending = s.lay.openPending := by
  obtain ⟨v, hv⟩ : ∃ v, v = s.setTerms { s.terms with tracker := some { word := c.word, stamp := s.ring.lastCycle } } :=
    ⟨_, rfl⟩
  have he : handTrackerWord c s = evalTerms (termsOnTracker v) v := by rw [hv]; rfl
  obtain ⟨hline, hword, hcause⟩ := carries_evalTerms (termsOnTracker v) v
  obtain ⟨hgate, hopen⟩ := (mayHold_evalTerms (termsOnTracker v) v).gate
  rw [← he] at hline hword hcause hgate hopen
  exact ⟨hline.trans (hv ▸ rfl), hword.trans (hv ▸ rfl), fun h => hcause (hv ▸ h), hgate.trans (hv ▸ rfl),
    hopen.trans (hv ▸ rfl)⟩

theorem acceptSample_word (c : Sample) (jump : Bool) (s : State) :
    (acceptSample c jump s).terms.tracker = some { word := c.word, stamp := s.ring.lastCycle } := by
  have hring : (stateOnAcceptance (takeSample c jump s)).ring = s.ring :=
    ((quiet_eq _ _).1 (quiet_stateOnAcceptance (takeSample c jump s))).2.2.1
  obtain ⟨-, hword, -⟩ := handTrackerWord_leaves c (stateOnAcceptance (takeSample c jump s))
  rw [hring] at hword
  exact hword

/-- The receiving side of the line after an acceptance, but for the tracker state. -/
theorem receiver_acceptSample (c : Sample) (jump : Bool) (s : State) :
    ∃ x, receiver (acceptSample c jump s).line = receiver { (takeSample c jump s).line with state := x } := by
  obtain ⟨x, hx⟩ := receiver_stateOnAcceptance (takeSample c jump s)
  exact ⟨x, (handTrackerWord_leaves c _).1.trans hx⟩

theorem acceptSample_valid (hl : passed s (takeSample c jump s).line.lostAt = false)
    (hs : passed s (takeSample c jump s).line.staleAt = false) :
    (acceptSample c jump s).line.state = .valid ∧ (acceptSample c jump s).ctl.conditions.tracker = false := by
  have he : stateOnAcceptance (takeSample c jump s) = enterValid (takeSample c jump s) := stateOnAcceptance_valid hl hs
  obtain ⟨hline, -, hcause, -⟩ := handTrackerWord_leaves c (stateOnAcceptance (takeSample c jump s))
  rw [he] at hline hcause
  have hstate : (handTrackerWord c (enterValid (takeSample c jump s))).line.state = .valid :=
    (congrArg Line.state (hline.trans (receiver_enterValid _)) :)
  rw [acceptSample, he, hcause (tracker_report _), trackerCause, hstate]
  exact ⟨rfl, rfl⟩

theorem acceptSample_stale (hl : passed s (takeSample c jump s).line.lostAt = false)
    (hs : passed s (takeSample c jump s).line.staleAt = true) :
    (acceptSample c jump s).line.state = .stale ∧
      (s.line.state ≠ .stale → (acceptSample c jump s).lay.gate = 0 ∧ (acceptSample c jump s).lay.openPending = false) := by
  have he : stateOnAcceptance (takeSample c jump s) = enterStale (takeSample c jump s) := stateOnAcceptance_stale hl hs
  obtain ⟨hline, -, -, hgate, hopen⟩ := handTrackerWord_leaves c (stateOnAcceptance (takeSample c jump s))
  rw [he] at hline hgate hopen
  rw [acceptSample, he, hgate, hopen]
  exact ⟨(congrArg Line.state (hline.trans (receiver_enterStale _)) :), fun h => gate_enterStale (s := takeSample c jump s) h⟩

theorem acceptSample_lost (hl : passed s (takeSample c jump s).line.lostAt = true) :
    (acceptSample c jump s).line.state = .lost := by
  have he : stateOnAcceptance (takeSample c jump s) = enterLost 1 (takeSample c jump s) := stateOnAcceptance_lost hl
  obtain ⟨hline, -⟩ := handTrackerWord_leaves c (stateOnAcceptance (takeSample c jump s))
  rw [he] at hline
  rw [acceptSample, he]
  exact (congrArg Line.state (hline.trans (receiver_enterLost 1 _)) :)

/-- Settles O31: the candidate of the frame is judged by `jumpTest`, and `acceptSample` takes it. -/
theorem sampleIsAcceptedOrRejected : Obligations.SampleIsAcceptedOrRejected := by
  intro s seq latency x y z yaw quality status c jump hloop hmark hhunt hready hlock hquality hyaw hc hjump
  obtain ⟨u, hu⟩ : ∃ u, u = noteSequence seq (framed s) := ⟨_, rfl⟩
  have hcand : candidateOf (sampleBody seq latency x y z yaw quality status) s.clock.us = c :=
    (candidateOf_sampleBody _).trans hc.symm
  have hexec := exec_sampleFrame_correct (x := x) (y := y) (z := z) (latency := latency) (yaw := yaw) (quality := quality)
    (status := status) (seq := seq) (bad := false) hloop hmark hhunt (.inl rfl) rfl
  rw [hcand, ← hu] at hexec
  rw [noteSequence_eq] at hu
  have hign : ignoredCandidate c u = false := by
    refine Bool.eq_false_iff.2 fun hi => ?_
    rw [ignoredCandidate_iff, hu, hc] at hi
    rcases hi with h | h | h | h
    · exact Bool.false_ne_true (h.symm.trans hready)
    · exact Bool.false_ne_true (h.symm.trans hlock)
    · exact absurd hquality (Nat.not_le.2 h)
    · exact absurd hyaw (Nat.not_lt.2 h)
  have htest : jumpTest c u = jump := by
    rw [Bool.eq_iff_iff, hjump, jumpTest_iff, hu]
    simp only [jumpsFrom_iff, exists_and_left]
    rfl
  have hund : Undisturbed s (judge c u) := undisturbed_of_quiet ((quiet_judge c u).trans (hu ▸ rfl))
  obtain ⟨hrun, hlast⟩ : u.line.rejectRun = s.line.rejectRun ∧ u.line.lastSeq = some seq := hu ▸ ⟨rfl, rfl⟩
  by_cases hrejects : jump = true ∧ s.line.rejectRun < 2
  · obtain ⟨hj, hr⟩ := hrejects
    rw [judge_rejected hign (htest.trans hj) (hrun ▸ hr)] at hexec hund
    refine ⟨_, hexec, hund, hlast, fun _ _ => ?_, fun h => ?_⟩
    · rw [hu]
      exact ⟨rfl, rfl, rfl, rfl, rfl, rfl, rfl, rfl, rfl, rfl⟩
    · rcases h with h | h
      · rw [hj] at h; cases h
      · exact absurd hr (Nat.not_lt.2 h)
  · have haccepts : jumpTest c u = false ∨ 2 ≤ u.line.rejectRun := by
      rw [htest, hrun]
      exact (Bool.eq_false_or_eq_true jump).symm.imp_right fun hj => Nat.not_lt.1 fun hr => hrejects ⟨hj, hr⟩
    rw [judge_accepted hign haccepts, htest] at hexec hund
    obtain ⟨x, hx⟩ := receiver_acceptSample c jump u
    have hstale : passed u (takeSample c jump u).line.staleAt =
        decide ((s.clock.us - (c.tm + BitVec.ofNat 32 s.params.staleAge)).toNat < 2147483648) := hu ▸ rfl
    have hlost : passed u (takeSample c jump u).line.lostAt =
        decide ((s.clock.us - (c.tm + BitVec.ofNat 32 s.params.lostAge)).toNat < 2147483648) := hu ▸ rfl
    have hstate : u.line.state = s.line.state := hu ▸ rfl
    refine ⟨_, hexec, hund, ?_, fun hj hr => absurd ⟨hj, hr⟩ hrejects, fun _ => ⟨?_, ?_, ?_, ?_, ?_, ?_, ?_, ?_, ?_, ?_, ?_⟩⟩
    · exact (congrArg Line.lastSeq hx :).trans hlast
    · exact (congrArg Line.cur hx :)
    · exact (congrArg Line.prev hx :).trans (hu ▸ rfl)
    · exact (congrArg Line.rejectRun hx :)
    · exact (congrArg Line.staleAt hx :).trans (hu ▸ rfl)
    · exact (congrArg Line.lostAt hx :).trans (hu ▸ rfl)
    · exact (congrArg (·.count.reanchors) hx :).trans (hu ▸ rfl)
    · refine (congrArg (·.count.superseded) hx :).trans ?_
      exact if_congr ((displacesUnused_iff u).trans (hu ▸ Iff.rfl)) (hu ▸ rfl) (hu ▸ rfl)
    · refine (acceptSample_word c jump u).trans ?_
      rw [hc, hu]
      rfl
    · intro hs hl
      rw [decide_eq_false (Nat.not_lt.2 hs)] at hstale
      rw [decide_eq_false (Nat.not_lt.2 hl)] at hlost
      exact acceptSample_valid hlost hstale
    · intro hs hl
      rw [decide_eq_true hs] at hstale
      rw [decide_eq_false (Nat.not_lt.2 hl)] at hlost
      exact hstate ▸ acceptSample_stale hlost hstale
    · intro hl
      rw [decide_eq_true hl] at hlost
      exact acceptSample_lost hlost

end Sys2Proof.Machine
end

section
/-! SUPPORT. The WRITE to PARAM part 3 (R86, R96, R101, R167, R172): the merged bits, the values it brings into force, and what its
line effects leave of the rest of the part. -/

namespace Sys2Proof.Machine

variable {s t u : State} {who : Sender} {level : Nat} {mask : Half} {data : Part} {v old : Params}

/-! ### The merge (R167) -/

theorem packNat_bytes (l : List Nat) {i j : Nat} (hi : i < l.length) (hj : j < 8) :
    (packNat (l.map fun v => (1, v))).testBit (8 * i + j) = l[i].testBit j := by
  induction l generalizing i with
  | nil => exact absurd hi (Nat.not_lt_zero _)
  | cons a l ih =>
    have hshift : packNat ((a :: l).map fun v => (1, v)) = 2 ^ 8 * packNat (l.map fun v => (1, v)) + a % 2 ^ 8 := by
      simp only [List.map_cons, packNat, Nat.mul_one]
      omega
    rw [hshift]
    cases i with
    | zero =>
      rw [Nat.mul_zero, Nat.zero_add, Nat.testBit_two_pow_mul_add _ (Nat.mod_lt _ (by decide)), if_pos hj,
        Nat.testBit_mod_two_pow, decide_eq_true hj]
      rfl
    | succ i =>
      have hout : ¬ 8 * (i + 1) + j < 8 := by omega
      have hin : 8 * (i + 1) + j - 8 = 8 * i + j := by omega
      rw [Nat.testBit_two_pow_mul_add _ (Nat.mod_lt _ (by decide)), if_neg hout, hin, ih (Nat.lt_of_succ_lt_succ hi)]
      rfl

theorem getLsbD_maskBits (mask : Half) {i j : Nat} (hi : i < 16) (hj : j < 8) :
    (maskBits mask).getLsbD (8 * i + j) = mask.getLsbD i := by
  have hbytes : (List.range 16).map (fun i => (1, if mask.getLsbD i then 255 else 0)) =
      ((List.range 16).map fun i => if mask.getLsbD i then 255 else 0).map fun v => (1, v) := by
    rw [List.map_map]; rfl
  have hones : Nat.testBit 255 j = true := by revert j; decide
  rw [maskBits, packPart, BitVec.getLsbD_ofNat, hbytes, packNat_bytes _ (by simpa using hi) hj]
  have hlt : 8 * i + j < 128 := by omega
  cases hm : mask.getLsbD i <;> simp [hm, hones, hlt]

theorem getLsbD_mergedWith (n : Nat) {i j : Nat} (hi : i < 16) (hj : j < 8) (hm : mask.getLsbD i = true) :
    (mergedWith s n data mask).getLsbD (8 * i + j) = data.getLsbD (8 * i + j) := by
  have hlt : 8 * i + j < 128 := by omega
  have hmask : (maskBits mask).getLsbD (8 * i + j) = true := (getLsbD_maskBits mask hi hj).trans hm
  simp only [mergedWith, mergePart, BitVec.getLsbD_or, BitVec.getLsbD_and, BitVec.getLsbD_not, hmask, hlt, decide_true,
    Bool.not_true, Bool.and_false, Bool.false_or, Bool.and_true]

/-- Byte 2 of the part is written. -/
theorem byteTwo_written (mask : Half) : (mask ||| 4).getLsbD 2 = true ∧ mask ||| 4 ≠ 0 := by
  have hbit : (mask ||| 4).getLsbD 2 = true := by simp
  refine ⟨hbit, fun e => ?_⟩
  rw [e] at hbit
  simp at hbit

theorem readForMerge_clean {n : Nat} (h : PartClean s n) : readForMerge n mask data s = (some (mergedWith s n data mask), s) := by
  unfold readForMerge
  split
  · rename_i hf
    rw [mergedWith, fullMask_iff.1 hf, mergePart_full]
  · rw [readPart_clean s n h]
    rfl

/-! ### What line effects leave of the part -/

/-- The blocks that no line effect changes: those of `quiet`, table memory with the management unit, the markings. -/
structure Files (s t : State) : Prop where
  quiet : quiet t = quiet s
  tables : tables t = tables s
  marked : partMarked t = partMarked s

theorem Files.refl (s : State) : Files s s := ⟨rfl, rfl, rfl⟩

theorem Files.trans (h : Files s t) (h' : Files t u) : Files s u :=
  ⟨h'.quiet.trans h.quiet, h'.tables.trans h.tables, h'.marked.trans h.marked⟩

theorem files_setLine (s : State) (l : Line) : Files s (s.setLine l) := ⟨rfl, rfl, rfl⟩

theorem Files.refreshed (h : Files s t) : Files s (refreshTx t) :=
  h.trans ⟨quiet_refreshTx t, tables_refreshTx t, marked_refreshTx t⟩

theorem Files.reported (h : Files s t) : Files s (report t) :=
  h.trans ⟨quiet_report t, tables_report t, marked_report t⟩

theorem files_enterLost (cause : Nat) (s : State) : Files s (enterLost cause s) := by
  have hlatch : Files s (latch .trackerLost cause s) := ⟨rfl, rfl, rfl⟩
  unfold enterLost
  split
  · exact .refl s
  · exact (files_setLine _ _).refreshed.reported
  all_goals exact (hlatch.trans (files_setLine _ _)).refreshed.reported

theorem files_enterStale (s : State) : Files s (enterStale s) := by
  have hlay : ∀ l, Files s (s.setLay l) := fun _ => ⟨rfl, rfl, rfl⟩
  unfold enterStale
  split
  · exact .refl s
  · exact ((hlay _).trans (files_setLine _ _)).refreshed.reported

theorem files_abandonFrame (s : State) : Files s (abandonFrame s) := by
  obtain ⟨a, -, he⟩ := abandonFrame_line s
  rw [he]
  exact files_setLine _ _

theorem files_settingsChanged (s : State) : Files s (settingsChanged s) := (files_abandonFrame s).trans (files_setLine _ _)

theorem files_frameDue (d : Word) (s : State) : Files s (frameDue d s) := by
  unfold frameDue; split <;> exact files_setLine _ _

theorem files_loopSet (s : State) : Files s (loopSet s) :=
  (((files_abandonFrame s).trans (files_setLine _ _)).trans (files_setLine _ _)).trans
    ((files_frameDue _ _).trans (files_enterLost _ _))

theorem files_loopCleared (s : State) : Files s (loopCleared s) :=
  ((files_abandonFrame s).trans (files_setLine _ _)).refreshed

theorem files_reachStale (s : State) : Files s (reachStale s) := by
  unfold reachStale
  split
  · exact files_enterStale s
  · exact .refl s

theorem files_reachLost (s : State) : Files s (reachLost s) := by
  unfold reachLost
  split
  · exact files_enterLost 1 s
  · exact .refl s

theorem files_recomputeExpiries (s : State) : Files s (recomputeExpiries s) := by
  unfold recomputeExpiries
  split
  · exact .refl s
  · exact ((files_setLine _ _).trans (files_reachStale _)).trans (files_reachLost _)

/-! ### The line effects, one after another (log entry 39) -/

/-- The first of them: changed line settings (R86, R100). -/
def afterSettings (old : Params) (s : State) : State := if settingsDiffer old s.params then settingsChanged s else s

/-- The last of them: changed ages (R96). -/
def afterAges (old new : Params) (s : State) : State := if agesDiffer old new then recomputeExpiries s else s

theorem lineEffects_same (h : old.trkLoop = s.params.trkLoop) : lineEffects old s = afterAges old s.params (afterSettings old s) := by
  simp only [lineEffects, h, beq_self_eq_true, if_true]
  rfl

theorem lineEffects_set (ho : old.trkLoop = false) (h : s.params.trkLoop = true) :
    lineEffects old s = afterAges old s.params (loopSet (afterSettings old s)) := by
  simp only [lineEffects, ho, h]
  rfl

theorem lineEffects_cleared (ho : old.trkLoop = true) (h : s.params.trkLoop = false) :
    lineEffects old s = afterAges old s.params (loopCleared (afterSettings old s)) := by
  simp only [lineEffects, ho, h]
  rfl

theorem files_afterSettings (old : Params) (s : State) : Files s (afterSettings old s) := by
  unfold afterSettings
  split
  · exact files_settingsChanged s
  · exact .refl s

theorem files_afterAges (old new : Params) (s : State) : Files s (afterAges old new s) := by
  unfold afterAges
  split
  · exact files_recomputeExpiries s
  · exact .refl s

theorem files_lineEffects (old : Params) (s : State) : Files s (lineEffects old s) := by
  cases ho : old.trkLoop <;> cases h : s.params.trkLoop
  case false.true => exact lineEffects_set ho h ▸ ((files_afterSettings _ _).trans (files_loopSet _)).trans (files_afterAges _ _ _)
  case true.false => exact lineEffects_cleared ho h ▸ ((files_afterSettings _ _).trans (files_loopCleared _)).trans (files_afterAges _ _ _)
  all_goals exact lineEffects_same (ho.trans h.symm) ▸ (files_afterSettings _ _).trans (files_afterAges _ _ _)

theorem settingsDiffer_iff (a b : Params) : settingsDiffer a b = true ↔ a.rate ≠ b.rate ∨ a.parity ≠ b.parity := by
  simp [settingsDiffer]

theorem agesDiffer_iff (a b : Params) : agesDiffer a b = true ↔ a.staleAge ≠ b.staleAge ∨ a.lostAge ≠ b.lostAge := by
  simp [agesDiffer]

theorem afterAges_same {new : Params} (h1 : old.staleAge = new.staleAge) (h2 : old.lostAge = new.lostAge) (s : State) :
    afterAges old new s = s :=
  if_neg fun h => ((agesDiffer_iff _ _).1 h).elim (absurd h1) (absurd h2)

/-- Changed line settings leave all of the line but the assembler, the counters and the frames to be sent. -/
theorem afterSettings_line (old : Params) (s : State) : ∃ a c x y, afterSettings old s =
    s.setLine { s.line with asm := a, count := c, sending := x, waiting := y } := by
  unfold afterSettings
  split
  · obtain ⟨a, -, he⟩ := abandonFrame_line s
    exact ⟨_, _, _, _, by rw [settingsChanged, he]; rfl⟩
  · exact ⟨_, _, _, _, rfl⟩

/-- The expiries that changed ages bring can change the tracker state; the assembler and the counters stand. -/
theorem afterAges_frames (old new : Params) (s : State) :
    (afterAges old new s).line.asm = s.line.asm ∧ (afterAges old new s).line.count = s.line.count := by
  have hstale : ∀ x : State, (reachStale x).line.asm = x.line.asm ∧ (reachStale x).line.count = x.line.count := fun x => by
    unfold reachStale
    split
    · exact ⟨(congrArg Line.asm (receiver_enterStale x) :), (congrArg Line.count (receiver_enterStale x) :)⟩
    · exact ⟨rfl, rfl⟩
  have hlost : ∀ x : State, (reachLost x).line.asm = x.line.asm ∧ (reachLost x).line.count = x.line.count := fun x => by
    unfold reachLost
    split
    · exact ⟨(congrArg Line.asm (receiver_enterLost 1 x) :), (congrArg Line.count (receiver_enterLost 1 x) :)⟩
    · exact ⟨rfl, rfl⟩
  unfold afterAges recomputeExpiries
  split
  · split
    · exact ⟨rfl, rfl⟩
    · obtain ⟨ha, hc⟩ := hlost (reachStale _)
      obtain ⟨ha', hc'⟩ := hstale _
      exact ⟨ha.trans ha', hc.trans hc'⟩
  · exact ⟨rfl, rfl⟩

/-- A tracker that is LOST has no expiry: changed ages move the instants alone. -/
theorem afterAges_lost (h : s.line.state = .lost) (old new : Params) : ∃ a b, afterAges old new s =
    s.setLine { s.line with staleAt := a, lostAt := b } := by
  unfold afterAges recomputeExpiries
  split
  · split
    · exact ⟨_, _, rfl⟩
    · rw [reachStale_not (.inl (by rw [State.setLine_line, h]; decide)), reachLost_not (by exact .inr (.inl h))]
      exact ⟨_, _, rfl⟩
  · exact ⟨_, _, rfl⟩

/-! ### The loop test set and cleared (R101) -/

theorem refreshTx_looped (hl : s.params.trkLoop = true) (hr : s.line.running = true) : refreshTx s = s := by
  have hrun : txShouldRun s = true := by rw [txShouldRun, hl, Bool.true_or]
  rw [refreshTx, if_pos hrun, if_pos hr]

theorem line_setMode_looped (m : Mode) (hl : s.params.trkLoop = true) (hr : s.line.running = true) :
    (setMode m s).line = s.line := by
  rw [setMode, refreshTx_looped (by exact hl) (by exact hr)]
  rfl

/-- In the loop test, with the transmitter running, a report of the causes leaves the line alone. -/
theorem line_report_looped (hl : s.params.trkLoop = true) (hr : s.line.running = true) : (report s).line = s.line := by
  rcases report_eq s with he | ⟨-, -, he⟩ <;> rw [he]
  · rfl
  · exact line_setMode_looped .hold (s := endRecovery _) hl hr

theorem line_enterLost_looped (cause : Nat) (hl : s.params.trkLoop = true) (hr : s.line.running = true) :
    (enterLost cause s).line = { s.line with state := .lost } := by
  have hrun : ∀ x : State, x.params = s.params → x.line = { s.line with state := .lost } →
      (report (refreshTx x)).line = { s.line with state := .lost } := by
    intro x hp hx
    have hl' : x.params.trkLoop = true := hp ▸ hl
    have hr' : x.line.running = true := hx ▸ hr
    rw [refreshTx_looped hl' hr', line_report_looped hl' hr', hx]
  unfold enterLost
  split
  · rename_i h
    rw [← h]
  all_goals exact hrun _ rfl rfl

/-- R101: the loop test begins with a hunting assembler, a frame due at once and the tracker LOST. -/
theorem loopSet_eq (s : State) : ∃ (a : Assembler) (c : LineCounters), a.state = .hunt ∧
    loopSet s = enterLost 4 (s.setLine { s.line with
      asm := a, count := c, inBreak := false, breakDue := none, running := true, lastDue := some s.clock.ms
      sending := some { bytes := reacquireFrame s.stab.pNow, begun := s.clock.us, fed := 0 }, waiting := none }) := by
  obtain ⟨a, ha, he⟩ := abandonFrame_line s
  exact ⟨a, _, ha, by rw [loopSet, he]; rfl⟩

/-- R101: with the loop test cleared the transmitter has no frame, and it goes on or stops by its condition. -/
theorem loopCleared_eq (s : State) : ∃ (a : Assembler) (c : LineCounters), a.state = .hunt ∧
    loopCleared s = refreshTx (s.setLine { s.line with asm := a, count := c, sending := none, waiting := none }) := by
  obtain ⟨a, ha, he⟩ := abandonFrame_line s
  exact ⟨a, _, ha, by rw [loopCleared, he]; rfl⟩

/-- R99: the transmitter of a LOST tracker out of the loop test, with no frame to send. -/
theorem refreshTx_lost (hl : s.params.trkLoop = false) (hs : s.line.state = .lost) (hf : s.line.sending = none)
    (hw : s.line.waiting = none) :
    (refreshTx s).line.waiting = none ∧
      (s.ctl.mode ≠ .standby → s.line.running = true → refreshTx s = s) ∧
      (s.ctl.mode = .standby → refreshTx s = s.setLine { s.line with running := false, lastDue := none, waiting := none }) := by
  have hrun : txShouldRun s = (s.ctl.mode != .standby) := by rw [txShouldRun, hl, hs]; rfl
  refine ⟨?_, fun hm hr => ?_, fun hm => ?_⟩
  · unfold refreshTx frameDue
    split
    · split
      · exact hw
      · simp only [State.setLine_line, hf, hw]
    · rfl
  · rw [refreshTx, hrun, if_pos (by simpa using hm), if_pos hr]
  · rw [refreshTx, hrun, hm, if_neg (by decide)]

theorem BecomesLost.setLine {cause : Nat} {l : Line} (h : BecomesLost cause s t) (hl : l.state = .lost) :
    BecomesLost cause s (t.setLine l) :=
  ⟨hl, h.active, h.latched, h.silent, h.hold, h.held⟩

/-! ### The loop receiver ahead of the WRITE (log entry 23) -/

theorem takeByte_looped (h : s.params.trkLoop = true) (b : Byte) (flag : Bool) :
    ∃ a c, takeByte b flag s = s.setLine { s.line with asm := a, count := c } := by
  cases hstate : s.line.asm.state with
  | hunt =>
    rw [takeByte_hunt hstate]
    split <;> exact ⟨_, _, rfl⟩
  | length =>
    rw [takeByte_length hstate]
    split <;> exact ⟨_, _, rfl⟩
  | body => exact ⟨_, _, takeByte_body hstate⟩
  | check =>
    cases hcrc : s.line.asm.crcHigh with
    | none => exact ⟨_, _, takeByte_crcHigh hstate hcrc⟩
    | some high =>
      rw [takeByte_crcLow hstate hcrc, completeFrame]
      split
      · exact ⟨_, _, rfl⟩
      · split
        · exact ⟨_, _, rfl⟩
        · rw [if_pos (show (setAsm Assembler.initial s).params.trkLoop = true from h)]
          exact ⟨_, _, rfl⟩

theorem takeBytes_looped (h : s.params.trkLoop = true) (l : List (Byte × Bool)) :
    ∃ a c, takeBytes l s = s.setLine { s.line with asm := a, count := c } := by
  induction l generalizing s with
  | nil => exact ⟨_, _, rfl⟩
  | cons x l ih =>
    obtain ⟨a, c, hx⟩ := takeByte_looped h x.1 x.2
    obtain ⟨a', c', hl⟩ := ih (s := s.setLine { s.line with asm := a, count := c }) h
    exact ⟨a', c', (congrArg (takeBytes l) hx).trans hl⟩

theorem loopFeed_line (n : Nat) (noise : Half) (bad : Bool) (s : State) : ∃ x a c, loopFeed n noise bad s =
    s.setLine { s.line with sending := x, asm := a, count := c } := by
  unfold loopFeed
  split
  · rename_i f hloop _
    refine ⟨some { f with fed := max f.fed n }, ?_⟩
    exact takeBytes_looped (s := s.setLine { s.line with sending := some { f with fed := max f.fed n } }) hloop _
  · exact ⟨_, _, _, rfl⟩

theorem loopCatchUp_line (s : State) : ∃ x a c, loopCatchUp s =
    s.setLine { s.line with sending := x, asm := a, count := c } := by
  unfold loopCatchUp
  split
  · exact loopFeed_line _ _ _ s
  · exact ⟨_, _, _, rfl⟩

/-! ### The WRITE (R167, R172) -/

/-- The new values stand, and their image is stored, before the line effects. -/
def stored (v : Params) (s : State) : State := storePart 11 (paramImage 3 v) ((loopCatchUp s).setParams v)

theorem acceptParam_three (v : Params) (s : State) : acceptParam 3 v s = lineEffects s.params (stored v s) := by
  obtain ⟨x, a, c, he⟩ := loopCatchUp_line s
  have hp : (loopCatchUp s).params = s.params := by rw [he]; rfl
  rw [stored, ← hp]
  rfl

theorem partMarked_stored (v : Params) (s : State) : partMarked (stored v s) = partMarked s := by
  obtain ⟨x, a, c, he⟩ := loopCatchUp_line s
  rw [stored, marked_storePart, he]
  rfl

/-- After the WRITE its part reads without an error. -/
theorem partClean_acceptParam (hc : PartClean s 11) (v : Params) : PartClean (acceptParam 3 v s) 11 := by
  obtain ⟨-, htables, hmarked⟩ := files_lineEffects s.params (stored v s)
  have hmem : (lineEffects s.params (stored v s)).mem = (loopCatchUp s).mem.store 11 (paramImage 3 v) :=
    congrArg Prod.fst htables
  obtain ⟨h0, h1⟩ := wordFlips_store (loopCatchUp s).mem 11 (paramImage 3 v)
  rw [acceptParam_three]
  exact ⟨hmem ▸ h0, hmem ▸ h1, by rw [hmarked, partMarked_stored]; exact hc.2.2⟩

/-- The request of a WRITE to PARAM part 3. -/
def lineRequest (who : Sender) (mask : Half) (data : Part) : Request := requestFor who opWrite paramLine 0 mask data

theorem respond_line (hc : PartClean s 11) (code : ReplyCode) :
    ∃ d, respond (lineRequest who mask data) code s = replied who 2 code 0 d s := by
  have hn : partNumber (lineRequest who mask data).table.toNat (lineRequest who mask data).index.toNat
      (lineRequest who mask data).part.toNat = some 11 := rfl
  have hw : writtenPart 11 s = (shownPart s 11 (partData s.mem.cells 11), s) := by
    rw [writtenPart, hc.2.2, if_neg Bool.false_ne_true, readPart_clean s 11 hc]
  rw [respond_write rfl, writeShown, hn]
  simp only [hw]
  exact ⟨_, rfl⟩

/-- A WRITE to PARAM part 3 that is heard at level 1 or lower. -/
theorem operate_line (h : Heard s who level) (hlevel : level ≤ 1) (hc : PartClean s 11) (hm : mask ≠ 0) :
    ∃ code d, operate who opWrite paramLine 0 mask data s =
      .next (replied who 2 code 0 d
        (acceptParam 3 (paramClamp 3 (mergedWith s 11 data mask) s.params) (arrived .up s))) := by
  have hpart : writeParamPart (lineRequest who mask data) 3 (arrived .up s) =
      respond (lineRequest who mask data)
        (paramCode 3 (mergedWith s 11 data mask) (paramClamp 3 (mergedWith s 11 data mask) s.params))
        (acceptParam 3 (paramClamp 3 (mergedWith s 11 data mask) s.params) (arrived .up s)) := by
    have hmask : ¬ (lineRequest who mask data).mask = 0 := hm
    have hread : readForMerge (paramPart 3) (lineRequest who mask data).mask (lineRequest who mask data).data (arrived .up s) =
      (some (mergedWith s 11 data mask), arrived .up s) := readForMerge_clean (s := arrived .up s) (n := 11) hc
    rw [writeParamPart, hread]
    simp only [if_neg hmask]
    rfl
  have htable : opWriteExec (lineRequest who mask data) level (arrived .up s) =
      writeParamPart (lineRequest who mask data) 3 (arrived .up s) := by
    have ht : (lineRequest who mask data).table.toNat = 2 := rfl
    have hp : (lineRequest who mask data).part.toNat = 3 := rfl
    have hi : (lineRequest who mask data).index = 0 := rfl
    rw [opWriteExec, ht]
    simp only []
    rw [writeParamTable, hp, hi]
    simp [Nat.not_lt.2 hlevel]
  obtain ⟨d, hd⟩ := respond_line (who := who) (mask := mask) (data := data)
    (partClean_acceptParam (s := arrived .up s) hc (paramClamp 3 (mergedWith s 11 data mask) s.params))
    (paramCode 3 (mergedWith s 11 data mask) (paramClamp 3 (mergedWith s 11 data mask) s.params))
  have hperform := operate_performed s who level opWrite paramLine 0 mask data h rfl rfl (Nat.le_succ_of_le hlevel)
  exact ⟨_, d, hperform.trans (congrArg _ ((htable.trans hpart).trans hd))⟩

end Sys2Proof.Machine
end

section
/-! SUPPORT. Line settings and the loop test as the WRITE brings them (R86, R100, R101): the tracker line after each of the three
changes. -/

namespace Sys2Proof.Machine

variable {s t u : State} {who : Sender} {level : Nat} {mask : Half} {data m : Part} {v old : Params}

/-! ### The tracker line after the line effects -/

/-- R86, R100: changed settings abandon the frame begun, and the pending frame begins unless an expiry starts another. -/
theorem lineEffects_settings (ho : old.trkLoop = false) (hn : s.params.trkLoop = false)
    (hd : old.rate ≠ s.params.rate ∨ old.parity ≠ s.params.parity) :
    (lineEffects old s).line.asm.state = .hunt ∧
      (lineEffects old s).line.count.discards = (if s.line.asm.state = .hunt then s.line.count.discards
        else bump s.line.count.discards) ∧
      (old.staleAge = s.params.staleAge → old.lostAge = s.params.lostAge →
        (lineEffects old s).line.waiting = none ∧ (lineEffects old s).line.state = s.line.state ∧
        (lineEffects old s).line.sending = s.line.waiting.map (fun b => { bytes := b, begun := s.clock.us, fed := 0 })) := by
  obtain ⟨a, ha, he⟩ := abandonFrame_line s
  have hafter : afterSettings old s = beginWaiting (abandonFrame s) := if_pos ((settingsDiffer_iff _ _).2 hd)
  rw [he] at hafter
  rw [lineEffects_same (ho.trans hn.symm), hafter]
  obtain ⟨hasm, hcount⟩ := afterAges_frames old s.params (beginWaiting (s.setLine { s.line with
    asm := a
    count := { s.line.count with
      discards := if s.line.asm.state = .hunt then s.line.count.discards else bump s.line.count.discards } }))
  refine ⟨(congrArg Assembler.state hasm).trans ha, congrArg LineCounters.discards hcount, fun h1 h2 => ?_⟩
  rw [afterAges_same h1 h2]
  exact ⟨rfl, rfl, rfl⟩

theorem lineEffects_unchanged (ho : old.trkLoop = s.params.trkLoop) (hr : old.rate = s.params.rate)
    (hp : old.parity = s.params.parity) (h1 : old.staleAge = s.params.staleAge) (h2 : old.lostAge = s.params.lostAge) :
    lineEffects old s = s := by
  have hafter : afterSettings old s = s := if_neg fun h => ((settingsDiffer_iff _ _).1 h).elim (absurd hr) (absurd hp)
  rw [lineEffects_same ho, hafter, afterAges_same h1 h2]

/-- R101: what setting TRK_LOOP leaves of the tracker line. -/
theorem lineEffects_loopSet (ho : old.trkLoop = false) (hn : s.params.trkLoop = true) :
    ∃ a c x y, a.state = .hunt ∧ (lineEffects old s).line = { s.line with
        asm := a, count := c, inBreak := false, breakDue := none, running := true, lastDue := some s.clock.ms
        sending := some { bytes := reacquireFrame s.stab.pNow, begun := s.clock.us, fed := 0 }, waiting := none
        state := .lost, staleAt := x, lostAt := y } ∧
      (s.line.state ≠ .lost → BecomesLost 4 s (lineEffects old s)) := by
  obtain ⟨a₀, c₀, x₀, y₀, hafter⟩ := afterSettings_line old s
  obtain ⟨a, c, ha, hset⟩ := loopSet_eq (afterSettings old s)
  obtain ⟨w, hw⟩ : ∃ w, w = (afterSettings old s).setLine { (afterSettings old s).line with
      asm := a, count := c, inBreak := false, breakDue := none, running := true
      lastDue := some (afterSettings old s).clock.ms
      sending := some
        { bytes := reacquireFrame (afterSettings old s).stab.pNow, begun := (afterSettings old s).clock.us, fed := 0 }
      waiting := none } := ⟨_, rfl⟩
  rw [← hw] at hset
  rw [hafter] at hw
  have hline : (enterLost 4 w).line = { w.line with state := .lost } := line_enterLost_looped 4 (hw ▸ hn) (hw ▸ rfl)
  have hlost : (enterLost 4 w).line.state = .lost := state_enterLost 4 w
  obtain ⟨x, y, haged⟩ := afterAges_lost hlost old s.params
  rw [lineEffects_set ho hn, hset, haged, State.setLine_line, hline]
  refine ⟨a, c, x, y, ha, by rw [hw]; rfl, fun h => ?_⟩
  have hbecomes : BecomesLost 4 w (enterLost 4 w) := becomesLost_enterLost (hw ▸ h)
  exact (hbecomes.of_same (hw ▸ rfl) (hw ▸ rfl) (hw ▸ rfl)).setLine rfl

/-- R101: what clearing TRK_LOOP leaves of the line of a LOST tracker. -/
theorem lineEffects_loopCleared (ho : old.trkLoop = true) (hn : s.params.trkLoop = false) (hs : s.line.state = .lost) :
    (lineEffects old s).line.asm.state = .hunt ∧ (lineEffects old s).line.state = .lost ∧
      (s.ctl.mode ≠ .standby → s.line.running = true →
        (lineEffects old s).line.running = true ∧ (lineEffects old s).line.sending = none) ∧
      (s.ctl.mode = .standby → (lineEffects old s).line.running = false ∧ (lineEffects old s).line.lastDue = none ∧
        (lineEffects old s).line.sending = none) ∧
      (lineEffects old s).line.waiting = none := by
  obtain ⟨a₀, c₀, x₀, y₀, hafter⟩ := afterSettings_line old s
  obtain ⟨a, c, ha, hcleared⟩ := loopCleared_eq (afterSettings old s)
  obtain ⟨w, hw⟩ : ∃ w, w = (afterSettings old s).setLine { (afterSettings old s).line with
      asm := a, count := c, sending := none, waiting := none } := ⟨_, rfl⟩
  rw [← hw] at hcleared
  rw [hafter] at hw
  have hasm : (refreshTx w).line.asm.state = .hunt :=
    (congrArg (·.asm.state) (receiver_refreshTx w) :).trans (hw ▸ ha)
  have hlost : (refreshTx w).line.state = .lost := (congrArg Line.state (receiver_refreshTx w) :).trans (hw ▸ hs)
  obtain ⟨hwaiting, hgoes, hstops⟩ := refreshTx_lost (s := w) (hw ▸ hn) (hw ▸ hs) (hw ▸ rfl) (hw ▸ rfl)
  obtain ⟨x, y, haged⟩ := afterAges_lost hlost old s.params
  rw [lineEffects_cleared ho hn, hcleared, haged]
  refine ⟨hasm, hlost, fun hm hr => ?_, fun hm => ?_, hwaiting⟩
  · rw [hgoes (hw ▸ hm) (hw ▸ hr), hw]
    exact ⟨hr, rfl⟩
  · rw [hstops (hw ▸ hm), hw]
    exact ⟨rfl, rfl, rfl⟩

/-! ### The state that the line effects find -/

theorem stored_line (v : Params) (s : State) : ∃ x a c, stored v s =
    storePart 11 (paramImage 3 v) ((s.setLine { s.line with sending := x, asm := a, count := c }).setParams v) := by
  obtain ⟨x, a, c, he⟩ := loopCatchUp_line s
  exact ⟨x, a, c, by rw [stored, he]⟩

theorem stored_unlooped (h : s.params.trkLoop = false) (v : Params) :
    stored v s = storePart 11 (paramImage 3 v) (s.setParams v) := by
  have hcatch : loopCatchUp s = s := by
    unfold loopCatchUp
    split
    · exact loopFeed_none (.inl h)
    · rfl
  rw [stored, hcatch]

/-- An accepted WRITE to PARAM part 3 brings its values into force and leaves the other blocks that its statement names. -/
theorem acceptParam_frame (v : Params) (s : State) :
    (acceptParam 3 v s).params = v ∧ (acceptParam 3 v s).plan = s.plan ∧ (acceptParam 3 v s).axis = s.axis ∧
      (acceptParam 3 v s).stab = s.stab ∧ (acceptParam 3 v s).mgmt.replies = s.mgmt.replies := by
  obtain ⟨x, a, c, he⟩ := stored_line v s
  obtain ⟨hquiet, htables, -⟩ := files_lineEffects s.params (stored v s)
  obtain ⟨-, -, -, haxis, hstab, hplan, -, hparams, -⟩ := (quiet_eq _ _).1 hquiet
  have hmgmt : (lineEffects s.params (stored v s)).mgmt = (stored v s).mgmt := congrArg (·.2.1) htables
  rw [acceptParam_three, hparams, hplan, haxis, hstab, hmgmt, he]
  exact ⟨rfl, rfl, rfl, rfl, rfl⟩

/-- R86: the values of a merged part 3 whose apply flag is set. -/
theorem paramClamp_applied (hm : m.getLsbD 16 = true) (old : Params) :
    (paramClamp 3 m old).rate = min 5 (field m 0 1) ∧ (paramClamp 3 m old).parity = min 2 (field m 1 1) ∧
      (paramClamp 3 m old).trkLoop = m.getLsbD 17 := by
  simp [paramClamp, applyFlag, hm, clampN]

/-! ### The obligation -/

/-- APPLY: the merged values in force, and the line by its settings. -/
theorem exec_applySettings (h : Heard s who level) (hlevel : level ≤ 1) (hc : PartClean s 11)
    (hm : m = mergedWith s 11 (data ||| 0x10000) (mask ||| 4)) :
    ∃ code d v, exec (.applySettings who 0 mask data) s = .next (replied who 2 code 0 d (acceptParam 3 v (arrived .up s))) ∧
      v.rate = min 5 (field m 0 1) ∧ v.parity = min 2 (field m 1 1) ∧ v.trkLoop = m.getLsbD 17 := by
  obtain ⟨hbyte, hmask⟩ := byteTwo_written mask
  obtain ⟨code, d, he⟩ := operate_line (data := data ||| 0x10000) h hlevel hc hmask
  rw [← hm] at he
  have happly : m.getLsbD 16 = true := by
    rw [hm, getLsbD_mergedWith (i := 2) (j := 0) 11 (by decide) (by decide) hbyte]
    simp
  exact ⟨code, d, _, he, paramClamp_applied happly _⟩

/-- The loop test set or cleared: byte 2 of the part carries the flag. -/
theorem exec_line_loop {loop : Bool} (h : Heard s who level) (hlevel : level ≤ 1) (hc : PartClean s 11)
    (hd : data.getLsbD 17 = loop) :
    ∃ code d v, operate who opWrite paramLine 0 (mask ||| 4) data s =
        .next (replied who 2 code 0 d (acceptParam 3 v (arrived .up s))) ∧ v.trkLoop = loop := by
  obtain ⟨hbyte, hmask⟩ := byteTwo_written mask
  obtain ⟨code, d, he⟩ := operate_line (data := data) h hlevel hc hmask
  have hloop := (getLsbD_mergedWith (s := s) (data := data) (i := 2) (j := 1) 11 (by decide) (by decide) hbyte).trans hd
  exact ⟨code, d, _, he, hloop⟩

/-- Settles O45: the WRITE brings the values into force, and `lineEffects` acts on the line by what changed. -/
theorem lineSettingsTakeEffectAtTheWrite : Obligations.LineSettingsTakeEffectAtTheWrite := by
  intro s who level mask data h hlevel hc _
  refine ⟨fun m hm => ?_, fun hloop => ?_, fun hloop hlost => ?_⟩
  · obtain ⟨code, d, v, he, hrate, hparity, hflag⟩ := exec_applySettings h hlevel hc hm
    obtain ⟨hparams, hplan, haxis, hstab, hreplies⟩ := acceptParam_frame v (arrived .up s)
    have heffects : s.params.trkLoop = false → acceptParam 3 v (arrived .up s) =
        lineEffects s.params (storePart 11 (paramImage 3 v) ((arrived .up s).setParams v)) := fun hloop =>
      (acceptParam_three v (arrived .up s)).trans (congrArg _ (stored_unlooped (s := arrived .up s) hloop v))
    generalize acceptParam 3 v (arrived .up s) = t at he hparams hplan haxis hstab hreplies heffects
    subst hparams
    refine ⟨t, code, d, he, hrate, hparity, hflag, hplan, haxis, hstab, hreplies, fun hloop hoff hd => ?_,
      fun hloop hoff hr hp h1 h2 => ?_⟩
    · obtain ⟨hasm, hdiscards, hrest⟩ := lineEffects_settings
        (s := storePart 11 (paramImage 3 t.params) ((arrived .up s).setParams t.params)) (old := s.params) hloop
        (hflag.trans hoff) (hd.imp Ne.symm Ne.symm)
      rw [← heffects hloop] at hasm hdiscards hrest
      exact ⟨hasm, hdiscards, fun h1 h2 => hrest h1.symm h2.symm⟩
    · have hsame := lineEffects_unchanged (s := storePart 11 (paramImage 3 t.params) ((arrived .up s).setParams t.params))
        (old := s.params) (hloop.trans (hflag.trans hoff).symm) hr.symm hp.symm h1.symm h2.symm
      exact (congrArg State.line ((heffects hloop).trans hsame) :)
  · have hbit : (data ||| 0x20000).getLsbD 17 = true := by simp
    obtain ⟨code, d, v, he, hv⟩ := exec_line_loop (mask := mask) h hlevel hc hbit
    obtain ⟨hparams, -⟩ := acceptParam_frame v (arrived .up s)
    obtain ⟨u, hu⟩ : ∃ u, u = storePart 11 (paramImage 3 v) ((arrived .up s).setParams v) := ⟨_, rfl⟩
    have heffects : acceptParam 3 v (arrived .up s) = lineEffects s.params u := by
      rw [hu, ← stored_unlooped (s := arrived .up s) hloop]
      exact acceptParam_three v (arrived .up s)
    generalize acceptParam 3 v (arrived .up s) = t at he hparams heffects
    obtain ⟨a, c, x, y, ha, hline, hbecomes⟩ := lineEffects_loopSet (s := u) (old := s.params) hloop (hu ▸ hv)
    rw [← heffects] at hline hbecomes
    rw [hu] at hbecomes hline
    refine ⟨t, code, d, he, (congrArg Params.trkLoop hparams).trans hv, ?_⟩
    rw [hline]
    exact ⟨ha, rfl, rfl, rfl, rfl, rfl, rfl, fun hne => (hbecomes hne).of_same rfl rfl rfl⟩
  · have hbit : (data &&& ~~~0x20000#128).getLsbD 17 = false := by simp
    obtain ⟨code, d, v, he, hv⟩ := exec_line_loop (mask := mask) h hlevel hc hbit
    obtain ⟨hparams, -⟩ := acceptParam_frame v (arrived .up s)
    have heffects : acceptParam 3 v (arrived .up s) = lineEffects s.params (stored v (arrived .up s)) :=
      acceptParam_three v (arrived .up s)
    generalize acceptParam 3 v (arrived .up s) = t at he hparams heffects
    obtain ⟨x, a, c, hstored⟩ := stored_line v (arrived .up s)
    have hcleared := lineEffects_loopCleared (s := stored v (arrived .up s)) (old := s.params) hloop
    rw [← heffects, hstored] at hcleared
    exact ⟨t, code, d, he, (congrArg Params.trkLoop hparams).trans hv, hcleared hv hlost⟩

end Sys2Proof.Machine
end

section
/-! SUPPORT. SUSPEND, RESTORE and CLEAR_FAULTS (R109, R174): the two zone requests as one, and each branch of their judgement. -/

namespace Sys2Proof.Machine

variable {s : State} {who : Sender} {level : Nat} {index : Half} {on : Bool}

/-- The operation code of a SUSPEND, or with `on` clear of a RESTORE. -/
def suspendOp (on : Bool) : Byte := if on then opSuspend else opRestore

/-- The request of a SUSPEND or a RESTORE. -/
def suspendRequest (who : Sender) (on : Bool) (index : Half) : Request := requestFor who (suspendOp on) 0 index 0 0

@[simp] theorem suspendRequest_index : (suspendRequest who on index).index = index := rfl

theorem respond_suspend (code : ReplyCode) (s : State) : respond (suspendRequest who on index) code s =
    replied who (suspendOp on) code (suspendedBit s index.toNat) 0 s := by
  cases on <;> rfl

theorem suspendedBit_eq (s : State) (i : Nat) : suspendedBit s i = if s.guard.suspended.contains i then 4 else 0 := by
  unfold suspendedBit
  split <;> rename_i h
  · rw [h]; rfl
  · rw [Bool.eq_false_iff.2 h]; rfl

/-- A SUSPEND or RESTORE that is heard comes to its own tests. -/
theorem operate_suspend (h : Heard s who level) (hl : level ≤ 2) (on : Bool) (index : Half) :
    operate who (suspendOp on) 0 index 0 0 s =
      .next (opSuspendExec (suspendRequest who on index) level on (arrived .up s)) := by
  cases on
  · exact operate_performed s who level opRestore 0 index 0 0 h rfl rfl hl
  · exact operate_performed s who level opSuspend 0 index 0 0 h rfl rfl hl

/-! ### The branches of R109 -/

theorem suspend_beyond (hi : 64 ≤ index.toNat) : opSuspendExec (suspendRequest who on index) level on s =
    respond (suspendRequest who on index) .badIndex s := by
  rw [opSuspendExec, suspendRequest_index, if_pos hi]

theorem suspend_poisoned (hi : index.toNat < 64) (hp : s.guard.poisoned.contains (zonePart index.toNat 0) = true) :
    opSuspendExec (suspendRequest who on index) level on s =
      respond (suspendRequest who on index) (if level = 0 then .memoryError else .refusedLevel) s := by
  rw [opSuspendExec, suspendRequest_index, if_neg (by omega), if_pos hp, suspendPoisoned]
  rcases Nat.eq_zero_or_pos level with h0 | h0
  · rw [if_neg (by omega), if_pos h0]
  · rw [if_pos h0, if_neg (by omega)]

/-- A readable part 0 is judged by its present bit, then by its DPL. -/
theorem suspend_clean (hi : index.toNat < 64) (hc : PartClean s (69 + 2 * index.toNat)) :
    opSuspendExec (suspendRequest who on index) level on (arrived .up s) =
      if (!(peekPart s (69 + 2 * index.toNat)).getLsbD 0) = true then
        respond (suspendRequest who on index) .badIndex (arrived .up s)
      else if ((peekPart s (69 + 2 * index.toNat)).extractLsb' 4 2).toNat < level then
        respond (suspendRequest who on index) .refusedLevel (arrived .up s)
      else respond (suspendRequest who on index) .ok (setSuspended index.toNat on (arrived .up s)) := by
  have hp : ¬ s.guard.poisoned.contains (zonePart index.toNat 0) = true :=
    Bool.eq_false_iff.1 (Bool.or_eq_false_iff.1 hc.2.2).2
  have hr : readPart (zonePart index.toNat 0) (arrived .up s) =
      (some (peekPart s (69 + 2 * index.toNat)), arrived .up s) := readPart_clean (arrived .up s) _ hc
  rw [opSuspendExec, suspendRequest_index, if_neg (Nat.not_le.2 hi), arrived_guard, if_neg hp, hr]
  rfl

/-! ### The flag -/

theorem mem_setErase (n k : Nat) (l : List Nat) : k ∈ setErase n l ↔ k ≠ n ∧ k ∈ l := by
  simp [setErase, and_comm]

theorem suspendedBit_setSuspended (i : Nat) (s : State) : suspendedBit (setSuspended i on s) i = if on then 4 else 0 := by
  have hmem : (setSuspended i on s).guard.suspended.contains i = on := by
    rw [Bool.eq_iff_iff, List.contains_iff_mem]
    cases on
    · exact iff_of_false (fun hm => ((mem_setErase i i _).1 hm).1 rfl) Bool.false_ne_true
    · exact iff_of_true ((mem_setInsert i i _).2 (.inl rfl)) rfl
  rw [suspendedBit_eq, hmem]

theorem exec_clearFaults (h : Heard s who level) (hl : level ≤ 1) : exec (.clearFaults who) s =
    .next (replied who opClearFaults .ok 0 0 (clearFaults (arrived .up s))) :=
  operate_performed s who level opClearFaults 0 0 0 0 h rfl rfl hl

/-- Settles O55: SUSPEND and RESTORE are one request with a flag, judged branch by branch. -/
theorem suspendAndRestoreSetTheFlag : Obligations.SuspendAndRestoreSetTheFlag := by
  rintro s who level index n flag h hl rfl rfl
  rw [← suspendedBit_eq]
  have hrefused : ∀ code,
      (∀ on, opSuspendExec (suspendRequest who on index) level on (arrived .up s) =
        respond (suspendRequest who on index) code (arrived .up s)) →
      exec (.suspend who index) s = .next (replied who 9 code (suspendedBit s index.toNat) 0 (arrived .up s)) ∧
      exec (.restore who index) s = .next (replied who 10 code (suspendedBit s index.toNat) 0 (arrived .up s)) :=
    fun code hcode =>
      have hon := fun on => (operate_suspend h hl on index).trans (congrArg _ ((hcode on).trans (respond_suspend code _)))
      ⟨hon true, hon false⟩
  refine ⟨exec_clearFaults h, fun h2 => ?_, fun hi => hrefused _ fun _ => suspend_beyond hi, fun hi hp code hcode => ?_,
    fun hi hc hpres => hrefused _ fun _ => ?_, fun hi hc hpres hdpl => hrefused _ fun _ => ?_, fun hi hc hpres hdpl => ?_⟩
  · exact (operate_refused h 0 0 0 0 rfl rfl (h2 ▸ Nat.lt_succ_self 1)).trans
      (congrArg _ (respond_plain rfl 0 0 0 0 _ _))
  · exact hrefused _ fun _ => hcode ▸ suspend_poisoned hi hp
  · rw [suspend_clean hi hc, if_pos (by rw [hpres]; rfl)]
  · rw [suspend_clean hi hc, if_neg (by rw [hpres]; decide), if_pos hdpl]
  · have hok : ∀ on, operate who (suspendOp on) 0 index 0 0 s = .next (replied who (suspendOp on) .ok
        (if on then 4 else 0) 0 (setSuspended index.toNat on (arrived .up s))) := fun on => by
      rw [operate_suspend h hl, suspend_clean hi hc, if_neg (by rw [hpres]; decide), if_neg (Nat.not_lt.2 hdpl),
        respond_suspend, suspendedBit_setSuspended]
    exact ⟨_, _, hok true, hok false, fun i => mem_setInsert _ i _, fun i => mem_setErase _ i _⟩

end Sys2Proof.Machine
end

section
/-! SUPPORT. The evaluation of the envelope on clean zones (R110 to R112): its findings, zone by zone. -/

namespace Sys2Proof.Machine

variable {s : State} {e : Box}

/-! ### Boxes (R112) -/

theorem overlaps_iff (e b : Box) : e.overlaps b = true ↔ e.lo.x ≤ b.hi.x ∧ b.lo.x ≤ e.hi.x ∧ e.lo.y ≤ b.hi.y ∧
    b.lo.y ≤ e.hi.y ∧ e.lo.z ≤ b.hi.z ∧ b.lo.z ≤ e.hi.z := by
  simp only [Box.overlaps, Bool.and_eq_true, decide_eq_true_eq, and_assoc]

theorem contains_iff (b e : Box) : b.contains e = true ↔ b.lo.x ≤ e.lo.x ∧ e.hi.x ≤ b.hi.x ∧ b.lo.y ≤ e.lo.y ∧
    e.hi.y ≤ b.hi.y ∧ b.lo.z ≤ e.lo.z ∧ e.hi.z ≤ b.hi.z := by
  simp only [Box.contains, Bool.and_eq_true, decide_eq_true_eq, and_assoc]

/-! ### The zones of a type -/

/-- All 64 zones as an evaluation reads them when their parts are clean. -/
def cleanViews (s : State) : List ZoneView := (List.range 64).map (cleanView s)

/-- Zone `i` is active (R110) and of a type. -/
def ActiveOf (s : State) (i type : Nat) : Prop :=
  i < 64 ∧ zoneActive s i (cleanZone s i) = true ∧ (cleanZone s i).type = type

/-- Some active zone of a type has a box with a property. -/
theorem anyActive_iff (type : Nat) (p : Box → Bool) : (activeBoxes s type (cleanViews s)).any (fun b => p b.2) = true ↔
    ∃ i, ActiveOf s i type ∧ p (cleanZone s i).box = true := by
  rw [List.any_eq_true]
  constructor
  · rintro ⟨b, hb, hp⟩
    obtain ⟨i, hi, ha, ht, rfl⟩ := (mem_activeBoxes type b).1 hb
    exact ⟨i, ⟨hi, ha, ht⟩, hp⟩
  · rintro ⟨i, ⟨hi, ha, ht⟩, hp⟩
    exact ⟨_, (mem_activeBoxes type _).2 ⟨i, hi, ha, ht, rfl⟩, hp⟩

/-- R112: some KEEP_IN is active, and none of them contains the envelope. -/
theorem keepInFails_iff : keepInFails s e (cleanViews s) = true ↔
    (∃ i, ActiveOf s i 2) ∧ ∀ i, ActiveOf s i 2 → ¬ (cleanZone s i).box.contains e = true := by
  have hany := anyActive_iff (s := s) 2 fun b => b.contains e
  have hempty := isEmpty_activeBoxes (s := s) 2
  have hex : (∃ i < 64, zoneActive s i (cleanZone s i) = true ∧ (cleanZone s i).type = 2) ↔ ∃ i, ActiveOf s i 2 := Iff.rfl
  rw [hex] at hempty
  rw [keepInFails, Bool.and_eq_true, Bool.not_eq_true', Bool.not_eq_true', ← Bool.not_eq_true, ← Bool.not_eq_true, hany]
  refine and_congr ((not_congr hempty).trans not_not) ?_
  exact not_exists.trans (forall_congr' fun i => not_and)

/-! ### The violating zone (R112) -/

/-- Zone `i` is an active KEEP_OUT that overlaps the envelope. -/
def Hit (s : State) (e : Box) (i : Nat) : Prop := ActiveOf s i 1 ∧ e.overlaps (cleanZone s i).box = true

theorem keepOutHit_iff {i : Nat} (hi : i < 64) : keepOutHit s e (cleanView s i) = true ↔ Hit s e i := by
  simp only [keepOutHit, cleanView, Bool.and_eq_true, beq_iff_eq, Hit, ActiveOf, hi, true_and,
    and_comm (a := (cleanZone s i).type = 1)]

theorem find_keepOut (s : State) (e : Box) : (cleanViews s).find? (keepOutHit s e) =
    ((List.range 64).find? fun i => keepOutHit s e (cleanView s i)).map (cleanView s) :=
  List.find?_map

theorem violatingZone_hit {i : Nat} (h : Hit s e i) (hleast : ∀ j < i, ¬ Hit s e j) :
    violatingZone s e (cleanViews s) = some i := by
  have hi : i < 64 := h.1.1
  have hfind : (List.range 64).find? (fun i => keepOutHit s e (cleanView s i)) = some i := by
    refine List.find?_range_eq_some.2 ⟨(keepOutHit_iff hi).2 h, List.mem_range.2 hi, fun j hj => ?_⟩
    rw [Bool.not_eq_true', Bool.eq_false_iff]
    exact mt (keepOutHit_iff (hj.trans hi)).1 (hleast j hj)
  rw [violatingZone, find_keepOut, hfind]
  rfl

theorem violatingZone_noHit (h : ∀ i, ¬ Hit s e i) :
    violatingZone s e (cleanViews s) = if keepInFails s e (cleanViews s) = true then some 64 else none := by
  have hfind : (List.range 64).find? (fun i => keepOutHit s e (cleanView s i)) = none :=
    List.find?_eq_none.2 fun j hj => mt (keepOutHit_iff (List.mem_range.1 hj)).1 (h j)
  rw [violatingZone, find_keepOut, hfind]
  rfl

/-- R112: a violation is a KEEP_OUT hit, or else the failure of the KEEP_IN test. -/
theorem violation_iff : (guardOutcome s e (cleanViews s)).violation = true ↔
    (∃ i, Hit s e i) ∨ keepInFails s e (cleanViews s) = true := by
  show (violatingZone s e (cleanViews s)).isSome = true ↔ _
  by_cases hex : ∃ i, Hit s e i
  · classical
    rw [violatingZone_hit (Nat.find_spec hex) fun j hj => Nat.find_min hex hj]
    exact iff_of_true rfl (.inl hex)
  · rw [violatingZone_noHit (not_exists.1 hex), or_iff_right hex]
    split <;> rename_i hk
    · exact iff_of_true rfl hk
    · exact iff_of_false Bool.false_ne_true hk

end Sys2Proof.Machine
end

section
/-! SUPPORT. What an evaluation does with its findings (R114, R117, R183, R185): the report of the causes on the zone guard, and
the three ways to note an outcome. -/

namespace Sys2Proof.Machine

variable {s : State} {o : Outcome} {p : Quad Int}

/-! ### The zone guard under a report -/

theorem guard_setMode (m : Mode) (s : State) : (setMode m s).guard = s.guard := by
  have hdue : ∀ (d : Word) (x : State), (frameDue d x).guard = x.guard := fun d x => by
    unfold frameDue; split <;> rfl
  unfold setMode refreshTx
  split
  · split
    · rfl
    · exact hdue _ _
  · rfl

theorem guard_enterHold (s : State) : (enterHold s).guard = { s.guard with run := 0 } := guard_setMode _ _

/-- A report leaves the zones' markings and the outcome alone; only the entry to HOLD ends a recovery run. -/
theorem zones_report (s : State) : (report s).guard.suspended = s.guard.suspended ∧
    (report s).guard.poisoned = s.guard.poisoned ∧ (report s).guard.outcome = s.guard.outcome := by
  rcases report_eq s with he | ⟨-, -, he⟩ <;> rw [he]
  · exact ⟨rfl, rfl, rfl⟩
  · rw [guard_enterHold]
    exact ⟨rfl, rfl, rfl⟩

theorem memory_report (s : State) : (report s).mem = s.mem ∧ (report s).mgmt = s.mgmt :=
  ⟨congrArg Prod.fst (tables_report s), congrArg (fun x => x.2.1) (tables_report s)⟩

/-! ### An outcome noted -/

/-- The outcome of an evaluation, the recovery run and the mode controller as they are noted. -/
def noted (o : Outcome) (run : Nat) (c : Ctl) (s : State) : State :=
  (s.setGuard { s.guard with outcome := o, run := run }).setCtl c

theorem zoneEvaluate_clean (h : ∀ n, 69 ≤ n → n < 197 → PartClean s n)
    (ho : o = guardOutcome s (envelope p s.params.hx s.params.hy s.params.hz) (cleanViews s)) :
    zoneEvaluate p s = report (noteOutcome o (noted o s.guard.run s.ctl s)) := by
  rw [zoneEvaluate, readZones_clean h, ho]
  rfl

/-- R114: out of recovery a violation is latched, but in STANDBY. -/
theorem noteOutcome_violation (hr : s.ctl.recovery = false) (hv : o.violation = true) :
    noteOutcome o (noted o s.guard.run s.ctl s) = noted o s.guard.run (if s.ctl.mode = .standby then s.ctl
      else s.ctl.latch .guardViolation (BitVec.ofNat 32 (o.zone.getD 0)) s.clock.ms) s := by
  have hrec : ¬ (noted o s.guard.run s.ctl s).ctl.recovery = true := Bool.eq_false_iff.1 hr
  rw [noteOutcome, if_neg hrec, hv]
  by_cases hm : s.ctl.mode = .standby
  · have hcond : ¬ (true && (noted o s.guard.run s.ctl s).ctl.mode != .standby) = true := by simp [noted, hm]
    rw [if_neg hcond, if_pos hm]
  · have hcond : (true && (noted o s.guard.run s.ctl s).ctl.mode != .standby) = true := by simp [noted, hm]
    rw [if_pos hcond, if_neg hm]
    rfl

theorem noteOutcome_calm (hr : s.ctl.recovery = false) (hv : o.violation = false) :
    noteOutcome o (noted o s.guard.run s.ctl s) = noted o s.guard.run s.ctl s := by
  have hrec : ¬ (noted o s.guard.run s.ctl s).ctl.recovery = true := Bool.eq_false_iff.1 hr
  rw [noteOutcome, if_neg hrec, hv]
  exact if_neg Bool.false_ne_true

/-- R117: in recovery a violation starts the run again, and the tenth evaluation without one ends the recovery. -/
theorem noteOutcome_recovering (hr : s.ctl.recovery = true) :
    noteOutcome o (noted o s.guard.run s.ctl s) =
      if o.violation = true then noted o 0 s.ctl s
      else if s.guard.run < 9 then noted o (s.guard.run + 1) s.ctl s
      else noted o 0 { s.ctl with recovery := false } s := by
  have hrec : (noted o s.guard.run s.ctl s).ctl.recovery = true := hr
  have hrun : (noted o s.guard.run s.ctl s).guard.run + 1 < 10 ↔ s.guard.run < 9 := Nat.succ_lt_succ_iff
  rw [noteOutcome, if_pos hrec]
  simp only [hrun]
  rfl

/-- However it is noted, the outcome stands and only the recovery run and the mode controller change beside it. -/
theorem noteOutcome_noted (o : Outcome) (s : State) : ∃ run c, noteOutcome o (noted o s.guard.run s.ctl s) = noted o run c s := by
  cases hr : s.ctl.recovery
  · cases hv : o.violation
    · exact ⟨_, _, noteOutcome_calm hr hv⟩
    · exact ⟨_, _, noteOutcome_violation hr hv⟩
  · rw [noteOutcome_recovering hr]
    split
    · exact ⟨_, _, rfl⟩
    · split <;> exact ⟨_, _, rfl⟩

/-! ### The report -/

/-- No hold cause but GUARD is active, whatever the outcome (R183). -/
structure OthersQuiet (s : State) : Prop where
  tracker : trackerCause s = false
  zones : s.guard.poisoned = []
  term : termCause s = false

theorem OthersQuiet.conditions (h : OthersQuiet s) (o : Outcome) (run : Nat) (c : Ctl) :
    conditionsNow (noted o run c s) = ⟨!c.recovery && o.violation, false, false, false⟩ := by
  obtain ⟨htracker, hzones, hterm⟩ := h
  have hz : (!(noted o run c s).guard.poisoned.isEmpty) = false := by
    show (!s.guard.poisoned.isEmpty) = false
    rw [hzones]; rfl
  unfold conditionsNow
  rw [hz]
  exact congrArg₂ (fun x y => Conditions.mk (!c.recovery && o.violation) x false y) htracker hterm

variable {run : Nat} {c : Ctl}

/-- In a hold, or with no violation that counts, the causes are taken and nothing else happens. -/
theorem report_noted_stays (h : OthersQuiet s) (hs : c.mode.held = true ∨ (!c.recovery && o.violation) = false) :
    report (noted o run c s) = noted o run { c with conditions := ⟨!c.recovery && o.violation, false, false, false⟩ } s := by
  have htake : report (noted o run c s) = takeCauses (noted o run c s) := by
    rcases report_eq (noted o run c s) with he | ⟨hfree, hany, -⟩
    · exact he
    · rw [h.conditions] at hany
      have hviol : (!c.recovery && o.violation) = true := by simpa [Conditions.any] using hany
      have hheld : c.mode.held = false := hfree
      rw [hviol, hheld] at hs
      rcases hs with hs | hs <;> cases hs
  rw [htake, takeCauses, h.conditions]
  rfl

/-- R185: out of a hold a violation brings HOLD. -/
theorem report_noted_holds (hr : c.recovery = false) (hv : o.violation = true) (hm : c.mode.held = false) :
    ∃ conditions, conditions.guard = true ∧ (report (noted o run c s)).ctl =
      { c with ret := some c.mode, recovery := false, mode := .hold, holdN := true, conditions := conditions } := by
  have hguard : (conditionsNow (noted o run c s)).guard = true := by
    show (!c.recovery && o.violation) = true
    rw [hr, hv]; rfl
  have hany : (conditionsNow (noted o run c s)).any = true := by rw [Conditions.any, hguard]; rfl
  obtain ⟨x, hx⟩ := ctl_enterHold (takeCauses (noted o run c s))
  have hctl : (report (noted o run c s)).ctl =
      { c with ret := some c.mode, recovery := false, mode := .hold, holdN := true, conditions := x } := by
    rw [report_holds hm hany, hx]
    simp only [takeCauses, noted, State.setCtl_ctl, hr, Bool.false_eq_true, if_false]
  have hnow : (report (noted o run c s)).ctl.conditions.guard =
      (!(report (noted o run c s)).ctl.recovery && (report (noted o run c s)).guard.outcome.violation) := by
    rcases report_eq (noted o run c s) with he | ⟨-, -, he⟩ <;> rw [he] <;> rfl
  obtain ⟨-, -, hout⟩ := zones_report (noted o run c s)
  rw [hout, hctl] at hnow
  exact ⟨x, hnow.trans hv, hctl⟩

/-! ### The obligation -/

theorem envelope_eq (p : Quad Int) (hx hy hz : Nat) : envelope p hx hy hz =
    { lo := ⟨max (-2147483648) (min 2147483647 (p.x - hx)), max (-2147483648) (min 2147483647 (p.y - hy)),
        max (-2147483648) (min 2147483647 (p.z - hz)), 0⟩
      hi := ⟨max (-2147483648) (min 2147483647 (p.x + hx)), max (-2147483648) (min 2147483647 (p.y + hy)),
        max (-2147483648) (min 2147483647 (p.z + hz)), 0⟩ } := rfl

theorem activeOf_iff (s : State) (z type : Nat) : ActiveOf s z type ↔ z < 64 ∧ (peekPart s (69 + 2 * z)).getLsbD 0 = true ∧
    ((peekPart s (69 + 2 * z)).extractLsb' 1 3).toNat = type ∧ z ∉ s.guard.suspended ∧
    (field (peekPart s (69 + 2 * z)) 1 1 = 255 ∨ resolve true s (field (peekPart s (69 + 2 * z)) 1 1) = true) := by
  rw [ActiveOf, zoneActive_iff]
  constructor
  · rintro ⟨hz, ⟨hp, hs, ht⟩, hty⟩
    exact ⟨hz, hp, hty, hs, ht⟩
  · rintro ⟨hz, hp, hty, hs, ht⟩
    exact ⟨hz, ⟨hp, hs, ht⟩, hty⟩

/-- Beside the guard's outcome and run and the mode controller an evaluation on clean zones leaves these alone. -/
theorem zoneEvaluate_leaves (h : ∀ n, 69 ≤ n → n < 197 → PartClean s n)
    (ho : o = guardOutcome s (envelope p s.params.hx s.params.hy s.params.hz) (cleanViews s)) :
    (zoneEvaluate p s).guard.outcome = o ∧ (zoneEvaluate p s).guard.suspended = s.guard.suspended ∧
      (zoneEvaluate p s).mem = s.mem ∧ (zoneEvaluate p s).mgmt = s.mgmt ∧ (zoneEvaluate p s).terms = s.terms := by
  obtain ⟨run, c, hn⟩ := noteOutcome_noted o s
  rw [zoneEvaluate_clean h ho, hn]
  obtain ⟨hsusp, -, hout⟩ := zones_report (noted o run c s)
  obtain ⟨hmem, hmgmt⟩ := memory_report (noted o run c s)
  exact ⟨hout, hsusp, hmem, hmgmt, terms_report _⟩

/-- Of the mode controller the latch of a fault changes the fault set and the first-fault record alone. -/
theorem latch_eq (c : Ctl) (k : FaultKind) (d w : Word) :
    c.latch k d w = { c with faults := (c.latch k d w).faults, first := (c.latch k d w).first } := by
  unfold Ctl.latch
  split <;> rfl

/-- R114, R185: what a violation does out of recovery. -/
theorem evaluated_violation {t : State} (hq : OthersQuiet s) (ht : t = report (noteOutcome o (noted o s.guard.run s.ctl s)))
    (hr : s.ctl.recovery = false) (hv : o.violation = true) :
    t.ctl.conditions.guard = true ∧
      (s.ctl.mode ≠ .standby → ∀ z, o.zone = some z →
        t.ctl.faults = (s.ctl.latch .guardViolation (BitVec.ofNat 32 z) s.clock.ms).faults ∧
        t.ctl.first = (s.ctl.latch .guardViolation (BitVec.ofNat 32 z) s.clock.ms).first) ∧
      (s.ctl.mode = .standby → t.ctl.faults = s.ctl.faults ∧ t.ctl.first = s.ctl.first) ∧
      (s.ctl.mode.held = false → t.ctl.mode = .hold ∧ t.ctl.holdN = true ∧ t.ctl.ret = some s.ctl.mode) ∧
      (s.ctl.mode.held = true → t.ctl.mode = s.ctl.mode ∧ t.ctl.ret = s.ctl.ret) := by
  rw [noteOutcome_violation hr hv] at ht
  generalize hc : (if s.ctl.mode = .standby then s.ctl
    else s.ctl.latch .guardViolation (BitVec.ofNat 32 (o.zone.getD 0)) s.clock.ms) = c at ht
  obtain ⟨faults, first, hform⟩ : ∃ faults first, c = { s.ctl with faults := faults, first := first } := by
    rw [← hc]
    split
    · exact ⟨_, _, rfl⟩
    · exact ⟨_, _, latch_eq _ _ _ _⟩
  have hrec : c.recovery = false := by rw [hform, hr]
  have hmode : c.mode = s.ctl.mode := by rw [hform]
  have hret : c.ret = s.ctl.ret := by rw [hform]
  have hfaults : t.ctl.faults = c.faults ∧ t.ctl.first = c.first := ht ▸ faults_report _
  refine ⟨?_, fun hm z hz => ?_, fun hm => ?_, fun hm => ?_, fun hm => ?_⟩
  · cases hm : c.mode.held
    · obtain ⟨x, hx, hctl⟩ := report_noted_holds (s := s) (run := s.guard.run) hrec hv hm
      rw [ht, hctl]
      exact hx
    · rw [ht, report_noted_stays hq (.inl hm)]
      show (!c.recovery && o.violation) = true
      rw [hrec, hv]; rfl
  · rw [if_neg hm, hz] at hc
    rw [hfaults.1, hfaults.2, ← hc]
    exact ⟨rfl, rfl⟩
  · rw [if_pos hm] at hc
    rw [hfaults.1, hfaults.2, ← hc]
    exact ⟨rfl, rfl⟩
  · obtain ⟨x, -, hctl⟩ := report_noted_holds (s := s) (run := s.guard.run) hrec hv (hmode ▸ hm)
    rw [ht, hctl]
    exact ⟨rfl, rfl, congrArg some hmode⟩
  · rw [ht, report_noted_stays hq (.inl (hmode ▸ hm))]
    exact ⟨hmode, hret⟩

/-- R183: without a violation, out of recovery, no cause is left. -/
theorem evaluated_calm {t : State} (hq : OthersQuiet s) (ht : t = report (noteOutcome o (noted o s.guard.run s.ctl s)))
    (hr : s.ctl.recovery = false) (hv : o.violation = false) :
    t.ctl = { s.ctl with conditions := ⟨false, false, false, false⟩ } ∧ t.guard.run = s.guard.run := by
  have hnone : (!s.ctl.recovery && o.violation) = false := by rw [hv, Bool.and_false]
  rw [ht, noteOutcome_calm hr hv, report_noted_stays hq (.inr hnone), hnone]
  exact ⟨rfl, rfl⟩

/-- R117: the recovery run counts the evaluations without a violation. -/
theorem evaluated_recovering {t : State} (hq : OthersQuiet s) (ht : t = report (noteOutcome o (noted o s.guard.run s.ctl s)))
    (hr : s.ctl.recovery = true) : t.ctl.faults = s.ctl.faults ∧ t.ctl.mode = s.ctl.mode ∧
      (o.violation = true → t.guard.run = 0 ∧ t.ctl.recovery = true) ∧
      (o.violation = false → s.guard.run < 9 → t.guard.run = s.guard.run + 1 ∧ t.ctl.recovery = true) ∧
      (o.violation = false → 9 ≤ s.guard.run → t.guard.run = 0 ∧ t.ctl.recovery = false) := by
  have hnone : (!s.ctl.recovery && o.violation) = false := by rw [hr]; rfl
  rw [noteOutcome_recovering hr] at ht
  cases hv : o.violation
  · rw [if_neg (Bool.eq_false_iff.1 hv)] at ht
    by_cases hrun : s.guard.run < 9
    · rw [ht, if_pos hrun, report_noted_stays hq (.inr hnone)]
      exact ⟨rfl, rfl, fun h => absurd h Bool.false_ne_true, fun _ _ => ⟨rfl, hr⟩, fun _ h => absurd hrun (Nat.not_lt.2 h)⟩
    · have hended : (!{ s.ctl with recovery := false }.recovery && o.violation) = false := by rw [hv, Bool.and_false]
      rw [ht, if_neg hrun, report_noted_stays hq (.inr hended)]
      exact ⟨rfl, rfl, fun h => absurd h Bool.false_ne_true, fun _ h => absurd h hrun, fun _ _ => ⟨rfl, rfl⟩⟩
  · rw [ht, if_pos hv, report_noted_stays hq (.inr hnone)]
    exact ⟨rfl, rfl, fun _ => ⟨rfl, hr⟩, fun h => absurd h.symm Bool.false_ne_true, fun h => absurd h.symm Bool.false_ne_true⟩

/-- Settles O54: the findings zone by zone, then what the outcome does by the recovery flag and the verdict. -/
theorem evaluationFindsTheViolatingZone : Obligations.EvaluationFindsTheViolatingZone := by
  rintro s t p box active overlap contains lo hi hclean hpois hline hterm ht hlo hhi hbox hactive hoverlap hcontains
  obtain ⟨e, he⟩ : ∃ e, e = envelope p s.params.hx s.params.hy s.params.hz := ⟨_, rfl⟩
  have helo : e.lo = lo := by rw [he, envelope_eq, hlo]
  have hehi : e.hi = hi := by rw [he, envelope_eq, hhi]
  obtain ⟨o, ho⟩ : ∃ o, o = guardOutcome s e (cleanViews s) := ⟨_, rfl⟩
  have hq : OthersQuiet s := by
    refine ⟨?_, hpois, hterm⟩
    rcases hline with hl | hl <;> rw [trackerCause, hl] <;> rfl
  have heval : t = report (noteOutcome o (noted o s.guard.run s.ctl s)) :=
    ht.trans (zoneEvaluate_clean hclean (he ▸ ho))
  obtain ⟨hout, hsusp, hmem, hmgmt, hterms⟩ := zoneEvaluate_leaves (p := p) hclean (he ▸ ho)
  have hund : Undisturbed s (zoneEvaluate p s) := undisturbed_of_quiet (quiet_zoneEvaluate p s)
  rw [← ht] at hout hsusp hmem hmgmt hterms hund
  have hact : ∀ z type, ActiveOf s z type ↔ active z type := fun z type => (activeOf_iff s z type).trans (hactive z type).symm
  have hzone : ∀ z, (cleanZone s z).box = box z := fun z => (hbox z).symm
  have hover : ∀ z, e.overlaps (cleanZone s z).box = true ↔ overlap z := fun z => by
    rw [overlaps_iff, hoverlap, hzone, helo, hehi]
  have hcont : ∀ z, (cleanZone s z).box.contains e = true ↔ contains z := fun z => by
    rw [contains_iff, hcontains, hzone, helo, hehi]
  have hhit : ∀ z, Hit s e z ↔ active z 1 ∧ overlap z := fun z => and_congr (hact z 1) (hover z)
  have hsome : ∀ type, (activeBoxes s type (cleanViews s)).any (fun b => e.overlaps b.2) = true ↔
      ∃ z, active z type ∧ overlap z := fun type =>
    (anyActive_iff type e.overlaps).trans (exists_congr fun z => and_congr (hact z type) (hover z))
  have hviol : o.violation = true ↔
      (∃ z, active z 1 ∧ overlap z) ∨ (∃ z, active z 2) ∧ ∀ z, active z 2 → ¬ contains z := by
    rw [ho, violation_iff, keepInFails_iff]
    simp only [hhit, hact, hcont]
  rw [hout]
  refine ⟨hviol, ho ▸ hsome 3, ho ▸ hsome 4, fun z hz hov hleast => ?_, fun hno => ?_, hund, hmem, hmgmt, hterms, hsusp,
    evaluated_violation hq heval, evaluated_calm hq heval, evaluated_recovering hq heval⟩
  · rw [ho]
    exact violatingZone_hit ((hhit z).2 ⟨hz, hov⟩) fun j hj => mt (hhit j).1 (hleast j hj)
  · have hz : o.zone = if keepInFails s e (cleanViews s) = true then some 64 else none := by
      rw [ho]
      exact violatingZone_noHit fun z => mt (hhit z).1 (hno z)
    have hv : o.violation = true ↔ keepInFails s e (cleanViews s) = true := by
      rw [ho, violation_iff]
      exact or_iff_right (not_exists.2 fun z => mt (hhit z).1 (hno z))
    rw [hz]
    simp only [hv]

end Sys2Proof.Machine
end

section
/-! SUPPORT. The reads of a zone's parts at a WRITE (R119, R177): a part is clean or poisoned, and a read of a poisoned one
latches ZONE_ECC and keeps its cause active. -/

namespace Sys2Proof.Machine

variable {s t u : State} {i p : Nat}

theorem placeOf_zone (hi : i < 64) (hp : p < 2) : placeOf (zonePart i p) = .zone i p := by
  have hi' : (zonePart i p - 69) / 2 = i := by unfold zonePart; omega
  have hp' : (zonePart i p - 69) % 2 = p := by unfold zonePart; omega
  have hlo : 69 ≤ zonePart i p := by unfold zonePart; omega
  have hhi : zonePart i p < 197 := by unfold zonePart; omega
  rw [placeOf, if_neg (by omega), if_neg (by omega), if_neg (by omega), if_neg (by omega), if_pos hhi, hi', hp']

/-! ### The ZONE_ECC fault and its cause -/

/-- ZONE_ECC is latched and its hold cause active. -/
def Alarmed (s : State) : Prop := s.ctl.has .zoneEcc = true ∧ s.ctl.conditions.zoneEcc = true

/-- Once the causes are reported, ZONE_ECC is active exactly while a part is poisoned (R183). -/
theorem zoneEcc_report (s : State) : (report s).ctl.conditions.zoneEcc = true ↔ ∃ k, k ∈ s.guard.poisoned := by
  obtain ⟨-, hpois, -⟩ := zones_report s
  have hnow : (report s).ctl.conditions.zoneEcc = !(report s).guard.poisoned.isEmpty := by
    rcases report_eq s with he | ⟨-, -, he⟩ <;> rw [he] <;> rfl
  rw [hnow, hpois]
  cases s.guard.poisoned <;> simp

theorem has_report (k : FaultKind) (s : State) : (report s).ctl.has k = s.ctl.has k := by
  rw [Ctl.has, (faults_report s).1, ← Ctl.has]

/-! ### What a read leaves -/

/-- What a read of a clean or poisoned zone part leaves; it may latch ZONE_ECC and report its cause. -/
structure ZoneLeaves (s t : State) : Prop where
  mem : t.mem = s.mem
  unreadable : t.mgmt.unreadable = s.mgmt.unreadable
  replies : t.mgmt.replies = s.mgmt.replies
  suspended : t.guard.suspended = s.guard.suspended
  poisoned : ∀ k, k ∈ t.guard.poisoned ↔ k ∈ s.guard.poisoned
  rest : Undisturbed s t
  latched : s.ctl.has .zoneEcc = true → t.ctl.has .zoneEcc = true
  alarm : Alarmed s → Alarmed t

theorem Undisturbed.refl (s : State) : Undisturbed s s := undisturbed_of_quiet rfl

theorem Undisturbed.trans (h : Undisturbed s t) (h' : Undisturbed t u) : Undisturbed s u :=
  ⟨h'.clock.trans h.clock, h'.pins.trans h.pins, h'.ring.trans h.ring, h'.axis.trans h.axis, h'.stab.trans h.stab,
    h'.plan.trans h.plan, h'.track.trans h.track, h'.params.trans h.params, h'.pending.trans h.pending⟩

theorem ZoneLeaves.refl (s : State) : ZoneLeaves s s := ⟨rfl, rfl, rfl, rfl, fun _ => Iff.rfl, .refl s, id, id⟩

theorem ZoneLeaves.trans (h : ZoneLeaves s t) (h' : ZoneLeaves t u) : ZoneLeaves s u :=
  ⟨h'.mem.trans h.mem, h'.unreadable.trans h.unreadable, h'.replies.trans h.replies, h'.suspended.trans h.suspended,
    fun k => (h'.poisoned k).trans (h.poisoned k), h.rest.trans h'.rest, h'.latched ∘ h.latched, h'.alarm ∘ h.alarm⟩

theorem ZoneLeaves.peekPart (h : ZoneLeaves s t) (k : Nat) : peekPart t k = peekPart s k := by
  unfold Machine.peekPart; rw [h.mem]

theorem ZoneLeaves.contains (h : ZoneLeaves s t) (k : Nat) :
    t.guard.poisoned.contains k = s.guard.poisoned.contains k := by
  rw [Bool.eq_iff_iff, List.contains_iff_mem, List.contains_iff_mem]
  exact h.poisoned k

theorem ZoneLeaves.partClean (h : ZoneLeaves s t) {k : Nat} : PartClean t k ↔ PartClean s k := by
  unfold PartClean partMarked; rw [h.mem, h.unreadable, h.contains]

/-! ### Parts that are clean or poisoned -/

/-- The part can be read, or a read has poisoned it before. -/
def ZoneSettled (s : State) (k : Nat) : Prop := k ∈ s.guard.poisoned ∨ PartClean s k

/-- What a read of such a part finds. -/
def zoneFound (s : State) (k : Nat) : Option Part := if s.guard.poisoned.contains k then none else some (peekPart s k)

theorem ZoneLeaves.settled (h : ZoneLeaves s t) {k : Nat} (hk : ZoneSettled s k) : ZoneSettled t k :=
  hk.imp (h.poisoned k).2 h.partClean.2

theorem ZoneLeaves.found (h : ZoneLeaves s t) (k : Nat) : zoneFound t k = zoneFound s k := by
  rw [zoneFound, zoneFound, h.contains, h.peekPart]

theorem not_poisoned_of_clean {k : Nat} (h : PartClean s k) : k ∉ s.guard.poisoned := by
  have hm := (Bool.or_eq_false_iff.1 h.2.2).2
  rwa [← Bool.not_eq_true, List.contains_iff_mem] at hm

theorem zoneFound_clean {k : Nat} (h : k ∉ s.guard.poisoned) : zoneFound s k = some (peekPart s k) :=
  if_neg (mt List.contains_iff_mem.1 h)

theorem zoneFound_poisoned {k : Nat} (h : k ∈ s.guard.poisoned) : zoneFound s k = none :=
  if_pos (List.contains_iff_mem.2 h)

theorem marked_of_poisoned {k : Nat} (h : k ∈ s.guard.poisoned) : partMarked s k = true :=
  Bool.or_eq_true_iff.2 (.inr (List.contains_iff_mem.2 h))

/-- A read of a poisoned part finds nothing and raises the alarm. -/
theorem readPart_poisoned (hi : i < 64) (hp : p < 2) (h : zonePart i p ∈ s.guard.poisoned) :
    ∃ t, readPart (zonePart i p) s = (none, t) ∧ ZoneLeaves s t ∧ Alarmed t := by
  have hn : ∀ b, (uncorrectablePart (zonePart i p) (countWords 0 b s)).2 =
      report (latch .zoneEcc i ((countWords 0 b s).setGuard { s.guard with poisoned := setInsert (zonePart i p) s.guard.poisoned })) :=
    fun b => by rw [uncorrectablePart, placeOf_zone hi hp]; rfl
  have hquiet := quiet_readPart (zonePart i p) s
  have hmail := mail_readPart (zonePart i p) s
  unfold readPart at hquiet hmail ⊢
  dsimp only at hquiet hmail ⊢
  rw [if_pos (marked_of_poisoned h), hn] at hquiet hmail ⊢
  obtain ⟨hreplies, -⟩ := (mail_eq _ _).1 hmail
  generalize hv : latch .zoneEcc i (State.setGuard _ _) = v at hquiet hreplies ⊢
  obtain ⟨hsusp, hpois, -⟩ := zones_report v
  obtain ⟨hmem, hmgmt⟩ := memory_report v
  have hset : v.guard.poisoned = setInsert (zonePart i p) s.guard.poisoned := by rw [← hv]; rfl
  have hhas : (report v).ctl.has .zoneEcc = true := by rw [has_report, ← hv]; exact has_latch _ _ _
  have halarm : Alarmed (report v) :=
    ⟨hhas, (zoneEcc_report v).2 ⟨zonePart i p, hset ▸ (mem_setInsert _ _ _).2 (.inl rfl)⟩⟩
  refine ⟨_, rfl, ⟨hmem.trans (by rw [← hv]; rfl), ?_, hreplies, hsusp.trans (by rw [← hv]; rfl), fun k => ?_,
    undisturbed_of_quiet hquiet, fun _ => hhas, fun _ => halarm⟩, halarm⟩
  · rw [hmgmt, ← hv]; rfl
  · rw [hpois, hset, mem_setInsert]
    exact or_iff_right_of_imp fun hk => hk ▸ h

theorem readPart_zone (hi : i < 64) (hp : p < 2) (h : ZoneSettled s (zonePart i p)) :
    ∃ t, readPart (zonePart i p) s = (zoneFound s (zonePart i p), t) ∧ ZoneLeaves s t ∧
      (zoneFound s (zonePart i p) = none → Alarmed t) ∧ (PartClean s (zonePart i p) → t = s) := by
  rcases h with h | h
  · obtain ⟨t, he, hl, ha⟩ := readPart_poisoned hi hp h
    exact ⟨t, by rw [he, zoneFound_poisoned h], hl, fun _ => ha, fun hc => absurd h (not_poisoned_of_clean hc)⟩
  · have hfound := zoneFound_clean (not_poisoned_of_clean h)
    refine ⟨s, by rw [readPart_clean s _ h, hfound]; rfl, .refl s, fun hn => ?_, fun _ => rfl⟩
    rw [hfound] at hn
    cases hn

end Sys2Proof.Machine
end

section
/-! SUPPORT. How a WRITE to a zone is judged on its parts as they were found, and what its reply shows (R107, R108, R120). -/

namespace Sys2Proof.Machine

variable {s t u : State} {who : Sender} {level : Nat} {part : BitVec 3} {index mask : Half} {data m : Part}

/-- The request of a WRITE to a zone part. -/
def zoneRequest (who : Sender) (part : BitVec 3) (index mask : Half) (data : Part) : Request :=
  requestFor who opWrite (selectorOf 5 part) index mask data

@[simp] theorem zoneRequest_table : (zoneRequest who part index mask data).table = 5 := selector_table 5 part
@[simp] theorem zoneRequest_part : (zoneRequest who part index mask data).part = part := selector_part 5 part
@[simp] theorem zoneRequest_index : (zoneRequest who part index mask data).index = index := rfl
@[simp] theorem zoneRequest_mask : (zoneRequest who part index mask data).mask = mask := rfl
@[simp] theorem zoneRequest_data : (zoneRequest who part index mask data).data = data := rfl
@[simp] theorem zoneRequest_op : (zoneRequest who part index mask data).op = opWrite := rfl

theorem exec_writeZone (h : Heard s who level) (hl : level ≤ 2) : exec (.writeZone who part index mask data) s =
    .next (writeZoneTable (zoneRequest who part index mask data) level (arrived .up s)) := by
  have h5 : tableOk opWrite ((selectorOf 5 part).extractLsb' 0 4).toNat = true := by rw [selector_table]; rfl
  have ht : (zoneRequest who part index mask data).table.toNat = 5 := by rw [zoneRequest_table]; rfl
  refine (operate_performed s who level opWrite _ index mask data h rfl h5 hl).trans (congrArg _ ?_)
  show opWriteExec (zoneRequest who part index mask data) level (arrived .up s) = _
  rw [opWriteExec, ht]
  rfl

/-! ### The reply -/

theorem zoneFlags_eq (s : State) (i : Nat) : zoneFlags s i =
    (if s.guard.poisoned.contains (zonePart i 0) then 1 else 0) |||
      (if s.guard.poisoned.contains (zonePart i 1) then 2 else 0) |||
      (if s.guard.suspended.contains i then 4 else 0) := by
  rw [zoneFlags, suspendedBit_eq]
  generalize s.guard.poisoned.contains (zonePart i 0) = a, s.guard.poisoned.contains (zonePart i 1) = b
  cases a <;> cases b <;> rfl

theorem writeShown_zone (hi : index.toNat < 64) (hp : part.toNat < 2) (s : State) :
    writeShown (zoneRequest who part index mask data) s =
      ((zoneFlags (writtenPart (zonePart index.toNat part.toNat) s).2 index.toNat,
        (writtenPart (zonePart index.toNat part.toNat) s).1), (writtenPart (zonePart index.toNat part.toNat) s).2) := by
  have hn : partNumber 5 index.toNat part.toNat = some (zonePart index.toNat part.toNat) := by simp [partNumber, hi, hp]
  have h5 : (zoneRequest who part index mask data).table.toNat = 5 := by rw [zoneRequest_table]; rfl
  rw [writeShown, h5, zoneRequest_index, zoneRequest_part, hn]
  simp only [partStatus, placeOf_zone hi hp]

/-- The reply of a WRITE to a zone part that can be read shows it with the zone's flags. -/
theorem respond_zone_clean (hi : index.toNat < 64) (hp : part.toNat < 2) (code : ReplyCode)
    (h : PartClean s (zonePart index.toNat part.toNat)) : respond (zoneRequest who part index mask data) code s =
      replied who 2 code (zoneFlags s index.toNat) (peekPart s (zonePart index.toNat part.toNat)) s := by
  have hr : readPart (zonePart index.toNat part.toNat) s = (some (peekPart s (zonePart index.toNat part.toNat)), s) :=
    readPart_clean _ _ h
  have hw : writtenPart (zonePart index.toNat part.toNat) s = (peekPart s (zonePart index.toNat part.toNat), s) := by
    rw [writtenPart, h.2.2, if_neg Bool.false_ne_true, hr]
    simp only [shownPart, placeOf_zone hi hp]
  rw [respond_write zoneRequest_op, writeShown_zone hi hp, hw]
  rfl

/-- The reply of a WRITE to a part that stays poisoned shows zeros with the zone's flags. -/
theorem respond_zone_poisoned (hi : index.toNat < 64) (hp : part.toNat < 2) (code : ReplyCode)
    (h : zonePart index.toNat part.toNat ∈ s.guard.poisoned) :
    respond (zoneRequest who part index mask data) code s = replied who 2 code (zoneFlags s index.toNat) 0 s := by
  have hw : writtenPart (zonePart index.toNat part.toNat) s = (0, s) := by
    rw [writtenPart, marked_of_poisoned h, if_pos rfl]
  rw [respond_write zoneRequest_op, writeShown_zone hi hp, hw]
  rfl

/-! ### The verdict -/

/-- The verdict on a WRITE: the existing-DPL test on part 0 as found, the merge, the validation and the new-DPL test. -/
def zoneVerdict (level : Nat) (part1 : Bool) (p0 merged : Option Part) : ReplyCode :=
  if existingOk level p0 then
    match merged with
    | none => .memoryError
    | some m =>
      if !zoneValid (mergedZero part1 m p0) then .badValue
      else if !newOk level (mergedZero part1 m p0) then .refusedLevel
      else .ok
  else .refusedLevel

section Verdict

variable {b : Bool} {p0 merged : Option Part}

theorem zoneVerdict_notExisting (h : ¬ existingOk level p0 = true) : zoneVerdict level b p0 merged = .refusedLevel := if_neg h

variable (h : existingOk level p0 = true)
include h

theorem zoneVerdict_unmerged : zoneVerdict level b p0 none = .memoryError := if_pos h

theorem zoneVerdict_merged : zoneVerdict level b p0 (some m) =
    if !zoneValid (mergedZero b m p0) then .badValue else if !newOk level (mergedZero b m p0) then .refusedLevel else .ok :=
  if_pos h

theorem zoneVerdict_invalid (hv : ¬ zoneValid (mergedZero b m p0) = true) : zoneVerdict level b p0 (some m) = .badValue := by
  rw [zoneVerdict_merged h, Bool.eq_false_iff.2 hv]
  rfl

theorem zoneVerdict_notNew (hv : zoneValid (mergedZero b m p0) = true) (hn : ¬ newOk level (mergedZero b m p0) = true) :
    zoneVerdict level b p0 (some m) = .refusedLevel := by
  rw [zoneVerdict_merged h, hv, Bool.eq_false_iff.2 hn]
  rfl

theorem zoneVerdict_ok (hv : zoneValid (mergedZero b m p0) = true) (hn : newOk level (mergedZero b m p0) = true) :
    zoneVerdict level b p0 (some m) = .ok := by
  rw [zoneVerdict_merged h, hv, hn]
  rfl

/-- Behind the existing-DPL test MEMORY_ERROR tells of a part that could not be merged. -/
theorem merged_of_memoryError (hv : zoneVerdict level b p0 merged = .memoryError) : merged = none := by
  cases merged with
  | none => rfl
  | some m =>
    rw [zoneVerdict_merged h] at hv
    split at hv
    · cases hv
    · split at hv <;> cases hv

/-- A WRITE behind the existing-DPL test is refused by its verdict, or stored. -/
theorem writeZoneMerged_judged {r : Request} {v : ReplyCode} (hz : zoneMerged r p0 s = (merged, u))
    (hv : v = zoneVerdict level (r.part = 1) p0 merged) :
    (v ≠ .ok → writeZoneMerged r level p0 s = respond r v u) ∧
    (v = .ok → ∃ m, merged = some m ∧
      writeZoneMerged r level p0 s = respond r .ok (storeMerged r (zonePart r.index.toNat r.part.toNat) m report u)) := by
  rw [writeZoneMerged, hz]
  cases merged with
  | none =>
    rw [zoneVerdict_unmerged h] at hv
    exact ⟨fun _ => by rw [hv], fun hok => by rw [hv] at hok; cases hok⟩
  | some m =>
    rw [zoneVerdict_merged h] at hv
    simp only []
    split at hv
    · rename_i hinv
      exact ⟨fun _ => by rw [if_pos hinv, hv], fun hok => by rw [hv] at hok; cases hok⟩
    · rename_i hval
      rw [if_neg hval]
      split at hv
      · rename_i hnew
        exact ⟨fun _ => by rw [if_pos hnew, hv], fun hok => by rw [hv] at hok; cases hok⟩
      · rename_i hnew
        exact ⟨fun hne => absurd hv hne, fun _ => ⟨m, rfl, if_neg hnew⟩⟩

end Verdict

/-! ### The judgement on the parts as found -/

/-- The merged part of a WRITE from its part as found. -/
def mergedZonePart (r : Request) (s : State) : Option Part :=
  mergeStored r (zoneFound s (zonePart r.index.toNat r.part.toNat))

/-- Part 0 is read first, but for a poisoned one that the WRITE replaces whole. -/
theorem readZero_found (hi : index.toNat < 64) (h0 : ZoneSettled s (zonePart index.toNat 0)) :
    ∃ t, readZero (zoneRequest who part index mask data) s = (zoneFound s (zonePart index.toNat 0), t) ∧ ZoneLeaves s t ∧
      (part = 0 → mergedZonePart (zoneRequest who part index mask data) s = none → Alarmed t) ∧
      (PartClean s (zonePart index.toNat 0) → t = s) := by
  unfold readZero readStored
  rw [zoneRequest_index, zoneRequest_part, zoneRequest_mask]
  generalize hk : (if part = 0 then mask else 0) = written
  split
  · rename_i hm
    obtain ⟨hfull, hmark⟩ := Bool.and_eq_true_iff.1 hm
    have hpois := h0.resolve_right fun hc => by rw [hc.2.2] at hmark; cases hmark
    refine ⟨s, by rw [zoneFound_poisoned hpois], .refl s, fun hp hn => ?_, fun _ => rfl⟩
    rw [← hk, if_pos hp] at hfull
    rw [mergedZonePart, mergeStored, zoneRequest_mask, if_pos hfull] at hn
    cases hn
  · obtain ⟨t, hr, hl, ha, hc⟩ := readPart_zone hi (by omega) h0
    refine ⟨t, hr, hl, fun hp hn => ha ?_, hc⟩
    rw [mergedZonePart, mergeStored, zoneRequest_index, zoneRequest_part, hp] at hn
    split at hn
    · cases hn
    · exact Option.map_eq_none_iff.1 hn

/-- The written part is merged; the other one is read beside it. -/
theorem zoneMerged_found (hi : index.toNat < 64) (hp : part.toNat < 2) (h1 : ZoneSettled s (zonePart index.toNat 1)) :
    ∃ u, zoneMerged (zoneRequest who part index mask data) (zoneFound s (zonePart index.toNat 0)) s =
        (mergedZonePart (zoneRequest who part index mask data) s, u) ∧ ZoneLeaves s u ∧
      (part = 1 → mergedZonePart (zoneRequest who part index mask data) s = none → Alarmed u) ∧
      (PartClean s (zonePart index.toNat 1) → u = s) := by
  unfold mergedZonePart
  rw [zoneMerged, zoneRequest_index, zoneRequest_part, zoneRequest_mask, zoneRequest_data]
  rcases part_cases hp with rfl | rfl
  · obtain ⟨u, hr, hl, -, hc⟩ := readPart_zone hi (by omega) h1
    rw [if_pos rfl, hr]
    exact ⟨u, rfl, hl, fun h => absurd h (by decide), hc⟩
  · rw [if_neg (by decide), readForMerge, mergeStored, zoneRequest_mask, zoneRequest_data]
    split
    · exact ⟨s, rfl, .refl s, fun _ hn => absurd hn (Option.some_ne_none _), fun _ => rfl⟩
    · obtain ⟨u, hr, hl, ha, hc⟩ := readPart_zone hi (by omega) h1
      rw [hr]
      refine ⟨u, ?_, hl, fun _ hn => ha (Option.map_eq_none_iff.1 hn), hc⟩
      show _ = ((zoneFound s (zonePart index.toNat 1)).map _, u)
      cases zoneFound s (zonePart index.toNat 1) <;> rfl

/-- A WRITE to a zone whose parts are clean or poisoned comes to its verdict on what is found of them. -/
theorem writeZone_judged {r : Request} {v : ReplyCode} (hr : r = zoneRequest who part index mask data)
    (hi : index.toNat < 64) (hp : part.toNat < 2)
    (h0 : ZoneSettled s (zonePart index.toNat 0)) (h1 : ZoneSettled s (zonePart index.toNat 1))
    (hv : v = zoneVerdict level (part = 1) (zoneFound s (zonePart index.toNat 0)) (mergedZonePart r s)) :
    ∃ u, ZoneLeaves s u ∧ (v = .memoryError → Alarmed u) ∧
      (PartClean s (zonePart index.toNat 0) → PartClean s (zonePart index.toNat 1) → u = s) ∧
      (v ≠ .ok → writeZoneTable r level s = respond r v u) ∧
      (v = .ok → ∃ m, mergedZonePart r s = some m ∧
        writeZoneTable r level s = respond r .ok (storeMerged r (zonePart index.toNat part.toNat) m report u)) := by
  subst hr
  have hrange : ¬ (decide (64 ≤ index.toNat) || decide (2 ≤ part.toNat)) = true := by simp [hi, hp]
  obtain ⟨t, hr0, hl0, ha0, hc0⟩ := readZero_found (who := who) (part := part) (mask := mask) (data := data) hi h0
  obtain ⟨u, hr1, hl1, ha1, hc1⟩ := zoneMerged_found (who := who) (mask := mask) (data := data) hi hp (hl0.settled h1)
  have hmerged : mergedZonePart (zoneRequest who part index mask data) t =
      mergedZonePart (zoneRequest who part index mask data) s := by rw [mergedZonePart, hl0.found, ← mergedZonePart]
  rw [hl0.found, hmerged] at hr1
  rw [hmerged] at ha1
  rw [writeZoneTable, zoneRequest_index, zoneRequest_part, if_neg hrange, hr0]
  simp only []
  by_cases hex : existingOk level (zoneFound s (zonePart index.toNat 0)) = true
  · rw [if_pos hex]
    have hjudged := writeZoneMerged_judged hex hr1 (v := v) (by rw [zoneRequest_part]; exact hv)
    rw [zoneRequest_index, zoneRequest_part] at hjudged
    refine ⟨u, hl0.trans hl1, fun he => ?_, fun c0 c1 => ?_, hjudged⟩
    · have hnone := merged_of_memoryError hex (hv.symm.trans he)
      rcases part_cases hp with rfl | rfl
      · exact hl1.alarm (ha0 rfl hnone)
      · exact ha1 rfl hnone
    · obtain rfl := hc0 c0
      exact hc1 c1
  · rw [if_neg hex]
    rw [zoneVerdict_notExisting hex] at hv
    exact ⟨t, hl0, fun he => absurd (hv.symm.trans he) (by decide), fun c0 _ => hc0 c0, fun _ => by rw [hv],
      fun hok => absurd (hv.symm.trans hok) (by decide)⟩

end Sys2Proof.Machine
end

section
/-! SUPPORT. The WRITE to a zone as a whole: what an accepted one stores, and the words of the statement (R107, R108, R120). -/

namespace Sys2Proof.Machine

variable {s t u : State} {who : Sender} {level : Nat} {part : BitVec 3} {index mask : Half} {data d m : Part}

/-! ### What an accepted WRITE leaves -/

/-- A zone part has been rewritten: its poison is gone, and the ZONE_ECC cause with the last one. -/
structure Rewritten (n : Nat) (d : Part) (s t : State) : Prop where
  stores : Stores n d s t
  poisoned : ∀ j, j ∈ t.guard.poisoned ↔ j ∈ s.guard.poisoned ∧ j ≠ n
  cause : t.ctl.conditions.zoneEcc = true ↔ ∃ j ∈ s.guard.poisoned, j ≠ n
  latched : s.ctl.has .zoneEcc = true → t.ctl.has .zoneEcc = true
  suspended : t.guard.suspended = s.guard.suspended
  replies : t.mgmt.replies = s.mgmt.replies
  rest : Undisturbed s t

theorem undisturbed_storeAccepted (n : Nat) (d : Part) (s : State) : Undisturbed s (storeAccepted n d s) :=
  undisturbed_of_quiet (by simp only [storeAccepted, storePart, quiet_setGuard, quiet_setMgmt, quiet_setMem])

theorem ctl_storeAccepted (n : Nat) (d : Part) (s : State) : (storeAccepted n d s).ctl = s.ctl := by
  simp only [storeAccepted, storePart, State.setGuard_ctl, State.setMgmt_ctl, State.setMem_ctl]

theorem guard_storeAccepted (n : Nat) (d : Part) (s : State) :
    (storeAccepted n d s).guard = { s.guard with poisoned := setErase n s.guard.poisoned } := by
  simp only [storeAccepted, storePart, State.setGuard_guard, State.setMgmt_guard, State.setMem_guard]

theorem replies_storeAccepted (n : Nat) (d : Part) (s : State) :
    (storeAccepted n d s).mgmt.replies = s.mgmt.replies := by
  simp only [storeAccepted, storePart, State.setGuard_mgmt, State.setMgmt_mgmt, State.setMem_mgmt]

/-- A report leaves what a WRITE has stored. -/
theorem Stores.reported {n : Nat} (h : Stores n d s t) : Stores n d s (report t) := by
  obtain ⟨hmem, -⟩ := memory_report t
  obtain ⟨hpart, hothers, hfresh, hreadable⟩ := h
  unfold peekPart at hpart hothers
  exact ⟨by unfold peekPart; rwa [hmem], by unfold peekPart; rwa [hmem], by rwa [hmem], by rwa [marked_report]⟩

theorem rewritten_report {n : Nat} (hs : ZoneLeaves s u) (hc : MemoryCanonical s) :
    Rewritten n (d &&& usedBits (placeOf n)) s (report (storeAccepted n d u)) := by
  have hcu : MemoryCanonical u := by unfold MemoryCanonical; rw [hs.mem]; exact hc
  have hst := (stores_storeAccepted n d hcu).reported
  obtain ⟨hsusp, hpois, -⟩ := zones_report (storeAccepted n d u)
  obtain ⟨-, hmgmt⟩ := memory_report (storeAccepted n d u)
  have hmem : ∀ j, j ∈ (storeAccepted n d u).guard.poisoned ↔ j ∈ s.guard.poisoned ∧ j ≠ n := fun j => by
    rw [guard_storeAccepted, mem_setErase, hs.poisoned, and_comm]
  refine ⟨⟨hst.part, fun j hj => (hst.others j hj).trans (hs.peekPart j), hst.fresh, hst.readable⟩, fun j => ?_, ?_,
    fun h => ?_, hsusp.trans (by rw [guard_storeAccepted, hs.suspended]), ?_,
    (hs.rest.trans (undisturbed_storeAccepted n d u)).trans (undisturbed_of_quiet (quiet_report _))⟩
  · rw [hpois, hmem]
  · rw [zoneEcc_report]
    exact exists_congr hmem
  · rw [has_report, ctl_storeAccepted]
    exact hs.latched h
  · rw [hmgmt, replies_storeAccepted]
    exact hs.replies

theorem respond_rewritten (hi : index.toNat < 64) (hp : part.toNat < 2) {w : Part}
    (h : Rewritten (zonePart index.toNat part.toNat) d s t) :
    respond (zoneRequest who part index mask w) .ok t = replied who 2 .ok (zoneFlags t index.toNat) d t := by
  rw [respond_zone_clean hi hp _ h.stores.partClean, h.stores.part]

/-! ### The words of the statement -/

theorem existingOk_none : existingOk level none = true ↔ level = 0 := by
  simp [existingOk, storedLevel]

theorem existingOk_some (d : Part) : existingOk level (some d) = true ↔
    (d.getLsbD 0 = true → level ≤ (d.extractLsb' 4 2).toNat) := by
  rw [existingOk, Bool.or_eq_true, Bool.not_eq_true', decide_eq_true_eq]
  simp only [storedLevel, zoneRec]
  cases d.getLsbD 0 <;> simp

theorem existingOk_found (n : Nat) : existingOk level (zoneFound s n) = true ↔ n ∈ s.guard.poisoned ∧ level = 0 ∨
    n ∉ s.guard.poisoned ∧ ((peekPart s n).getLsbD 0 = true → level ≤ ((peekPart s n).extractLsb' 4 2).toNat) := by
  by_cases h : n ∈ s.guard.poisoned
  · rw [zoneFound_poisoned h, existingOk_none]
    simp [h]
  · rw [zoneFound_clean h, existingOk_some]
    simp [h]

theorem newOk_some (d : Part) : newOk level (some d) = true ↔ level ≤ (d.extractLsb' 4 2).toNat := decide_eq_true_iff

/-- R108: the ranges of a descriptor's fields. -/
def DescriptorValid (d : Part) : Prop :=
  (d.extractLsb' 4 2).toNat ≤ 2 ∧ (field d 1 1 ≤ 31 ∨ field d 1 1 = 255) ∧ (d.extractLsb' 1 3).toNat ≤ 4 ∧
    (d.getLsbD 0 = true → (d.extractLsb' 1 3).toNat ≠ 0)

theorem zoneValid_some (d : Part) : zoneValid (some d) = true ↔ DescriptorValid d := by
  simp only [zoneValid, zoneFieldsValid, Bool.and_eq_true, Bool.or_eq_true, Bool.not_eq_true', decide_eq_true_eq,
    beq_iff_eq, bne_iff_ne, and_assoc, DescriptorValid]
  simp only [zoneRec]
  cases d.getLsbD 0 <;> simp

/-- Part 0 after the WRITE: unknown when part 1 is written and part 0 is poisoned. -/
theorem mergedZero_found (hp : part.toNat < 2) (n : Nat) :
    (part = 1 ∧ n ∈ s.guard.poisoned) ∧ mergedZero (part = 1) m (zoneFound s n) = none ∨
      ¬ (part = 1 ∧ n ∈ s.guard.poisoned) ∧
        mergedZero (part = 1) m (zoneFound s n) = some (if part = 0 then m else peekPart s n) := by
  rcases part_cases hp with rfl | rfl
  · exact .inr ⟨fun h => absurd h.1 (by decide), rfl⟩
  · by_cases h : n ∈ s.guard.poisoned
    · exact .inl ⟨⟨rfl, h⟩, zoneFound_poisoned h⟩
    · exact .inr ⟨fun hb => h hb.2, zoneFound_clean h⟩

theorem zoneValid_found (hp : part.toNat < 2) (n : Nat) : zoneValid (mergedZero (part = 1) m (zoneFound s n)) = true ↔
    part = 1 ∧ n ∈ s.guard.poisoned ∨ DescriptorValid (if part = 0 then m else peekPart s n) := by
  rcases mergedZero_found (s := s) (m := m) hp n with ⟨hb, he⟩ | ⟨hb, he⟩ <;> rw [he]
  · exact iff_of_true rfl (.inl hb)
  · rw [zoneValid_some, or_iff_right hb]

/-- Behind the existing-DPL test an unknown part 0 passes the new-DPL test (R107, log entry 31). -/
theorem newOk_found (hp : part.toNat < 2) {n : Nat} (hex : existingOk level (zoneFound s n) = true) :
    newOk level (mergedZero (part = 1) m (zoneFound s n)) = true ↔
      part = 1 ∧ n ∈ s.guard.poisoned ∨ level ≤ ((if part = 0 then m else peekPart s n).extractLsb' 4 2).toNat := by
  rcases mergedZero_found (s := s) (m := m) hp n with ⟨hb, he⟩ | ⟨hb, he⟩ <;> rw [he]
  · have h0 : level = 0 := ((existingOk_found n).1 hex).elim (·.2) fun h => absurd hb.2 h.1
    exact iff_of_true (by rw [h0]; rfl) (.inl hb)
  · rw [newOk_some, or_iff_right hb]

/-! ### The merged part -/

theorem mergedZonePart_clean (h : zonePart index.toNat part.toNat ∉ s.guard.poisoned) :
    mergedZonePart (zoneRequest who part index mask data) s =
      some (mergedWith s (zonePart index.toNat part.toNat) data mask) := by
  rw [mergedZonePart, zoneRequest_index, zoneRequest_part, zoneFound_clean h, mergeStored, zoneRequest_mask,
    zoneRequest_data, mergedWith]
  split
  · rename_i hf
    rw [fullMask_iff.1 hf, mergePart_full]
  · rfl

theorem mergedZonePart_poisoned (h : zonePart index.toNat part.toNat ∈ s.guard.poisoned) :
    mergedZonePart (zoneRequest who part index mask data) s = if mask = 0xFFFF then some data else none := by
  rw [mergedZonePart, zoneRequest_index, zoneRequest_part, zoneFound_poisoned h, mergeStored, zoneRequest_mask,
    zoneRequest_data]
  simp only [fullMask_iff]
  rfl

/-! ### The obligation -/

theorem storeMerged_zone (hm : mask ≠ 0) (n : Nat) (effects : State → State) :
    storeMerged (zoneRequest who part index mask data) n m effects u = effects (storeAccepted n m u) := if_neg hm

theorem ZoneLeaves.zoneFlags (h : ZoneLeaves s t) (i : Nat) : zoneFlags t i = zoneFlags s i := by
  rw [zoneFlags_eq, zoneFlags_eq, h.contains, h.contains, h.suspended]

theorem zoneFlags_unpoisoned {i : Nat} (h0 : zonePart i 0 ∉ s.guard.poisoned) (h1 : zonePart i 1 ∉ s.guard.poisoned) :
    zoneFlags s i = if s.guard.suspended.contains i then 4 else 0 := by
  rw [zoneFlags_eq, if_neg (mt List.contains_iff_mem.1 h0), if_neg (mt List.contains_iff_mem.1 h1)]
  exact BitVec.zero_or

section Heard

variable (h : Heard s who level) (hl : level ≤ 2) (hi : index.toNat < 64) (hp : part.toNat < 2)
  (h0 : ZoneSettled s (zonePart index.toNat 0)) (h1 : ZoneSettled s (zonePart index.toNat 1))
include h hl hi hp h0 h1

/-- A WRITE whose verdict is not OK is answered with it after the reads. -/
theorem exec_writeZone_refused {code : ReplyCode} (hne : code ≠ .ok)
    (hv : zoneVerdict level (part = 1) (zoneFound s (zonePart index.toNat 0))
      (mergedZonePart (zoneRequest who part index mask data) s) = code) :
    ∃ u, ZoneLeaves (arrived .up s) u ∧ (code = .memoryError → Alarmed u) ∧
      (PartClean s (zonePart index.toNat 0) → PartClean s (zonePart index.toNat 1) → u = arrived .up s) ∧
      exec (.writeZone who part index mask data) s =
        .next (respond (zoneRequest who part index mask data) code u) := by
  obtain ⟨u, hleaves, halarm, hclean, hrefused, -⟩ := writeZone_judged (s := arrived .up s) rfl hi hp h0 h1 hv.symm
  exact ⟨u, hleaves, halarm, hclean, (exec_writeZone h hl).trans (congrArg _ (hrefused hne))⟩

/-- A WRITE whose verdict is OK rewrites its part, unless its mask is zero. -/
theorem exec_writeZone_accepted (hc : MemoryCanonical s) (hm : mask ≠ 0)
    (hmerged : mergedZonePart (zoneRequest who part index mask data) s = some m)
    (hv : zoneVerdict level (part = 1) (zoneFound s (zonePart index.toNat 0)) (some m) = .ok) :
    ∃ t, exec (.writeZone who part index mask data) s =
        .next (replied who 2 .ok (zoneFlags t index.toNat) (m &&& usedBits (.zone index.toNat part.toNat)) t) ∧
      Rewritten (zonePart index.toNat part.toNat) (m &&& usedBits (.zone index.toNat part.toNat)) (arrived .up s) t ∧
      (PartClean s (zonePart index.toNat 0) → PartClean s (zonePart index.toNat 1) →
        t.guard.outcome = s.guard.outcome ∧ t.ctl.faults = s.ctl.faults) := by
  rw [← hmerged] at hv
  obtain ⟨u, hleaves, -, hclean, -, hok⟩ := writeZone_judged (s := arrived .up s) rfl hi hp h0 h1 hv.symm
  obtain ⟨m', hm', hw⟩ := hok rfl
  obtain rfl := Option.some.inj (hm'.symm.trans hmerged)
  rw [storeMerged_zone hm] at hw
  have hrw := rewritten_report (d := m') (n := zonePart index.toNat part.toNat) hleaves hc
  rw [placeOf_zone hi hp] at hrw
  refine ⟨_, (exec_writeZone h hl).trans (congrArg _ (hw.trans (respond_rewritten hi hp hrw))), hrw, fun c0 c1 => ?_⟩
  obtain rfl := hclean c0 c1
  obtain ⟨-, -, hout⟩ := zones_report (storeAccepted (zonePart index.toNat part.toNat) m' (arrived .up s))
  obtain ⟨hfaults, -⟩ := faults_report (storeAccepted (zonePart index.toNat part.toNat) m' (arrived .up s))
  rw [guard_storeAccepted] at hout
  rw [ctl_storeAccepted] at hfaults
  exact ⟨hout, hfaults⟩

end Heard

/-- Settles O48: the verdict on the parts as found, for a zone that can be read and for a poisoned part. -/
theorem writeZoneObeysItsLevel : Obligations.WriteZoneObeysItsLevel := by
  constructor
  · rintro s who level part index mask data m d0 n existing valid new status h hl hc hi hp rfl h0 h1 hm rfl hex hval rfl hnew
    have hn0 : zonePart index.toNat 0 ∉ s.guard.poisoned := not_poisoned_of_clean h0
    have hn1 : zonePart index.toNat 1 ∉ s.guard.poisoned := not_poisoned_of_clean h1
    have hk : PartClean s (zonePart index.toNat part.toNat) := by
      rcases part_cases hp with rfl | rfl
      · exact h0
      · exact h1
    have hseen : ¬ (part = 1 ∧ zonePart index.toNat 0 ∈ s.guard.poisoned) := fun hb => hn0 hb.2
    have hex' : existingOk level (zoneFound s (zonePart index.toNat 0)) = true ↔ existing := by
      rw [zoneFound_clean hn0, existingOk_some]
      exact hex.symm
    have hval' : zoneValid (mergedZero (part = 1) m (zoneFound s (zonePart index.toNat 0))) = true ↔ valid :=
      (zoneValid_found hp _).trans ((or_iff_right hseen).trans hval.symm)
    have hnew' := fun he => (newOk_found (m := m) hp (hex'.2 he)).trans ((or_iff_right hseen).trans hnew.symm)
    have hmerged : mergedZonePart (zoneRequest who part index mask data) s = some m :=
      (mergedZonePart_clean (not_poisoned_of_clean hk)).trans (congrArg some hm.symm)
    have hrefuse : ∀ code, code ≠ .ok → zoneVerdict level (part = 1) (zoneFound s (zonePart index.toNat 0)) (some m) = code →
        exec (.writeZone who part index mask data) s = .next (replied who 2 code
          (if s.guard.suspended.contains index.toNat then 4 else 0) (peekPart s (zonePart index.toNat part.toNat))
          (arrived .up s)) := fun code hne hv => by
      obtain ⟨u, -, -, hu, he⟩ := exec_writeZone_refused h hl hi hp (.inr h0) (.inr h1) hne (by rw [hmerged]; exact hv)
      obtain rfl := hu h0 h1
      rw [he, respond_zone_clean (s := arrived .up s) hi hp _ hk, zoneFlags_unpoisoned (s := arrived .up s) hn0 hn1]
      rfl
    refine ⟨fun he hv hn hmask => ?_, fun he => hrefuse _ (by decide) (zoneVerdict_notExisting (mt hex'.1 he)),
      fun he hv => hrefuse _ (by decide) (zoneVerdict_invalid (hex'.2 he) (mt hval'.1 hv)),
      fun he hv hn => hrefuse _ (by decide) (zoneVerdict_notNew (hex'.2 he) (hval'.2 hv) (mt (hnew' he).1 hn))⟩
    obtain ⟨t, hw, hrw, hkept⟩ := exec_writeZone_accepted h hl hi hp (.inr h0) (.inr h1) hc hmask hmerged
      (zoneVerdict_ok (hex'.2 he) (hval'.2 hv) ((hnew' he).2 hn))
    obtain ⟨hout, hfaults⟩ := hkept h0 h1
    rw [zoneFlags_unpoisoned (fun hb => hn0 ((hrw.poisoned _).1 hb).1) (fun hb => hn1 ((hrw.poisoned _).1 hb).1),
      hrw.suspended] at hw
    exact ⟨t, hw, hrw.stores.part, hrw.stores.others, hrw.suspended, hout, hrw.replies, hfaults, hrw.rest⟩
  · rintro s who level part index mask data d0 n blind existing valid new status refused h hl hc hi hp rfl hk h0 h1 hblind rfl
      hex hval hnew hstatus hrefused
    replace hk : zonePart index.toNat part.toNat ∈ s.guard.poisoned := hk
    have hex' : existingOk level (zoneFound s (zonePart index.toNat 0)) = true ↔ existing :=
      (existingOk_found _).trans hex.symm
    have hval' : zoneValid (mergedZero (part = 1) data (zoneFound s (zonePart index.toNat 0))) = true ↔ valid :=
      (zoneValid_found hp _).trans ((or_congr_left hblind.symm).trans hval.symm)
    have hnew' := fun he => (newOk_found (m := data) hp (hex'.2 he)).trans ((or_congr_left hblind.symm).trans hnew.symm)
    have hflags : ∀ t, t.guard.suspended = s.guard.suspended → zoneFlags t index.toNat = status t.guard.poisoned := fun t ht => by
      rw [zoneFlags_eq, hstatus, ht]
      rfl
    have hmerged := mergedZonePart_poisoned (who := who) (mask := mask) (data := data) hk
    have hcode : ∀ code, code ≠ .ok → zoneVerdict level (part = 1) (zoneFound s (zonePart index.toNat 0))
        (if mask = 0xFFFF then some data else none) = code → refused code := fun code hne hv => by
      obtain ⟨u, hu, halarm, -, he⟩ := exec_writeZone_refused (data := data) h hl hi hp h0 h1 hne (by rw [hmerged]; exact hv)
      refine (hrefused _).2 ⟨u, ?_, hu.mem, hu.poisoned, hu.suspended, hu.replies, hu.rest, halarm⟩
      rw [he, respond_zone_poisoned hi hp _ ((hu.poisoned _).2 hk), hu.zoneFlags, hflags (arrived .up s) rfl]
      rfl
    refine ⟨fun he => hcode _ (by decide) (zoneVerdict_notExisting (mt hex'.1 he)),
      fun he hm => hcode _ (by decide) ?_, fun he hm hv => hcode _ (by decide) ?_, fun he hm hv hn => hcode _ (by decide) ?_,
      fun he hm hv hn => ?_⟩
    · rw [if_neg hm]
      exact zoneVerdict_unmerged (hex'.2 he)
    · rw [if_pos hm]
      exact zoneVerdict_invalid (hex'.2 he) (mt hval'.1 hv)
    · rw [if_pos hm]
      exact zoneVerdict_notNew (hex'.2 he) (hval'.2 hv) (mt (hnew' he).1 hn)
    · obtain ⟨t, hw, hrw, -⟩ := exec_writeZone_accepted (data := data) h hl hi hp h0 h1 hc (by rw [hm]; decide)
        (hmerged.trans (if_pos hm)) (zoneVerdict_ok (hex'.2 he) (hval'.2 hv) ((hnew' he).2 hn))
      rw [hflags t hrw.suspended] at hw
      exact ⟨t, hw, ⟨hrw.stores.part, hrw.stores.others, hrw.stores.fresh, hrw.stores.readable⟩, hrw.poisoned, hrw.cause,
        hrw.latched, hrw.suspended, hrw.replies, hrw.rest⟩

end Sys2Proof.Machine
end

section
/-! SUPPORT. The conditions of an interlock term (R125, R126): what each flag of the comparison tells of the word and the operand,
and what each condition code asks of them. -/

namespace Sys2Proof.Machine

variable {w o : Half}

/-! ### The flags of the subtraction (R126) -/

theorem cmpFlags_n (w o : Half) : (cmpFlags w o).n = (w - o).msb := rfl

theorem cmpFlags_z : (cmpFlags w o).z = true ↔ w = o := beq_iff_eq.trans sub_eq_zero

theorem cmpFlags_c : (cmpFlags w o).c = true ↔ w.toNat < o.toNat := decide_eq_true_iff

/-- V tells that the difference of the signed values is no signed 16-bit value. -/
theorem cmpFlags_v : (cmpFlags w o).v = true ↔ w.toInt - o.toInt < -32768 ∨ 32767 < w.toInt - o.toInt := by
  have hv : (cmpFlags w o).v = ((w.msb != o.msb) && ((w - o).msb != w.msb)) := rfl
  have hw := And.intro w.le_toInt w.toInt_lt
  have ho := And.intro o.le_toInt o.toInt_lt
  simp only [hv, BitVec.msb_eq_toInt, BitVec.toInt_sub, Int.bmod_def, Bool.and_eq_true, bne_iff_ne, ne_eq, decide_eq_decide]
  omega

/-- N and V agree exactly when the word is the operand or greater, as signed values. -/
theorem cmpFlags_n_eq_v : (cmpFlags w o).n = (cmpFlags w o).v ↔ o.toInt ≤ w.toInt := by
  have hw := And.intro w.le_toInt w.toInt_lt
  have ho := And.intro o.le_toInt o.toInt_lt
  rw [Bool.eq_iff_iff, cmpFlags_v, cmpFlags_n, BitVec.msb_eq_toInt, decide_eq_true_eq, BitVec.toInt_sub, Int.bmod_def]
  omega

theorem cmpFlags_greater : (!(cmpFlags w o).z && (cmpFlags w o).n == (cmpFlags w o).v) = true ↔ o.toInt < w.toInt := by
  rw [Bool.and_eq_true, Bool.not_eq_true', ← Bool.not_eq_true, cmpFlags_z, beq_iff_eq, cmpFlags_n_eq_v, ← BitVec.toInt_inj]
  omega

theorem cmpFlags_higher : (!(cmpFlags w o).c && !(cmpFlags w o).z) = true ↔ o.toNat < w.toNat := by
  rw [Bool.and_eq_true, Bool.not_eq_true', Bool.not_eq_true', ← Bool.not_eq_true, ← Bool.not_eq_true, cmpFlags_c, cmpFlags_z,
    ← BitVec.toNat_inj]
  omega

/-! ### The condition codes (R125) -/

/-- What a condition code asks of the word and the operand. -/
def Satisfies (code : Nat) (w o : Half) : Prop :=
  match code with
  | 0 => w &&& o = o
  | 1 => w &&& o ≠ o
  | 2 => w &&& o = 0
  | 3 => w &&& o ≠ 0
  | 4 => w = o
  | 5 => w ≠ o
  | 6 => o.toInt ≤ w.toInt
  | 7 => w.toInt < o.toInt
  | 8 => o.toInt < w.toInt
  | 9 => w.toInt ≤ o.toInt
  | 10 => o.toNat < w.toNat
  | 11 => w.toNat ≤ o.toNat
  | 12 => True
  | _ => False

theorem not_eq_true_iff {b : Bool} {p : Prop} (h : b = true ↔ p) : (!b) = true ↔ ¬ p := by
  rw [Bool.not_eq_true', ← Bool.not_eq_true, h]

theorem condition_iff (code : Nat) (w o : Half) : condition code w o = true ↔ Satisfies code w o := by
  have hge : ((cmpFlags w o).n == (cmpFlags w o).v) = true ↔ o.toInt ≤ w.toInt := beq_iff_eq.trans cmpFlags_n_eq_v
  match code with
  | 0 => exact beq_iff_eq
  | 1 => exact not_eq_true_iff beq_iff_eq
  | 2 => exact beq_iff_eq
  | 3 => exact not_eq_true_iff beq_iff_eq
  | 4 => exact cmpFlags_z
  | 5 => exact not_eq_true_iff cmpFlags_z
  | 6 => exact hge
  | 7 => exact (not_eq_true_iff hge).trans not_le
  | 8 => exact cmpFlags_greater
  | 9 => exact (not_eq_true_iff cmpFlags_greater).trans not_lt
  | 10 => exact cmpFlags_higher
  | 11 => exact (not_eq_true_iff cmpFlags_higher).trans not_lt
  | 12 => exact iff_of_true rfl trivial
  | _ + 13 => exact iff_of_false Bool.false_ne_true id

/-- A predicate with the meaning of each code that reads a word is `Satisfies`. -/
theorem satisfies_of_codes {holds : Nat → Prop}
    (h : (holds 0 ↔ w &&& o = o) ∧ (holds 1 ↔ w &&& o ≠ o) ∧ (holds 2 ↔ w &&& o = 0) ∧ (holds 3 ↔ w &&& o ≠ 0) ∧
      (holds 4 ↔ w = o) ∧ (holds 5 ↔ w ≠ o) ∧ (holds 6 ↔ o.toInt ≤ w.toInt) ∧ (holds 7 ↔ w.toInt < o.toInt) ∧
      (holds 8 ↔ o.toInt < w.toInt) ∧ (holds 9 ↔ w.toInt ≤ o.toInt) ∧ (holds 10 ↔ o.toNat < w.toNat) ∧
      (holds 11 ↔ w.toNat ≤ o.toNat)) {code : Nat} (hc : code < 12) : holds code ↔ Satisfies code w o := by
  obtain ⟨h0, h1, h2, h3, h4, h5, h6, h7, h8, h9, h10, h11⟩ := h
  interval_cases code <;> assumption

end Sys2Proof.Machine
end

section
/-! SUPPORT. The value of an interlock term (R124, R127, R128): the ranges of its record, its source word, and the value by the
steps of R128; and what an evaluation leaves (R129, R131). -/

namespace Sys2Proof.Machine

variable {s t : State} {r : TermRec} {w : Half} {i j : Nat} {v : TermValue} {d : Part}

/-! ### The record (R124) -/

/-- R124: the ranges of a term record's fields. -/
def RecordValid (r : TermRec) : Prop :=
  r.present ≤ 1 ∧ r.unknownAs ≤ 1 ∧ r.kind ≤ 2 ∧ r.cond ≤ 13 ∧ (r.kind ≠ 2 → r.axis ≤ 23) ∧ (r.kind = 1 → r.aux ≤ 3)

theorem termValid_iff : termValid r = true ↔ RecordValid r := by
  simp only [termValid, RecordValid, Bool.and_eq_true, Bool.or_eq_true, decide_eq_true_eq, beq_iff_eq, bne_iff_ne, and_assoc,
    imp_iff_not_or, ne_eq, not_not]

theorem field_and_ones {m : Part} {k n : Nat} (h : m.extractLsb' (8 * k) (8 * n) = BitVec.allOnes (8 * n)) :
    field (d &&& m) k n = field d k n := by
  rw [field, BitVec.extractLsb'_and, h, BitVec.and_allOnes, field]

/-- The unused bits of a term part belong to no field. -/
theorem termRec_used (i : Nat) (d : Part) : termRec (d &&& usedBits (.term i)) = termRec d := by
  have hones : ∀ k < 6, (usedBits (.term i)).extractLsb' (8 * k) (8 * 1) = BitVec.allOnes (8 * 1) := by
    show ∀ k < 6, (usedBits (.term 0)).extractLsb' (8 * k) (8 * 1) = BitVec.allOnes (8 * 1)
    decide
  have hoperand : (usedBits (.term i)).extractLsb' 48 16 = BitVec.allOnes 16 := by
    show (usedBits (.term 0)).extractLsb' 48 16 = BitVec.allOnes 16
    decide
  have hfield : ∀ k < 6, field (d &&& usedBits (.term i)) k 1 = field d k 1 := fun k hk => field_and_ones (hones k hk)
  have hword : (d &&& usedBits (.term i)).extractLsb' 48 16 = d.extractLsb' 48 16 := by
    rw [BitVec.extractLsb'_and, hoperand, BitVec.and_allOnes]
  simp only [termRec, hfield, hword, Nat.reduceLT]

/-! ### The source word (R127) -/

/-- The word of a feedback that a record of kind 0 or 1 names. -/
theorem word_iff {f : Feedback} (hk : r.kind ≤ 1) (ha : r.kind = 1 → r.aux ≤ 3) :
    w = (if r.kind = 0 then f.status else f.aux r.aux) ↔ r.kind = 0 ∧ w = f.status ∨
      r.kind = 1 ∧ (r.aux = 0 ∧ w = f.aux0 ∨ r.aux = 1 ∧ w = f.aux1 ∨ r.aux = 2 ∧ w = f.aux2 ∨ r.aux = 3 ∧ w = f.aux3) := by
  obtain hk | hk : r.kind = 0 ∨ r.kind = 1 := by omega
  · simp [hk]
  · have h3 := ha hk
    generalize r.aux = k at h3
    interval_cases k <;> simp [hk, Feedback.aux]

/-- The tracker word is the source of a record of kind 2 while its stamp is fresh. -/
theorem sourceWord_tracker (hk : r.kind = 2) : sourceWord r s = some w ↔
    ∃ k, s.terms.tracker = some k ∧ freshStamp s.ring.lastCycle k.stamp = true ∧ w = k.word := by
  rw [sourceWord, if_pos hk]
  cases s.terms.tracker <;> simp [@eq_comm _ w]

/-- A captured word is the source of the other records while its entry is readable and its feedback seen and fresh. -/
theorem sourceWord_entry (hk : r.kind ≠ 2) : sourceWord r s = some w ↔
    (s.axis.index[r.axis]?.join).isSome = true ∧ axisUnreadable s r.axis = false ∧ (feedbackOf s r.axis).seen = true ∧
      freshStamp s.ring.lastCycle (feedbackOf s r.axis).stamp = true ∧
      w = if r.kind = 0 then (feedbackOf s r.axis).status else (feedbackOf s r.axis).aux r.aux := by
  rw [sourceWord, if_neg hk]
  cases s.axis.index[r.axis]?.join
  · simp
  · dsimp only
    cases axisUnreadable s r.axis <;> cases (feedbackOf s r.axis).seen <;> simp [@eq_comm _ w]

/-- The source word depends on the tracker word, the axis table side and the last cycle number alone. -/
theorem sourceWord_congr (htracker : t.terms.tracker = s.terms.tracker) (hcycle : t.ring.lastCycle = s.ring.lastCycle)
    (haxis : t.axis = s.axis) (hread : r.kind ≠ 2 → axisUnreadable t r.axis = axisUnreadable s r.axis) :
    sourceWord r t = sourceWord r s := by
  refine Option.ext fun w => ?_
  by_cases hk : r.kind = 2
  · rw [sourceWord_tracker hk, sourceWord_tracker hk, htracker, hcycle]
  · rw [sourceWord_entry hk, sourceWord_entry hk, hread hk, hcycle, haxis, feedbackOf, haxis, ← feedbackOf]

/-- R127 in the words of the statement. -/
def SourcedBy (fresh : Option Word → Prop) (r : TermRec) (s : State) (w : Half) : Prop :=
  (r.kind = 2 ∧ ∃ k, s.terms.tracker = some k ∧ fresh k.stamp ∧ w = k.word) ∨
  (r.kind ≠ 2 ∧ (s.axis.index[r.axis]?.join).isSome = true ∧ axisUnreadable s r.axis = false ∧
    (feedbackOf s r.axis).seen = true ∧ fresh (feedbackOf s r.axis).stamp ∧
    (r.kind = 0 ∧ w = (feedbackOf s r.axis).status ∨ r.kind = 1 ∧
      (r.aux = 0 ∧ w = (feedbackOf s r.axis).aux0 ∨ r.aux = 1 ∧ w = (feedbackOf s r.axis).aux1 ∨
        r.aux = 2 ∧ w = (feedbackOf s r.axis).aux2 ∨ r.aux = 3 ∧ w = (feedbackOf s r.axis).aux3)))

theorem sourceWord_iff {fresh : Option Word → Prop} (hv : RecordValid r)
    (hfresh : ∀ x, fresh x ↔ freshStamp s.ring.lastCycle x = true) : sourceWord r s = some w ↔ SourcedBy fresh r s w := by
  obtain ⟨-, -, hkind, -, -, haux⟩ := hv
  unfold SourcedBy
  by_cases hk : r.kind = 2
  · rw [sourceWord_tracker hk, or_iff_left fun h => h.1 hk, and_iff_right hk]
    simp only [hfresh]
  · rw [sourceWord_entry hk, or_iff_right fun h => hk h.1, and_iff_right hk, word_iff (by omega) haux, hfresh]

/-! ### The value (R128) -/

theorem termValue_absent (h : r.present ≠ 1) : termValue r s = .unknown := if_pos h

theorem termValue_always (h : r.present = 1) (hc : r.cond = 12) : termValue r s = .isTrue := by
  rw [termValue, if_neg (not_not.2 h), if_pos hc]

theorem termValue_never (h : r.present = 1) (hc : r.cond = 13) : termValue r s = .isFalse := by
  rw [termValue, if_neg (not_not.2 h), if_neg (by omega), if_pos hc]

theorem termValue_unsourced (h : r.present = 1) (hc : r.cond < 12) (hs : sourceWord r s = none) : termValue r s = .unknown := by
  rw [termValue, if_neg (not_not.2 h), if_neg (by omega), if_neg (by omega), hs]

theorem termValue_sourced (h : r.present = 1) (hc : r.cond < 12) (hs : sourceWord r s = some w) :
    (Satisfies r.cond w r.operand → termValue r s = .isTrue) ∧ (¬ Satisfies r.cond w r.operand → termValue r s = .isFalse) := by
  rw [termValue, if_neg (not_not.2 h), if_neg (by omega), if_neg (by omega), hs, ← condition_iff]
  exact ⟨fun hb => congrArg TermValue.ofBool hb, fun hb => congrArg TermValue.ofBool (Bool.eq_false_iff.2 hb)⟩

/-- A value that obeys the steps of R128 is the value of the term. -/
theorem termValue_eq {holds : Half → Prop} (hv : RecordValid r)
    (hholds : r.cond < 12 → ∀ w, holds w ↔ Satisfies r.cond w r.operand)
    (habsent : r.present = 0 → v = .unknown) (halways : r.present = 1 → r.cond = 12 → v = .isTrue)
    (hnever : r.present = 1 → r.cond = 13 → v = .isFalse)
    (hunsourced : r.present = 1 → r.cond < 12 → sourceWord r s = none → v = .unknown)
    (hsourced : ∀ w, r.present = 1 → r.cond < 12 → sourceWord r s = some w →
      (holds w → v = .isTrue) ∧ (¬ holds w → v = .isFalse)) : termValue r s = v := by
  obtain ⟨hpresent, -, -, hcond, -, -⟩ := hv
  obtain h0 | h1 : r.present = 0 ∨ r.present = 1 := by omega
  · rw [habsent h0, termValue_absent (by omega)]
  obtain hc | hc | hc : r.cond < 12 ∨ r.cond = 12 ∨ r.cond = 13 := by omega
  · cases hs : sourceWord r s with
    | none => rw [hunsourced h1 hc hs, termValue_unsourced h1 hc hs]
    | some w =>
      obtain ⟨htrue, hfalse⟩ := termValue_sourced h1 hc hs
      obtain ⟨hvtrue, hvfalse⟩ := hsourced w h1 hc hs
      by_cases hw : holds w
      · rw [hvtrue hw, htrue ((hholds hc w).1 hw)]
      · rw [hvfalse hw, hfalse (mt (hholds hc w).2 hw)]
  · rw [halways h1 hc, termValue_always h1 hc]
  · rw [hnever h1 hc, termValue_never h1 hc]

theorem termValue_congr (h : sourceWord r t = sourceWord r s) : termValue r t = termValue r s := by
  rw [termValue, termValue, h]

/-! ### The evaluation (R129, R131) -/

theorem termHeld_setHeld_same (h : i < 32) (x : TermHeld) (s : State) : termHeld (setHeld i x s) i = x := by
  have hget : (s.terms.held.setIfInBounds i x)[i]? = some x := Vector.getElem?_setIfInBounds_self_of_lt h
  simp only [termHeld, setHeld, State.setTerms_terms, hget, Option.getD_some]

theorem termHeld_setHeld_ne (h : j ≠ i) (x : TermHeld) (s : State) : termHeld (setHeld i x s) j = termHeld s j := by
  have hget : (s.terms.held.setIfInBounds i x)[j]? = s.terms.held[j]? := Vector.getElem?_setIfInBounds_ne h.symm
  simp only [termHeld, setHeld, State.setTerms_terms, hget]

theorem terms_noteTerm (i : Nat) (s : State) : (noteTerm i s).terms = s.terms := by
  rw [noteTerm, terms_report]
  split <;> rfl

/-- Only the global hold term latches TERM_HOLD. -/
theorem faults_noteTerm (h : s.params.holdTerm ≠ i) :
    (noteTerm i s).ctl.faults = s.ctl.faults ∧ (noteTerm i s).ctl.first = s.ctl.first := by
  simp only [noteTerm, decide_eq_false h, Bool.false_and, Bool.false_eq_true, if_false]
  exact faults_report _

/-- What the evaluation of a term whose part is clean holds for it. -/
def evaluated (s : State) (i : Nat) : TermHeld :=
  { value := termValue (termRec (peekPart s (termPart i))) s
    unknownAs := (termRec (peekPart s (termPart i))).unknownAs == 1 }

section Clean

variable (h : PartClean s (termPart i))
include h

theorem evalTerm_eq : evalTerm i s = noteTerm i (setHeld i (evaluated s i) s) := by
  unfold evalTerm
  rw [readPart_clean s _ h]
  rfl

theorem readsAs_evalTerm : ReadsAs s (evalTerm i s) := by
  have hset : ReadsAs s (setHeld i (evaluated s i) s) := ⟨rfl, rfl⟩
  exact evalTerm_eq h ▸ hset.noted i

theorem terms_evalTerm : (evalTerm i s).terms = (setHeld i (evaluated s i) s).terms := by
  rw [evalTerm_eq h, terms_noteTerm]

theorem termHeld_evalTerm_same (hi : i < 32) : termHeld (evalTerm i s) i = evaluated s i := by
  rw [termHeld, terms_evalTerm h, ← termHeld, termHeld_setHeld_same hi]

theorem termHeld_evalTerm_ne (hj : j ≠ i) : termHeld (evalTerm i s) j = termHeld s j := by
  rw [termHeld, terms_evalTerm h, ← termHeld, termHeld_setHeld_ne hj]

theorem faults_evalTerm (hi : s.params.holdTerm ≠ i) :
    (evalTerm i s).ctl.faults = s.ctl.faults ∧ (evalTerm i s).ctl.first = s.ctl.first := by
  rw [evalTerm_eq h]
  exact faults_noteTerm (s := setHeld i (evaluated s i) s) hi

end Clean

end Sys2Proof.Machine
end


section
/-! SUPPORT. The WRITE to the TERM table (R124): the level test on the zones that name the term, what the reply shows (R132), and
the three ends of the judgement. -/

namespace Sys2Proof.Machine

variable {s t : State} {who : Sender} {level : Nat} {part : BitVec 3} {index mask : Half} {data m : Part}

/-! ### The zones' levels (R107, R124) -/

/-- A zone's part 0 lets a request of this level write the term: it is not present, names another term, or has no lower DPL. -/
def ZoneAllows (term level : Nat) (d : Part) : Prop :=
  d.getLsbD 0 = true → field d 1 1 = term → level ≤ (d.extractLsb' 4 2).toNat

theorem zoneAllows_iff (term : Nat) (d : Part) :
    (!(zoneRec d 0).present || (zoneRec d 0).term != term || decide (level ≤ (zoneRec d 0).dpl)) = true ↔
      ZoneAllows term level d := by
  simp only [Bool.or_eq_true, Bool.not_eq_true', bne_iff_ne, ne_eq, decide_eq_true_eq, ← Bool.not_eq_true,
    ← imp_iff_not_or, ← not_and, ← and_imp, ZoneAllows]
  exact Iff.rfl

/-- The level test on zones whose parts 0 are clean reads them without a change. -/
theorem termLevelOk_clean (term level : Nat) {l : List Nat} (h : ∀ z ∈ l, PartClean s (zonePart z 0)) :
    ∃ b, termLevelOk term level l s = (b, s) ∧ (b = true ↔ ∀ z ∈ l, ZoneAllows term level (peekPart s (zonePart z 0))) := by
  induction l with
  | nil => exact ⟨true, rfl, by simp⟩
  | cons z l ih =>
    obtain ⟨b, hb, hall⟩ := ih fun j hj => h j (List.mem_cons_of_mem _ hj)
    have hr : readPart (zonePart z 0) s = (some (peekPart s (zonePart z 0)), s) := readPart_clean _ _ (h z List.mem_cons_self)
    rw [termLevelOk, hr]
    simp only [hb]
    refine ⟨_, rfl, ?_⟩
    rw [Bool.and_eq_true, hall, zoneAllows_iff, List.forall_mem_cons, and_comm]

/-- A request of this level may write the term. -/
def TermOpen (s : State) (term level : Nat) : Prop :=
  level ≤ 1 ∧ ∀ z < 64, ZoneAllows term level (peekPart s (zonePart z 0))

/-! ### The request and its reply (R132, R167) -/

/-- The request of a WRITE to a term's part. -/
def termRequest (who : Sender) (part : BitVec 3) (index mask : Half) (data : Part) : Request :=
  requestFor who opWrite (selectorOf 4 part) index mask data

@[simp] theorem termRequest_table : (termRequest who part index mask data).table = 4 := selector_table 4 part
@[simp] theorem termRequest_part : (termRequest who part index mask data).part = part := selector_part 4 part
@[simp] theorem termRequest_index : (termRequest who part index mask data).index = index := rfl
@[simp] theorem termRequest_mask : (termRequest who part index mask data).mask = mask := rfl
@[simp] theorem termRequest_data : (termRequest who part index mask data).data = data := rfl
@[simp] theorem termRequest_op : (termRequest who part index mask data).op = opWrite := rfl

theorem exec_writeTerm (h : Heard s who level) (hl : level ≤ 2) : exec (.writeTerm who part index mask data) s =
    .next (writeTermTable (termRequest who part index mask data) level (arrived .up s)) := by
  have h4 : tableOk opWrite ((selectorOf 4 part).extractLsb' 0 4).toNat = true := by rw [selector_table]; rfl
  have ht : (termRequest who part index mask data).table.toNat = 4 := by rw [termRequest_table]; rfl
  refine (operate_performed s who level opWrite _ index mask data h rfl h4 hl).trans (congrArg _ ?_)
  show opWriteExec (termRequest who part index mask data) level (arrived .up s) = _
  rw [opWriteExec, ht]
  rfl

theorem placeOf_term {i : Nat} (hi : i < 32) : placeOf (termPart i) = .term i := by
  have hi' : termPart i - 37 = i := by unfold termPart; omega
  have hlo : 37 ≤ termPart i := by unfold termPart; omega
  have hhi : termPart i < 69 := by unfold termPart; omega
  rw [placeOf, if_neg (by omega), if_neg (by omega), if_neg (by omega), if_pos hhi, hi']

theorem termFlags_clean {i : Nat} (h : PartClean s (termPart i)) :
    termFlags s i = BitVec.ofNat 8 (16 * (termHeld s i).value.code) := by
  rw [termFlags, unreadableBit, contains_of_partClean h]
  exact BitVec.zero_or

/-- The reply of a WRITE to a clean term part shows it with the term's value. -/
theorem respond_term (hi : index.toNat < 32) (hp : part = 0) (code : ReplyCode) (h : PartClean s (termPart index.toNat)) :
    respond (termRequest who part index mask data) code s =
      replied who 2 code (BitVec.ofNat 8 (16 * (termHeld s index.toNat).value.code))
        (peekPart s (termPart index.toNat)) s := by
  have hn : partNumber 4 index.toNat 0 = some (termPart index.toNat) := by simp [partNumber, hi]
  have h4 : (termRequest who part index mask data).table.toNat = 4 := by rw [termRequest_table]; rfl
  have h0 : (termRequest who part index mask data).part.toNat = 0 := by rw [termRequest_part, hp]; rfl
  have hw : writtenPart (termPart index.toNat) s = (peekPart s (termPart index.toNat), s) := by
    rw [writtenPart, h.2.2, if_neg Bool.false_ne_true, readPart_clean _ _ h]
    simp only [shownPart, placeOf_term hi]
    rfl
  rw [respond_write termRequest_op, writeShown, h4, h0, termRequest_index, hn]
  simp only [hw, partStatus, placeOf_term hi, termFlags_clean h]
  rfl

/-! ### The judgement (R124) -/

/-- The tests of index and part before the level. -/
theorem writeTerm_named (hi : index.toNat < 32) (hp : part = 0) :
    ¬ (decide (32 ≤ index.toNat) || decide (part ≠ 0)) = true := by simp [hi, hp]

section Clean

variable (hi : index.toNat < 32) (hp : part = 0) (hz : ∀ z < 64, PartClean s (zonePart z 0))
include hi hp hz

theorem writeTerm_closed (h : ¬ TermOpen s index.toNat level) :
    writeTermTable (termRequest who part index mask data) level s =
      respond (termRequest who part index mask data) .refusedLevel s := by
  rw [writeTermTable, termRequest_index, termRequest_part, if_neg (writeTerm_named hi hp)]
  split
  · rfl
  · rename_i hl
    obtain ⟨b, hb, hall⟩ := termLevelOk_clean index.toNat level (l := List.range 64) fun z hm => hz z (List.mem_range.1 hm)
    have hfalse : b = false := Bool.eq_false_iff.2 fun ht =>
      h ⟨Nat.not_lt.1 hl, fun z hm => hall.1 ht z (List.mem_range.2 hm)⟩
    rw [hb, hfalse]

/-- Behind the level test the merged record is judged, and stored and evaluated when it is valid. -/
theorem writeTerm_open (h : TermOpen s index.toNat level) (hc : PartClean s (termPart index.toNat)) :
    writeTermTable (termRequest who part index mask data) level s =
      if termValid (termRec (mergedWith s (termPart index.toNat) data mask)) then
        respond (termRequest who part index mask data) .ok
          (storeMerged (termRequest who part index mask data) (termPart index.toNat)
            (mergedWith s (termPart index.toNat) data mask) (evalTerm index.toNat) s)
      else respond (termRequest who part index mask data) .badValue s := by
  obtain ⟨hl, hzones⟩ := h
  obtain ⟨b, hb, hall⟩ := termLevelOk_clean index.toNat level (l := List.range 64) fun z hm => hz z (List.mem_range.1 hm)
  have htrue : b = true := hall.2 fun z hm => hzones z (List.mem_range.1 hm)
  rw [writeTermTable, termRequest_index, termRequest_part, if_neg (writeTerm_named hi hp), if_neg (Nat.not_lt.2 hl), hb, htrue]
  simp only [termRequest_mask, termRequest_data, readForMerge_clean hc]

end Clean

end Sys2Proof.Machine
end

section
/-! SUPPORT. The WRITE to the TERM table as a whole: what an accepted one leaves, and the refusals (R124, R128, R129). -/

namespace Sys2Proof.Machine

variable {s t : State} {who : Sender} {level : Nat} {part : BitVec 3} {index mask : Half} {data d m : Part} {i : Nat}

/-! ### What an accepted WRITE leaves -/

theorem terms_storeAccepted (n : Nat) (d : Part) (s : State) : (storeAccepted n d s).terms = s.terms := by
  simp only [storeAccepted, storePart, State.setGuard_terms, State.setMgmt_terms, State.setMem_terms]

theorem unreadable_storeAccepted {n k : Nat} (h : k ≠ n) (d : Part) (s : State) :
    (storeAccepted n d s).mgmt.unreadable.contains k = s.mgmt.unreadable.contains k := by
  have he : (storeAccepted n d s).mgmt.unreadable = setErase n s.mgmt.unreadable := by
    simp only [storeAccepted, storePart, State.setGuard_mgmt, State.setMgmt_mgmt, State.setMem_mgmt]
  rw [he, Bool.eq_iff_iff, List.contains_iff_mem, List.contains_iff_mem, mem_setErase, and_iff_right h]

/-- The WRITE of a term's part leaves the value of a valid record: an AXIS part is not that of a term. -/
theorem termValue_storeAccepted {r : TermRec} (hv : RecordValid r) :
    termValue r (storeAccepted (termPart i) d s) = termValue r s := by
  obtain ⟨-, -, -, -, haxis, -⟩ := hv
  have hrest := undisturbed_storeAccepted (termPart i) d s
  refine termValue_congr (sourceWord_congr (by rw [terms_storeAccepted]) (by rw [hrest.ring]) hrest.axis fun hk => ?_)
  have hle := haxis hk
  exact unreadable_storeAccepted (by unfold axisPart termPart; omega) d s

/-- A record has been stored for a term and evaluated. -/
structure TermTaken (i : Nat) (m : Part) (s t : State) : Prop where
  part : peekPart t (termPart i) = m &&& usedBits (.term i)
  clean : PartClean t (termPart i)
  held : termHeld t i = { value := termValue (termRec m) s, unknownAs := (termRec m).unknownAs == 1 }
  others : ∀ j, j ≠ i → termHeld t j = termHeld s j
  rest : Undisturbed s t
  replies : t.mgmt.replies = s.mgmt.replies
  faults : s.params.holdTerm ≠ i → t.ctl.faults = s.ctl.faults ∧ t.ctl.first = s.ctl.first

theorem termTaken_evalTerm (hi : i < 32) (hc : MemoryCanonical s) (hv : RecordValid (termRec m)) :
    TermTaken i m s (evalTerm i (storeAccepted (termPart i) m s)) := by
  have hst := stores_storeAccepted (termPart i) m hc
  rw [placeOf_term hi] at hst
  have hclean := hst.partClean
  have hreads := readsAs_evalTerm hclean
  have hrest := undisturbed_storeAccepted (termPart i) m s
  obtain ⟨hreplies, -⟩ := (mail_eq _ _).1 (mail_evalTerm i (storeAccepted (termPart i) m s))
  refine ⟨?_, hreads.partClean hclean, ?_, fun j hj => ?_, hrest.trans (undisturbed_of_quiet (quiet_evalTerm i _)),
    hreplies.trans (replies_storeAccepted _ _ _), fun h => ?_⟩
  · rw [← hst.part, peekPart, hreads.mem, ← peekPart]
  · rw [termHeld_evalTerm_same hclean hi, evaluated, hst.part, termRec_used, termValue_storeAccepted hv]
  · rw [termHeld_evalTerm_ne hclean hj, termHeld, terms_storeAccepted, ← termHeld]
  · rw [← hrest.params] at h
    rw [← ctl_storeAccepted (termPart i) m s]
    exact faults_evalTerm hclean h

/-! ### The three ends of the WRITE -/

theorem mergedWith_arrived (p : Port) (n : Nat) : mergedWith (arrived p s) n data mask = mergedWith s n data mask := rfl

theorem respond_term_arrived (hi : index.toNat < 32) (hp : part = 0) (hc : PartClean s (termPart index.toNat))
    (code : ReplyCode) : respond (termRequest who part index mask data) code (arrived .up s) =
      replied who 2 code (BitVec.ofNat 8 (16 * (termHeld s index.toNat).value.code)) (peekPart s (termPart index.toNat))
        (arrived .up s) :=
  respond_term (s := arrived .up s) hi hp code hc

section Heard

variable (h : Heard s who level) (hi : index.toNat < 32) (hp : part = 0) (hc : PartClean s (termPart index.toNat))
  (hz : ∀ z < 64, PartClean s (zonePart z 0))
include h hi hp hc hz

/-- Above level 2 the order of judgement refuses the request, else the level test of the TERM table. -/
theorem exec_writeTerm_closed (ho : ¬ TermOpen s index.toNat level) : exec (.writeTerm who part index mask data) s =
    .next (replied who 2 .refusedLevel (BitVec.ofNat 8 (16 * (termHeld s index.toNat).value.code))
      (peekPart s (termPart index.toNat)) (arrived .up s)) := by
  refine Eq.trans ?_ (congrArg _ (respond_term_arrived (mask := mask) (data := data) hi hp hc .refusedLevel))
  rcases Nat.lt_or_ge 2 level with h2 | h2
  · have h4 : tableOk opWrite ((selectorOf 4 part).extractLsb' 0 4).toNat = true := by rw [selector_table]; rfl
    exact operate_refused h _ index mask data rfl h4 h2
  · exact (exec_writeTerm h h2).trans (congrArg _ (writeTerm_closed (s := arrived .up s) hi hp hz ho))

theorem exec_writeTerm_invalid (ho : TermOpen s index.toNat level)
    (hv : ¬ RecordValid (termRec (mergedWith s (termPart index.toNat) data mask))) :
    exec (.writeTerm who part index mask data) s =
      .next (replied who 2 .badValue (BitVec.ofNat 8 (16 * (termHeld s index.toNat).value.code))
        (peekPart s (termPart index.toNat)) (arrived .up s)) := by
  have hjudged := writeTerm_open (s := arrived .up s) (who := who) (mask := mask) (data := data) hi hp hz ho hc
  rw [mergedWith_arrived, if_neg (mt termValid_iff.1 hv), respond_term_arrived hi hp hc] at hjudged
  exact (exec_writeTerm h (Nat.le_succ_of_le ho.1)).trans (congrArg _ hjudged)

theorem exec_writeTerm_accepted (hm : MemoryCanonical s) (ho : TermOpen s index.toNat level) (hmask : mask ≠ 0)
    (hd : d = mergedWith s (termPart index.toNat) data mask) (hv : RecordValid (termRec d)) :
    ∃ t, exec (.writeTerm who part index mask data) s =
        .next (replied who 2 .ok (BitVec.ofNat 8 (16 * (termHeld t index.toNat).value.code))
          (d &&& usedBits (.term index.toNat)) t) ∧ TermTaken index.toNat d (arrived .up s) t := by
  subst hd
  have hjudged := writeTerm_open (s := arrived .up s) (who := who) (mask := mask) (data := data) hi hp hz ho hc
  have htaken := termTaken_evalTerm (s := arrived .up s) hi hm hv
  rw [mergedWith_arrived, if_pos (termValid_iff.2 hv), storeMerged, termRequest_mask, if_neg hmask] at hjudged
  refine ⟨_, (exec_writeTerm h (Nat.le_succ_of_le ho.1)).trans (congrArg _ (hjudged.trans ?_)), htaken⟩
  rw [respond_term hi hp _ htaken.clean, htaken.part]

end Heard

/-- Settles O47: a WRITE comes to the level test on the zones, the validation or the evaluation of its stored record, whose value
follows R128 step by step; then the flags of the subtraction one by one. -/
theorem writeTermEvaluatesTheTerm : Obligations.WriteTermEvaluatesTheTerm := by
  refine ⟨?_, fun w o => ⟨cmpFlags_n w o, cmpFlags_z, cmpFlags_v, cmpFlags_c⟩⟩
  rintro s who level part index mask data m r allowed valid source holds v fresh h hm hc hz hd rfl hallowed hvalid hfresh
    hsource hholds habsent halways hnever hunsourced hsourced hi hp
  refine ⟨fun ha hv hmask => ?_, fun ha => ?_, fun ha hv => ?_⟩
  · replace hv : RecordValid (termRec m) := hvalid.1 hv
    have hword : source = sourceWord (termRec m) s := Option.ext fun w => (hsource w).trans
      (sourceWord_iff hv fun x => (hfresh x).trans (freshStamp_iff _ x).symm).symm
    rw [hword] at hunsourced hsourced
    have hcodes : (termRec m).cond < 12 → ∀ w, holds (termRec m).cond w ↔ Satisfies (termRec m).cond w (termRec m).operand :=
      fun hcode w => satisfies_of_codes (holds := fun code => holds code w) (hholds w) hcode
    have hvalue : termValue (termRec m) s = v := termValue_eq hv hcodes habsent halways hnever hunsourced hsourced
    obtain ⟨t, he, htaken⟩ := exec_writeTerm_accepted h hi hp hc hz hm (hallowed.1 ha) hmask hd hv
    have hheld : termHeld t index.toNat = { value := v, unknownAs := (termRec m).unknownAs == 1 } := by
      rw [htaken.held, ← hvalue]
      rfl
    rw [hheld] at he
    exact ⟨t, he, htaken.part, hvalue, hheld, htaken.others, htaken.rest, htaken.replies, htaken.faults⟩
  · exact exec_writeTerm_closed h hi hp hc hz (mt hallowed.2 ha)
  · exact exec_writeTerm_invalid h hi hp hc hz (hallowed.1 ha) fun hr => hv (hvalid.2 (hd ▸ hr))

end Sys2Proof.Machine
end

section
/-! SUPPORT. The transmit queues and the sync state of the ring ports (R134 to R137): a cell joins a queue or is dropped, and what a
good or a bad cell, silence and a transmission do to a port. -/

namespace Sys2Proof.Machine

variable {s t : State} {p : Port} {c : Cell}

/-! ### The transmit queues (R136, R145) -/

theorem enqueue_joined (h : HasPlace p s) : enqueue p c s = joined p c s := if_pos h

theorem enqueue_full (h : ¬ HasPlace p s) :
    enqueue p c s = s.setRing { s.ring with overflows := min 65535 (s.ring.overflows + 1) } := if_neg h

theorem enqueueFill_empty (h : (s.ring.tx p).queue = []) : enqueueFill p c s = joined p c s := by
  have hplace : HasPlace p s := by rw [HasPlace, h]; decide
  rw [enqueueFill, h, if_pos List.isEmpty_nil, enqueue_joined hplace]

theorem enqueueFill_waiting (h : (s.ring.tx p).queue ≠ []) : enqueueFill p c s = s :=
  if_neg (mt List.isEmpty_iff.1 h)

@[simp] theorem rx_setTx (r : Ring) (p q : Port) (x : PortTx) : (r.setTx p x).rx q = r.rx q := by cases p <;> cases q <;> rfl
@[simp] theorem tx_setRx (r : Ring) (p q : Port) (x : PortRx) : (r.setRx p x).tx q = r.tx q := by cases p <;> cases q <;> rfl
@[simp] theorem rx_setRx_same (r : Ring) (p : Port) (x : PortRx) : (r.setRx p x).rx p = x := by cases p <;> rfl
@[simp] theorem rx_setRx_other (r : Ring) (p : Port) (x : PortRx) : (r.setRx p x).rx (otherPort p) = r.rx (otherPort p) := by
  cases p <;> rfl
@[simp] theorem overflows_setRx (r : Ring) (p : Port) (x : PortRx) : (r.setRx p x).overflows = r.overflows := by cases p <;> rfl

theorem tx_arrived (p q : Port) (s : State) : (arrived p s).ring.tx q = s.ring.tx q := tx_setRx _ _ _ _

theorem hasPlace_arrived (p q : Port) (s : State) : HasPlace q (arrived p s) ↔ HasPlace q s := by
  rw [HasPlace, tx_arrived, HasPlace]

theorem rx_enqueue (p q : Port) (c : Cell) (s : State) : (enqueue p c s).ring.rx q = s.ring.rx q := by
  by_cases h : HasPlace p s
  · rw [enqueue_joined h]; exact rx_setTx _ _ _ _
  · rw [enqueue_full h]; cases q <;> rfl

/-- Settles O10: the two cases of `transmit`. -/
theorem transmitSideSendsItsHeadOrFill : Obligations.TransmitSideSendsItsHeadOrFill := by
  refine fun s p => ⟨fun c cs h => ?_, fun h => ?_⟩
  · show Host.Outcome.next (transmit p s) = _
    simp only [transmit, h]
  · show Host.Outcome.next (transmit p s) = _
    simp only [transmit, h]
    rfl

/-! ### The receiving side (R134, R135) -/

theorem not_synced_iff : ¬ Synced p s ↔ (s.ring.rx p).sync = .hunting := by
  unfold Synced
  cases (s.ring.rx p).sync <;> decide

section

variable {x : PortRx} {now : Word}

theorem silent_synced (h : x.sync = .synced) :
    x.silent = { x with sync := .hunting, goodRun := 0, losses := min 65535 (x.losses + 1), activity := none } := by
  rw [PortRx.silent, h]
  rfl

theorem silent_hunting (h : x.sync = .hunting) : x.silent = { x with activity := none } := by
  unfold PortRx.silent
  rw [h]

theorem rx_good_synced (h : x.sync = .synced) :
    x.receive true now = { x with badRun := 0, good := min 65535 (x.good + 1), activity := some now } := by
  simp only [PortRx.receive, PortRx.afterGood, h, if_true]
  rfl

theorem rx_bad_synced (h : x.sync = .synced) (hb : x.badRun < 3) :
    x.receive false now = { x with badRun := x.badRun + 1, bad := min 65535 (x.bad + 1), activity := some now } := by
  simp only [PortRx.receive, PortRx.afterBad, h, if_pos hb, Bool.false_eq_true, if_false]
  rfl

theorem rx_bad_loses (h : x.sync = .synced) (hb : 3 ≤ x.badRun) : x.receive false now = { x with
    sync := .hunting, goodRun := 0, losses := min 65535 (x.losses + 1), bad := min 65535 (x.bad + 1),
    activity := some now } := by
  simp only [PortRx.receive, PortRx.afterBad, h, if_neg (Nat.not_lt.2 hb), Bool.false_eq_true, if_false]
  rfl

theorem rx_good_hunting (h : x.sync = .hunting) (hg : x.goodRun < 7) : x.receive true now =
    { x with goodRun := x.goodRun + 1, good := min 65535 (x.good + 1), activity := some now } := by
  simp only [PortRx.receive, PortRx.afterGood, h, if_pos hg, if_true]
  rfl

theorem rx_good_syncs (h : x.sync = .hunting) (hg : 7 ≤ x.goodRun) : x.receive true now =
    { x with sync := .synced, badRun := 0, good := min 65535 (x.good + 1), activity := some now } := by
  simp only [PortRx.receive, PortRx.afterGood, h, if_neg (Nat.not_lt.2 hg), if_true]
  rfl

theorem rx_bad_hunting (h : x.sync = .hunting) : x.receive false now =
    { x with goodRun := 0, bad := min 65535 (x.bad + 1), activity := some now } := by
  simp only [PortRx.receive, PortRx.afterBad, h, Bool.false_eq_true, if_false]
  rfl

end

/-- A bad cell that passes is counted, and a VOID cell leaves in its place (R137). -/
theorem receive_bad (hs : Synced p s) (hc : isGood c = false) (hb : (s.ring.rx p).badRun < 3) : receive p c s =
    enqueueVoid (otherPort p) (s.setRing (s.ring.setRx p ((s.ring.rx p).receive false s.clock.us))) := by
  have hpass : (s.ring.rx p).passes false = true := by
    rw [PortRx.passes, show (s.ring.rx p).sync = .synced from hs, decide_eq_true hb]
    rfl
  simp only [receive, hc, hpass, if_true, Bool.false_eq_true, if_false]

/-- The VOID cell finds room. -/
theorem enqueueVoid_joined (x : PortRx) (h : HasPlace (otherPort p) s) :
    enqueueVoid (otherPort p) (s.setRing (s.ring.setRx p x)) = joined (otherPort p) voidCell
      (s.setRing { s.ring.setRx p x with void := min 65535 (s.ring.void + 1) }) := by
  cases p with
  | up | down => exact enqueue_joined h

/-- The VOID cell finds its queue full: it is dropped, and counted as a void all the same (log entry 19). -/
theorem enqueueVoid_full (x : PortRx) (h : ¬ HasPlace (otherPort p) s) :
    enqueueVoid (otherPort p) (s.setRing (s.ring.setRx p x)) = s.setRing { s.ring.setRx p x with
      void := min 65535 (s.ring.void + 1), overflows := min 65535 (s.ring.overflows + 1) } := by
  cases p with
  | up | down => exact enqueue_full h

/-- A cell that does not pass is counted, moves the sync state and is dropped (R135). -/
theorem receive_dropped {good : Bool} (hc : isGood c = good) (h : (s.ring.rx p).passes good = false) : receive p c s =
    s.setRing (s.ring.setRx p ((s.ring.rx p).receive good s.clock.us)) := by
  simp only [receive, hc, h, Bool.false_eq_true, if_false]

theorem passes_hunting {x : PortRx} (h : x.sync = .hunting) (good : Bool) : x.passes good = false := by
  rw [PortRx.passes, h]
  rfl

theorem passes_bad_fourth {x : PortRx} (hb : 3 ≤ x.badRun) : x.passes false = false := by
  rw [PortRx.passes, decide_eq_false (Nat.not_lt.2 hb), Bool.or_self, Bool.and_false]

/-- Settles O9: the expiry is due from 1 ms of silence on, and a SYNCED port then loses its sync. -/
theorem silenceOfALineMakesThePortHunt : Obligations.SilenceOfALineMakesThePortHunt := by
  intro s p b hb
  have hdue : activityIsDue (s.ring.rx p) s.clock.us = decide (1000 ≤ (s.clock.us - b).toNat) := by
    rw [activityIsDue, hb]
    rfl
  have hexec : exec (.lineActivityTimeout p) s = .next (reachActivity p s) := rfl
  rw [hexec, reachActivity, hdue]
  refine ⟨fun h hs => ?_, fun h hs => ?_, fun h => ?_⟩
  · rw [if_pos (decide_eq_true h), silent_synced hs]
  · rw [if_pos (decide_eq_true h), silent_hunting (not_synced_iff.1 hs)]
  · rw [if_neg (by simpa using h)]

/-! ### What a cell that passes leaves of the receiving sides -/

theorem rx_enqueueFill (p q : Port) (c : Cell) (s : State) : (enqueueFill p c s).ring.rx q = s.ring.rx q := by
  unfold enqueueFill
  split
  · exact rx_enqueue p q c s
  · rfl

theorem ring_readAxis_of {i : Nat} {o : Option AxisRec} (h : readAxis i s = (o, t)) : t.ring = s.ring := by
  obtain ⟨-, -, hring, -⟩ := (quiet_eq t s).1 (quiet_readAxis_of h)
  exact hring

theorem ring_forwardLimited (i : Nat) (e : AxisRec) (c : Cell) (s : State) : (forwardLimited i e c s).2.ring = s.ring := by
  unfold forwardLimited
  split <;> rfl

theorem ring_conditionCoarse (i : Nat) (c : Cell) (s : State) : (conditionCoarse i c s).2.ring = s.ring := by
  unfold conditionCoarse
  split
  · rfl
  · split <;> rename_i hread <;> have hring := ring_readAxis_of hread
    · exact hring
    · split
      · exact hring
      · exact (ring_forwardLimited _ _ _ _).trans hring

theorem ring_fillFine (r : Role) (i : Nat) (c : Cell) (s : State) : (fillFine r i c s).2.ring = s.ring := by
  unfold fillFine
  split <;> rfl

theorem ring_fillStation (st : Station) (i : Nat) (c : Cell) (s : State) : (fillStation st i c s).2.ring = s.ring := by
  unfold fillStation
  split <;> rfl

theorem ring_conditionSet (c : Cell) (s : State) : (conditionSet c s).2.ring = s.ring := by
  unfold conditionSet
  split
  · rfl
  · split
    case h_1 => exact ring_conditionCoarse _ _ _
    case h_2 | h_3 | h_4 | h_5 => exact ring_fillFine _ _ _ _
    case h_12 => rfl
    all_goals exact ring_fillStation _ _ _ _

theorem ring_keepUnsent (s t : State) : (keepUnsent s t).ring = t.ring := by
  unfold keepUnsent
  split <;> rfl

theorem ring_capture (i : Nat) (role : Role) (c : Cell) (s : State) : (capture i role c s).ring = s.ring := by
  have heval : ∀ l u, (evalTerms l u).ring = u.ring := fun l u =>
    ((quiet_eq _ _).1 (quiet_evalTerms l u)).2.2.1
  unfold capture
  dsimp only
  split
  · exact ((steady_eq _ _).1 (steady_stationReport _ _ _)).2.2.1.trans (heval _ _)
  · exact heval _ _

theorem ring_captureCell (c : Cell) (s : State) : (captureCell c s).ring = s.ring := by
  unfold captureCell
  split
  · rfl
  · split
    · rfl
    · exact ring_capture _ _ _ _

theorem ring_outboundTrain (cycle : Word) (period : Half) (s : State) :
    (outboundTrain cycle period s).ring = s.ring.train cycle period s.clock.us :=
  ((steady_eq _ _).1 (steady_outboundTrain cycle period s)).2.2.1

theorem ring_judgeSlot (r : Role) (s : State) : (judgeSlot r s).ring = s.ring := by
  unfold judgeSlot
  dsimp only
  split
  · rfl
  · split
    · rfl
    · split <;> rfl

theorem ring_outboundEnd (s : State) : (outboundEnd s).ring = s.ring := by
  obtain ⟨-, -, hring, -⟩ := (quiet_eq _ _).1 (quiet_gateAtEnd s)
  rw [outboundEnd, judgeSlots, clearSlots, State.setAxis_ring, ring_judgeSlot, ring_judgeSlot, ring_judgeSlot, ring_judgeSlot,
    hring]

theorem rx_enqueueAll (p q : Port) (l : List Cell) (s : State) : (enqueueAll p l s).ring.rx q = s.ring.rx q := by
  unfold enqueueAll
  induction l generalizing s with
  | nil => rfl
  | cons c l ih => rw [List.foldl_cons, ih, rx_enqueue]

theorem rx_appendOwn (q : Port) (s : State) : (appendOwn s).ring.rx q = s.ring.rx q := by
  have hring : ∀ (r : Ring) (b : Bool), ({ r with append := b } : Ring).rx q = r.rx q := fun r b => by cases q <;> rfl
  unfold appendOwn
  split
  · exact (hring _ _).trans (rx_enqueueAll _ _ _ _)
  · rfl

theorem rx_passTrain (q : Port) (c : Cell) (s : State) : (passTrain c s).ring.rx q = s.ring.rx q := by
  rw [passTrain, rx_enqueue]
  split
  · rfl
  · rw [ring_outboundTrain]
    cases q <;> rfl

/-- A cell that is not a management cell at UP leaves the receiving sides as its arrival has counted them. -/
theorem rx_passGood (q : Port) (h : c.kind ≠ kindMgt ∨ p = .down) (s : State) :
    (passGood p c s).ring.rx q = s.ring.rx q := by
  cases p with
  | up =>
    have hm : c.kind ≠ kindMgt := h.resolve_right (by decide)
    rw [passGood, passUp, if_neg hm]
    split
    · exact rx_passTrain q c s
    split
    · rw [passSet, rx_enqueue, ring_keepUnsent, ring_conditionSet]
    split
    · rw [rx_enqueue, ring_outboundEnd]
    split
    · exact rx_enqueueFill _ _ _ _
    · exact rx_enqueue _ _ _ _
  | down =>
    rw [passGood, passDown]
    split
    · rw [rx_enqueue, ring_captureCell]
    split
    · rw [rx_enqueue, rx_appendOwn]
    split
    · exact rx_enqueueFill _ _ _ _
    · exact rx_enqueue _ _ _ _

/-- Settles O7: a good cell by `rx_passGood`, a bad one by the VOID cell that leaves for it, a dropped one by its count alone. -/
theorem receivedCellMovesTheSyncState : Obligations.ReceivedCellMovesTheSyncState := by
  intro s p c
  have hexec : exec (.cellReceive p c) s = .next (receive p c s) := rfl
  simp only [hexec, not_synced_iff]
  refine ⟨fun hs hc hb hq => ?_, fun hs hc hb hq => ?_, fun hs hc hk => ?_, fun hs hc hb => ?_, fun hs hc hg => ?_,
    fun hs hc hg => ?_, fun hs hc => ?_⟩
  · rw [receive_bad hs hc hb, rx_bad_synced hs hb, enqueueVoid_joined _ hq]
    rfl
  · rw [receive_bad hs hc hb, rx_bad_synced hs hb, enqueueVoid_full _ hq]
  · refine ⟨_, rfl, ?_⟩
    rw [receive_good p c s hs hc, rx_passGood _ hk, rx_passGood _ hk]
    exact ⟨rx_setRx_other _ _ _, (rx_setRx_same _ _ _).trans (rx_good_synced hs)⟩
  · rw [receive_dropped hc (passes_bad_fourth hb), rx_bad_loses hs hb]
  · rw [receive_dropped hc (passes_hunting hs _), rx_good_hunting hs hg]
  · rw [receive_dropped hc (passes_hunting hs _), rx_good_syncs hs hg]
  · rw [receive_dropped hc (passes_hunting hs _), rx_bad_hunting hs]

/-! ### Cells that a port does not read (R136, R138, R139, R142) -/

/-- A cell of kind FILL. -/
theorem passGood_fill (h : c.kind = kindFill) (s : State) : passGood p c s = enqueueFill (otherPort p) c s := by
  cases p with
  | up => simp [passGood, passUp, h, kindTrain, kindSet, kindMgt, kindEnd, kindFill, otherPort]
  | down => simp [passGood, passDown, h, kindFbk, kindEnd, kindFill, otherPort]

theorem passUp_other (ht : c.kind ≠ kindTrain) (hs : c.kind ≠ kindSet) (hm : c.kind ≠ kindMgt) (he : c.kind ≠ kindEnd)
    (hf : c.kind ≠ kindFill) (s : State) : passUp c s = enqueue .down c s := by
  rw [passUp, if_neg ht, if_neg hs, if_neg hm, if_neg he, if_neg hf]

theorem passDown_other (hk : c.kind ≠ kindFbk) (he : c.kind ≠ kindEnd) (hf : c.kind ≠ kindFill) (s : State) :
    passDown c s = enqueue .up c s := by
  rw [passDown, if_neg hk, if_neg he, if_neg hf]

/-- A TRAIN with RETURN set (R140). -/
theorem passUp_return (hk : c.kind = kindTrain) (hr : c.flags.getLsbD 0 = true) (s : State) :
    passUp c s = enqueue .down c s := by
  rw [passUp, if_pos hk, passTrain, isReturn, if_pos hr]

/-- An MGT cell that is not addressed to the part, or finds it without an address (R139). -/
theorem passUp_passing (hk : c.kind = kindMgt) (ha : s.ring.ownAddr = 0 ∨ c.dst ≠ s.ring.ownAddr) :
    passUp c s = enqueue .down c s := by
  have ht : ¬ kindMgt = kindTrain := by decide
  have hs : ¬ kindMgt = kindSet := by decide
  have hc : consumed c s = false := by
    rcases ha with ha | ha
    · rw [consumed, ha]; rfl
    · rw [consumed, beq_eq_false_iff_ne.2 ha, Bool.and_false]
  rw [passUp, hk, if_neg ht, if_neg hs, if_pos rfl, hc, if_neg Bool.false_ne_true]

/-- Settles O8: `passGood` forwards a cell of a kind that the port does not read as it is. -/
theorem unreadCellIsForwardedUnchanged : Obligations.UnreadCellIsForwardedUnchanged := by
  intro s p c hsync hgood
  have hexec : exec (.cellReceive p c) s = .next (passGood p c (arrived p s)) :=
    congrArg Host.Outcome.next (receive_good p c s hsync hgood)
  rw [hexec]
  refine ⟨fun hkind => ?_, fun hkind => ?_⟩
  · have hpass : passGood p c (arrived p s) = enqueue (otherPort p) c (arrived p s) := by
      rcases hkind with ⟨ht, he, hf, hs, hb, hm⟩ | ⟨rfl, hk⟩ | ⟨rfl, hk, hr⟩ | ⟨rfl, hk, ha⟩ | ⟨rfl, hk⟩
      · cases p with
        | up => exact passUp_other ht hs hm he hf _
        | down => exact passDown_other hb he hf _
      · exact passUp_other (by rw [hk]; decide) (by rw [hk]; decide) (by rw [hk]; decide) (by rw [hk]; decide)
          (by rw [hk]; decide) _
      · exact passUp_return hk hr _
      · exact passUp_passing hk ha
      · refine passDown_other ?_ ?_ ?_ _ <;> rcases hk with hk | hk | hk <;> rw [hk] <;> decide
    rw [hpass]
    refine ⟨fun hq => ?_, fun hq => ?_⟩
    · rw [enqueue_joined ((hasPlace_arrived p _ s).2 hq)]
    · rw [enqueue_full (mt (hasPlace_arrived p _ s).1 hq), arrived, State.setRing_ring, overflows_setRx]
  · rw [passGood_fill hkind]
    refine ⟨fun hq => ?_, fun hq => ?_⟩
    · rw [enqueueFill_empty ((congrArg PortTx.queue (tx_arrived p _ s)).trans hq)]
    · rw [enqueueFill_waiting (by rw [tx_arrived]; exact hq)]

end Sys2Proof.Machine
end

section
/-! SUPPORT. The part's own cells ahead of a return END (R143, R145), and the train watchdog's expiry (R146, R184, R185). -/

namespace Sys2Proof.Machine

variable {s t : State} {p : Port}

/-! ### The return END (R143, R145) -/

/-- Cells for which there is room join a queue in their order. -/
theorem enqueueAll_joined {l : List Cell} (h : (s.ring.tx p).queue.length + l.length ≤ 64) : enqueueAll p l s =
    s.setRing (s.ring.setTx p { s.ring.tx p with queue := (s.ring.tx p).queue ++ l }) := by
  unfold enqueueAll
  induction l generalizing s with
  | nil =>
    rw [List.append_nil]
    cases p <;> rfl
  | cons c l ih =>
    rw [List.length_cons] at h
    have hplace : HasPlace p s := by unfold HasPlace; omega
    have hqueue : ((joined p c s).ring.tx p).queue = (s.ring.tx p).queue ++ [c] := by cases p <;> rfl
    rw [List.foldl_cons, enqueue_joined hplace, ih (by rw [hqueue, List.length_append, List.length_singleton]; omega), hqueue,
      List.append_assoc, List.singleton_append]
    cases p <;> rfl

theorem length_ownCells (s : State) : (ownCells s).length ≤ 7 := by
  simp only [ownCells, List.length_cons, List.length_append, List.length_map, List.length_take]
  omega

/-- The opportunity is taken: the part's own cells join the queue, and leave the queues they come from. -/
theorem appendOwn_open (ha : s.ring.append = true) (hq : s.ring.txUp.queue.length ≤ 56) : appendOwn s =
    ((s.setRing { s.ring with
        txUp := { s.ring.txUp with queue := s.ring.txUp.queue ++ ownCells s }, append := false }).setMgmt
      { s.mgmt with replies := s.mgmt.replies.drop 4 }).setLay { s.lay with asLaid := s.lay.asLaid.drop 2 } := by
  have hroom : (s.ring.tx .up).queue.length + (ownCells s).length ≤ 64 := by
    have hown := length_ownCells s
    show s.ring.txUp.queue.length + _ ≤ 64
    omega
  rw [appendOwn, if_pos ha, enqueueAll_joined hroom]
  rfl

theorem appendOwn_closed (ha : s.ring.append = false) : appendOwn s = s := by
  rw [appendOwn, ha, if_neg Bool.false_ne_true]

theorem exec_returnEnd (h : Synced .down s) (dst src flags : Byte) (payload : BitVec 192) :
    exec (.returnEndArrival dst src flags payload) s =
      .next (enqueue .up (goodCell dst src kindEnd flags payload) (appendOwn (arrived .down s))) := by
  have hfbk : ¬ kindEnd = kindFbk := by decide
  have hexec : exec (.returnEndArrival dst src flags payload) s =
      .next (receive .down (goodCell dst src kindEnd flags payload) s) := rfl
  rw [hexec, receive_good .down _ s h (isGood_goodCell _ _ _ _ _), passGood, passDown, goodCell_kind, if_neg hfbk, if_pos rfl]

/-- Settles O15: the cells of `ownCells` go ahead of the END cell while the opportunity is open. -/
theorem returnEndAppendsThePartsCells : Obligations.ReturnEndAppendsThePartsCells := by
  intro s dst src flags payload cells hsync hq hcells
  obtain rfl : cells = ownCells (arrived .down s) ++ [goodCell dst src kindEnd flags payload] := hcells
  have htx : (arrived .down s).ring.txUp = s.ring.txUp := rfl
  have hown := length_ownCells (arrived .down s)
  rw [exec_returnEnd hsync]
  refine ⟨fun ha => ?_, fun ha => ?_⟩
  · rw [appendOwn_open (s := arrived .down s) ha (htx.symm ▸ hq), enqueue_joined]
    · rw [← List.append_assoc]
      rfl
    · show (s.ring.txUp.queue ++ ownCells (arrived .down s)).length < 64
      rw [List.length_append]
      omega
  · rw [appendOwn_closed (s := arrived .down s) ha, enqueue_joined]
    · rfl
    · show s.ring.txUp.queue.length < 64
      omega

/-! ### The train watchdog (R146) -/

/-- The expiry as it is counted, and the watchdog stopped. -/
def starvedRing (s : State) : State :=
  s.setRing { s.ring with watchdog := none, expiries := min 65535 (s.ring.expiries + 1) }

/-- The fault of the expiry, its detail the cycle number received last (R188). -/
def starvedCtl (s : State) : Ctl := s.ctl.latch .starved (s.ring.lastCycle.getD 0) s.clock.ms

theorem latch_starved (s : State) :
    latch .starved (s.ring.lastCycle.getD 0).toNat (starvedRing s) = (starvedRing s).setCtl (starvedCtl s) := by
  rw [latch, BitVec.ofNat_toNat, BitVec.setWidth_eq]
  rfl

theorem starvedCtl_eq (s : State) : ∃ faults first, starvedCtl s = { s.ctl with faults := faults, first := first } := by
  unfold starvedCtl Ctl.latch
  split <;> exact ⟨_, _, rfl⟩

theorem starvedCtl_first (h : s.ctl.faults = 0) :
    (starvedCtl s).first = some { kind := .starved, detail := s.ring.lastCycle.getD 0, ms := s.clock.ms } := by
  have hnew : ¬ s.ctl.has .starved = true := by
    rw [Ctl.has, h]
    decide
  rw [starvedCtl, Ctl.latch, if_neg hnew, if_pos h]

theorem has_starvedCtl (s : State) : (starvedCtl s).has .starved = true := by
  have h := has_latch .starved (s.ring.lastCycle.getD 0).toNat (starvedRing s)
  rwa [latch_starved, State.setCtl_ctl] at h

theorem reachWatchdog_due (h : watchdogIsDue s = true) : reachWatchdog s = raiseStarved
    (if s.ctl.mode == .standby then starvedRing s
      else latch .starved (s.ring.lastCycle.getD 0).toNat (starvedRing s)) := if_pos h

theorem raiseStarved_standby (h : s.ctl.mode = .standby) : raiseStarved s = s := by
  rw [raiseStarved, h]

theorem raiseStarved_hold (h : s.ctl.mode = .hold) : raiseStarved s = s.setCtl { s.ctl with starved := true } := by
  rw [raiseStarved, h]

theorem raiseStarved_free (h : s.ctl.mode.held = false) :
    raiseStarved s = enterHold (s.setCtl { s.ctl with starved := true }) := by
  cases hm : s.ctl.mode with
  | standby | hold => rw [hm] at h; cases h
  | guard | lay => rw [raiseStarved, hm]

theorem reachWatchdog_standby (h : watchdogIsDue s = true) (hm : s.ctl.mode = .standby) :
    reachWatchdog s = starvedRing s := by
  rw [reachWatchdog_due h, if_pos (beq_iff_eq.2 hm)]
  exact raiseStarved_standby hm

theorem reachWatchdog_latched (h : watchdogIsDue s = true) (hm : s.ctl.mode ≠ .standby) :
    reachWatchdog s = raiseStarved ((starvedRing s).setCtl (starvedCtl s)) := by
  rw [reachWatchdog_due h, if_neg (mt beq_iff_eq.1 hm), latch_starved]

/-- In HOLD the cause is recorded (R184). -/
theorem reachWatchdog_hold (h : watchdogIsDue s = true) (hm : s.ctl.mode = .hold) :
    reachWatchdog s = (starvedRing s).setCtl { starvedCtl s with starved := true } := by
  rw [reachWatchdog_latched h (by rw [hm]; decide), raiseStarved_hold]
  · rfl
  · obtain ⟨_, _, hc⟩ := starvedCtl_eq s
    rw [State.setCtl_ctl, hc]
    exact hm

/-- In GUARD and LAY it brings HOLD, with the return mode of R185. -/
theorem ctl_reachWatchdog_free (h : watchdogIsDue s = true) (hm : s.ctl.mode.held = false) :
    ∃ c, (reachWatchdog s).ctl = { starvedCtl s with
      starved := true, ret := some (if s.ctl.recovery then .guard else s.ctl.mode), recovery := false, mode := .hold
      holdN := true, conditions := c } := by
  obtain ⟨_, _, hc⟩ := starvedCtl_eq s
  have hstandby : s.ctl.mode ≠ .standby := fun hs => by rw [hs] at hm; cases hm
  rw [reachWatchdog_latched h hstandby, raiseStarved_free (by rw [State.setCtl_ctl, hc]; exact hm)]
  obtain ⟨c, he⟩ := ctl_enterHold
    (((starvedRing s).setCtl (starvedCtl s)).setCtl { ((starvedRing s).setCtl (starvedCtl s)).ctl with starved := true })
  refine ⟨c, he.trans ?_⟩
  rw [State.setCtl_ctl, State.setCtl_ctl, hc]

/-- Out of STANDBY the expiry is a fault and a cause of HOLD in every mode. -/
theorem ctl_reachWatchdog (h : watchdogIsDue s = true) (hm : s.ctl.mode ≠ .standby) :
    (reachWatchdog s).ctl.mode = .hold ∧ (reachWatchdog s).ctl.starved = true ∧
      (reachWatchdog s).ctl.faults = (starvedCtl s).faults ∧ (reachWatchdog s).ctl.first = (starvedCtl s).first := by
  cases hmode : s.ctl.mode with
  | standby => exact absurd hmode hm
  | hold =>
    obtain ⟨_, _, hc⟩ := starvedCtl_eq s
    rw [reachWatchdog_hold h hmode, State.setCtl_ctl]
    exact ⟨by rw [hc]; exact hmode, rfl, rfl, rfl⟩
  | guard | lay =>
    obtain ⟨c, hc⟩ := ctl_reachWatchdog_free h (by rw [hmode]; rfl)
    rw [hc]
    exact ⟨rfl, rfl, rfl, rfl⟩

theorem ring_reachWatchdog (h : watchdogIsDue s = true) : (reachWatchdog s).ring = (starvedRing s).ring := by
  have hraise : ∀ u, (raiseStarved u).ring = u.ring := fun u => ((quiet_eq _ _).1 (quiet_raiseStarved u)).2.2.1
  rw [reachWatchdog_due h, hraise]
  split <;> rfl

/-- Settles O16: in STANDBY by `reachWatchdog_standby`, in HOLD by `reachWatchdog_hold`, in GUARD and LAY by
`ctl_reachWatchdog_free`. -/
theorem watchdogExpiryStarves : Obligations.WatchdogExpiryStarves := by
  intro s w hw
  have hexec : exec .trainWatchdogExpiry s = .next (reachWatchdog s) := rfl
  have hpassed : watchdogIsDue s = decide ((s.clock.us - w).toNat < 2147483648) := passed_some hw
  rw [hexec]
  refine ⟨fun h => ⟨_, rfl, ?_⟩, fun h => ?_⟩
  · have hdue : watchdogIsDue s = true := hpassed.trans (decide_eq_true h)
    have hring := ring_reachWatchdog hdue
    have hheld : s.ctl.mode = .guard ∨ s.ctl.mode = .lay → s.ctl.mode.held = false := by
      rintro (hm | hm) <;> rw [hm] <;> rfl
    refine ⟨hring, fun hm => ?_, fun hm => ?_, fun hm => ?_, fun hm => ?_, fun hf hm => ?_⟩
    · rw [hring, reachWatchdog_standby hdue hm]
      rfl
    · obtain ⟨hmode, hstarved, hfaults, -⟩ := ctl_reachWatchdog hdue hm
      exact ⟨hmode, hstarved, by rw [Ctl.has, hfaults]; exact has_starvedCtl s⟩
    · obtain ⟨_, _, hc⟩ := starvedCtl_eq s
      rw [hring, reachWatchdog_hold hdue hm]
      exact ⟨by rw [State.setCtl_ctl, hc], rfl⟩
    · obtain ⟨c, hc⟩ := ctl_reachWatchdog_free hdue (hheld hm)
      rw [hc]
      exact ⟨rfl, rfl, rfl⟩
    · obtain ⟨-, -, -, hfirst⟩ := ctl_reachWatchdog hdue hm
      rw [hfirst, starvedCtl_first hf]
  · have hnot : watchdogIsDue s = false := hpassed.trans (decide_eq_false (Nat.not_lt.2 h))
    rw [reachWatchdog, hnot, if_neg Bool.false_ne_true]

end Sys2Proof.Machine
end

section
/-! SUPPORT. The outbound END (R141, R160): what a gate that is judged leaves of the roles and of the mode, and the empty slots of
the fine axes as one count and one chain of faults. -/

namespace Sys2Proof.Machine

variable {s t : State} {r : Role}

/-! ### What a read of a course part leaves of the roles (R152, R177) -/

/-- The mode, and the present, readable entry of each role. -/
def slotView (s : State) : Mode × (Role → Option Nat) := (s.ctl.mode, fun r => entryOfRole r s)

/-- A part beyond the axis table that becomes unreadable hides no axis entry. -/
theorem entryOfRole_markUnreadable {n : Nat} (h : 37 ≤ n) (r : Role) (s : State) :
    entryOfRole r (markUnreadable n s) = entryOfRole r s := by
  refine List.find?_congr fun i hi => ?_
  have hne : axisPart i ≠ n := by
    have := List.mem_range.1 hi
    unfold axisPart
    omega
  have hmark : axisUnreadable (markUnreadable n s) i = axisUnreadable s i := by
    show (setInsert n s.mgmt.unreadable).contains (axisPart i) = s.mgmt.unreadable.contains (axisPart i)
    rw [Bool.eq_iff_iff, List.contains_iff_mem, List.contains_iff_mem, mem_setInsert]
    exact or_iff_right hne
  rw [hmark]
  rfl

theorem slotView_markUnreadable {n : Nat} (h : 37 ≤ n) (s : State) : slotView (markUnreadable n s) = slotView s :=
  Prod.ext rfl (funext fun r => entryOfRole_markUnreadable h r s)

theorem slotView_latch (k : FaultKind) (d : Nat) (s : State) : slotView (latch k d s) = slotView s :=
  Prod.ext (mode_latchCtl _ _ _ _) rfl

theorem slotView_writeBack (w : Nat) (f : WordFinding) (s : State) : slotView (writeBack w f s) = slotView s := by
  unfold writeBack
  split <;> rfl

/-- The part number of a course names a course or, beyond the courses, a PLAN slot. -/
theorem placeOf_coursePart (c p : Nat) : (∃ i q, placeOf (coursePart c p) = .course i q) ∨
    ∃ i, placeOf (coursePart c p) = .plan i := by
  have hn : 197 ≤ coursePart c p := by unfold coursePart; omega
  unfold placeOf
  rw [if_neg (by omega), if_neg (by omega), if_neg (by omega), if_neg (by omega), if_neg (by omega)]
  split
  · exact .inl ⟨_, _, rfl⟩
  · exact .inr ⟨_, rfl⟩

theorem slotView_uncorrectable_course (c p : Nat) (s : State) :
    slotView (uncorrectablePart (coursePart c p) s).2 = slotView s := by
  have hn : 37 ≤ coursePart c p := by unfold coursePart; omega
  unfold uncorrectablePart
  rcases placeOf_coursePart c p with ⟨i, q, hplace⟩ | ⟨i, hplace⟩ <;> rw [hplace]
  · exact (slotView_latch _ _ _).trans (slotView_markUnreadable hn s)
  · dsimp only
    split <;> rfl

theorem slotView_readPart_course (c p : Nat) (s : State) : slotView (readPart (coursePart c p) s).2 = slotView s := by
  unfold readPart
  dsimp only
  split
  · exact slotView_uncorrectable_course c p _
  · split
    · exact (slotView_writeBack _ _ _).trans (slotView_writeBack _ _ _)
    · exact ((slotView_uncorrectable_course c p _).trans (slotView_writeBack _ _ _)).trans (slotView_writeBack _ _ _)

theorem slotView_judgeGate (s : State) : slotView (judgeGate s) = slotView s := by
  unfold judgeGate
  split
  · rfl
  · exact slotView_readPart_course _ 0 s

theorem slotView_gateAtEnd (s : State) : slotView (gateAtEnd s) = slotView s := by
  show slotView (if gateJudged s then (if s.lay.gateDue then judgeGate s else settleGate false s) else s) = slotView s
  split
  · split
    · exact slotView_judgeGate s
    · rfl
  · rfl

/-- Where no gate is judged that reads a part in error, the END changes the placement alone before it judges the slots. -/
theorem gateAtEnd_lay_only (h : s.lay.phase ≠ .settle ∨ s.ctl.mode.held = true ∨ s.lay.gateDue = false ∨
    ∀ k, heldTicket s = some k → PartClean s (coursePart k.course 0)) : gateAtEnd s = s.setLay (gateAtEnd s).lay := by
  by_cases hj : gateJudged s = true
  · obtain ⟨hphase, hheld⟩ := (gateJudged_iff s).1 hj
    rw [gateAtEnd, if_pos hj]
    by_cases hd : s.lay.gateDue = true
    · rw [if_pos hd]
      cases hk : heldTicket s with
      | none => rw [judgeGate_none hk]; rfl
      | some k =>
        have hclean : PartClean s (coursePart k.course 0) := by
          rcases h with h | h | h | h
          · exact absurd hphase h
          · exact absurd (hheld.symm.trans h) Bool.false_ne_true
          · exact absurd (h.symm.trans hd) Bool.false_ne_true
          · exact h k hk
        rw [judgeGate_clean hk hclean]
        rfl
    · rw [if_neg hd]
      rfl
  · rw [gateAtEnd, if_neg hj]
    rfl

/-! ### The empty slots (R160, R188) -/

/-- The fine axis is present and its slot stands empty. -/
def slotMissing (s : State) (r : Role) : Bool := (entryOfRole r s).isSome && !slotOf s.axis.slot r

/-- The missing slots of some roles, counted. -/
def missingCount (l : List Role) (s : State) : Nat :=
  (l.filter (slotMissing s)).foldl (fun n _ => bump n) s.axis.missing

/-- The fault of a present entry's empty slot; a role without an entry has none. -/
def slotFault (s : State) (c : Ctl) (r : Role) : Ctl :=
  match entryOfRole r s with
  | some i => c.latch .missingSlot (BitVec.ofNat 32 i) s.clock.ms
  | none => c

/-- The faults of some roles' empty slots, one after the other. -/
def missingCtl (l : List Role) (s : State) : Ctl := (l.filter fun r => !slotOf s.axis.slot r).foldl (slotFault s) s.ctl

/-- The judgement of some fine axes: the count, and the faults in LAY. -/
def slotsJudged (l : List Role) (s : State) : State :=
  (s.setAxis { s.axis with missing := missingCount l s }).setCtl (if s.ctl.mode = .lay then missingCtl l s else s.ctl)

theorem slotFault_mode (s : State) (c : Ctl) (r : Role) : (slotFault s c r).mode = c.mode := by
  unfold slotFault
  split
  · exact mode_latchCtl _ _ _ _
  · rfl

theorem slotsJudged_lay (h : s.ctl.mode = .lay) (l : List Role) : slotsJudged l s =
    (s.setAxis { s.axis with missing := missingCount l s }).setCtl (missingCtl l s) := by
  rw [slotsJudged, if_pos h]

theorem slotsJudged_other (h : s.ctl.mode ≠ .lay) (l : List Role) : slotsJudged l s =
    s.setAxis { s.axis with missing := missingCount l s } := by
  rw [slotsJudged, if_neg h]
  rfl

/-- The judgement of one fine axis. -/
theorem judgeSlot_eq (r : Role) (s : State) : judgeSlot r s = slotsJudged [r] s := by
  have hcount : missingCount [r] s = if slotMissing s r = true then bump s.axis.missing else s.axis.missing := by
    rw [missingCount, List.filter_singleton]
    cases slotMissing s r <;> rfl
  have hctl : missingCtl [r] s = if slotOf s.axis.slot r = true then s.ctl else slotFault s s.ctl r := by
    rw [missingCtl, List.filter_singleton]
    cases slotOf s.axis.slot r <;> rfl
  rw [slotsJudged, hcount, hctl, judgeSlot, slotMissing, slotFault]
  cases entryOfRole r s with
  | none => simp only [Option.isSome_none, Bool.false_and, Bool.false_eq_true, if_false, ite_self]; rfl
  | some i =>
    cases hs : slotOf s.axis.slot r with
    | true => simp only [Option.isSome_some, Bool.not_true, Bool.and_false, Bool.false_eq_true, if_false, if_true, ite_self]; rfl
    | false =>
      cases hm : s.ctl.mode <;> rfl

theorem missingCtl_mode (l : List Role) (s : State) : (missingCtl l s).mode = s.ctl.mode := by
  have hfold : ∀ (k : List Role) (c : Ctl), (k.foldl (slotFault s) c).mode = c.mode := by
    intro k
    induction k with
    | nil => exact fun _ => rfl
    | cons r k ih => exact fun c => (ih _).trans (slotFault_mode s c r)
  exact hfold _ _

/-- The judgement of some axes leaves what the judgement of others reads: entries, slots, time and mode. -/
theorem slotsJudged_append (l m : List Role) (s : State) : slotsJudged m (slotsJudged l s) = slotsJudged (l ++ m) s := by
  have hcount : missingCount m (slotsJudged l s) = missingCount (l ++ m) s := by
    unfold missingCount
    rw [List.filter_append, List.foldl_append]
    rfl
  by_cases hm : s.ctl.mode = .lay
  · have hj := slotsJudged_lay hm l
    have hm' : (slotsJudged l s).ctl.mode = .lay := by rw [hj]; exact (missingCtl_mode l s).trans hm
    have hfaults : missingCtl (l ++ m) s = (m.filter fun r => !slotOf s.axis.slot r).foldl (slotFault s) (missingCtl l s) := by
      rw [missingCtl, missingCtl, List.filter_append, List.foldl_append]
    rw [slotsJudged_lay hm' m, slotsJudged_lay hm (l ++ m), hcount, hfaults, hj]
    rfl
  · have hj := slotsJudged_other hm l
    have hm' : (slotsJudged l s).ctl.mode ≠ .lay := by rw [hj]; exact hm
    rw [slotsJudged_other hm' m, slotsJudged_other hm (l ++ m), hcount, hj]
    rfl

/-- The fine axes in the order of their judgement (log entry 38). -/
def slotRoles : List Role := [.fineX, .fineY, .fineZ, .fineW]

theorem judgeSlots_eq (s : State) : judgeSlots s = clearSlots false (slotsJudged slotRoles s) := by
  rw [judgeSlots, slotRoles]
  simp only [judgeSlot_eq, slotsJudged_append, List.cons_append, List.nil_append]

/-- A latched fault stays latched when another is latched. -/
theorem has_latchCtl {c : Ctl} {k : FaultKind} (h : c.has k = true) (j : FaultKind) (d w : Word) :
    (c.latch j d w).has k = true := by
  unfold Ctl.latch
  split
  · exact h
  · show (c.faults ||| _).getLsbD _ = true
    rw [BitVec.getLsbD_or, show c.faults.getLsbD (k.code - 1) = true from h, Bool.true_or]

theorem has_latchCtl_same (c : Ctl) (k : FaultKind) (d w : Word) : (c.latch k d w).has k = true := by
  have hcode : k.code - 1 < 16 := by cases k <;> decide
  unfold Ctl.latch
  split
  · assumption
  · simp [Ctl.has, hcode]

/-- An empty slot of a present entry brings its fault. -/
theorem has_missingCtl {l : List Role} {i : Nat} (hr : r ∈ l) (he : entryOfRole r s = some i)
    (hs : slotOf s.axis.slot r = false) : (missingCtl l s).has .missingSlot = true := by
  have hkept : ∀ (k : List Role) (c : Ctl), c.has .missingSlot = true → (k.foldl (slotFault s) c).has .missingSlot = true := by
    intro k
    induction k with
    | nil => exact fun c h => h
    | cons q k ih =>
      refine fun c h => ih _ ?_
      unfold slotFault
      split
      · exact has_latchCtl h _ _ _
      · exact h
  have hmem : r ∈ l.filter fun r => !slotOf s.axis.slot r := List.mem_filter.2 ⟨hr, by rw [hs]; rfl⟩
  obtain ⟨k, m, hkm⟩ := List.append_of_mem hmem
  rw [missingCtl, hkm, List.foldl_append, List.foldl_cons]
  refine hkept _ _ ?_
  rw [slotFault, he]
  exact has_latchCtl_same _ _ _ _

theorem exec_outboundEnd (h : Synced .up s) (dst src flags : Byte) (payload : BitVec 192) :
    exec (.outboundEndArrival dst src flags payload) s =
      .next (enqueue .down (goodCell dst src kindEnd flags payload) (outboundEnd (arrived .up s))) :=
  congrArg Host.Outcome.next ((receive_good .up _ s h (isGood_goodCell _ _ _ _ _)).trans (passUp_end rfl _))

/-! ### The END arrival (R141) -/

theorem mode_gateAtEnd (s : State) : (gateAtEnd s).ctl.mode = s.ctl.mode := congrArg Prod.fst (slotView_gateAtEnd s)

theorem entryOfRole_gateAtEnd (r : Role) (s : State) : entryOfRole r (gateAtEnd s) = entryOfRole r s :=
  congrFun (congrArg Prod.snd (slotView_gateAtEnd s)) r

theorem axis_gateAtEnd (s : State) : (gateAtEnd s).axis = s.axis := by
  obtain ⟨-, -, -, haxis, -⟩ := (quiet_eq _ _).1 (quiet_gateAtEnd s)
  exact haxis

theorem axis_outboundEnd (s : State) : (outboundEnd s).axis = { s.axis with
    slot := Quad.all false, missing := missingCount slotRoles s, trainOpen := false } := by
  have hmissing : slotMissing (gateAtEnd s) = slotMissing s := funext fun r => by
    rw [slotMissing, entryOfRole_gateAtEnd, axis_gateAtEnd, slotMissing]
  have hcount : missingCount slotRoles (gateAtEnd s) = missingCount slotRoles s := by
    rw [missingCount, hmissing, axis_gateAtEnd, missingCount]
  rw [outboundEnd, judgeSlots_eq, clearSlots, State.setAxis_axis, slotsJudged, State.setCtl_axis, State.setAxis_axis, hcount,
    axis_gateAtEnd]

theorem ctl_outboundEnd_lay (h : s.ctl.mode = .lay) : (outboundEnd s).ctl = missingCtl slotRoles (gateAtEnd s) := by
  rw [outboundEnd, judgeSlots_eq, slotsJudged_lay ((mode_gateAtEnd s).trans h)]
  rfl

theorem ctl_outboundEnd_other (h : s.ctl.mode ≠ .lay) : (outboundEnd s).ctl = (gateAtEnd s).ctl := by
  rw [outboundEnd, judgeSlots_eq, slotsJudged_other (by rw [mode_gateAtEnd]; exact h)]
  rfl

/-- The END writes the slots, the placement and the faults, besides what the gate writes. -/
theorem outboundEnd_frame (h : gateAtEnd s = s.setLay (gateAtEnd s).lay) : outboundEnd s =
    ((s.setAxis (outboundEnd s).axis).setLay (outboundEnd s).lay).setCtl (outboundEnd s).ctl := by
  have hjudged : ∀ u : State, judgeSlots u = (u.setAxis (judgeSlots u).axis).setCtl (judgeSlots u).ctl := fun u => by
    rw [judgeSlots_eq]
    rfl
  calc outboundEnd s = ((gateAtEnd s).setAxis (outboundEnd s).axis).setCtl (outboundEnd s).ctl := hjudged _
    _ = ((s.setLay (gateAtEnd s).lay).setAxis (outboundEnd s).axis).setCtl (outboundEnd s).ctl := by rw [← h]
    _ = _ := by rw [lay_outboundEnd]; rfl

/-- A cell that joins a queue adds the ring to what an operation has changed. -/
theorem joined_frame (h : t = ((s.setAxis t.axis).setLay t.lay).setCtl t.ctl) (p : Port) (c : Cell) : joined p c t =
    (((s.setRing (joined p c t).ring).setAxis (joined p c t).axis).setLay (joined p c t).lay).setCtl (joined p c t).ctl :=
  congrArg (fun u : State => u.setRing (joined p c t).ring) h

/-- Settles O13: the gate leaves the roles, the slots and the mode, and the slots are then judged axis by axis. -/
theorem outboundEndJudgesTheSlots : Obligations.OutboundEndJudgesTheSlots := by
  intro s dst src flags payload hsync hplace
  have hroom : HasPlace .down (outboundEnd (arrived .up s)) := by
    rw [HasPlace, ring_outboundEnd]
    exact (hasPlace_arrived _ _ _).2 hplace
  rw [exec_outboundEnd hsync, enqueue_joined hroom]
  refine ⟨_, rfl, ?_, axis_outboundEnd (arrived .up s), fun h => ?_, fun r hr i hi hslot hm => ?_, fun h => ?_⟩
  · rw [joined, State.setRing_ring, ring_outboundEnd]
    rfl
  · have hunjudged : gateJudged (arrived .up s) = false :=
      Bool.eq_false_iff.2 fun hj => by
        obtain ⟨hphase, hheld⟩ := (gateJudged_iff _).1 hj
        rcases h with h | h
        · exact h hphase
        · exact Bool.false_ne_true (hheld.symm.trans h)
    have hlay := (lay_outboundEnd (arrived .up s)).trans (lay_gateAtEnd_unjudged hunjudged)
    rw [joined, State.setRing_lay, hlay]
    rfl
  · have hctl := ctl_outboundEnd_lay (s := arrived .up s) hm
    rw [joined, State.setRing_ctl, hctl]
    exact has_missingCtl (l := slotRoles) hr ((entryOfRole_gateAtEnd r _).trans hi) (by rw [axis_gateAtEnd]; exact hslot)
  · have hlay : gateAtEnd (arrived .up s) = (arrived .up s).setLay (gateAtEnd (arrived .up s)).lay := gateAtEnd_lay_only h
    refine ⟨fun hm => ?_, fun hm => ?_, ?_⟩
    · rw [joined, State.setRing_ctl, ctl_outboundEnd_lay (s := arrived .up s) hm, hlay]
      rfl
    · rw [joined, State.setRing_ctl, ctl_outboundEnd_other (s := arrived .up s) hm, hlay]
      rfl
    · exact joined_frame (outboundEnd_frame hlay) .down _

end Sys2Proof.Machine
end

section
/-! SUPPORT. Requests that come to nothing (R139, R163 to R166): no room, no origin, a level above 2, an operation or a table that
the part does not know. -/

namespace Sys2Proof.Machine

variable {s : State} {who : Sender} {level : Nat} {op selector : Byte} {index mask : Half} {data : Part}

/-! ### Operations and tables that the part does not know (R165) -/

theorem knownOp_false (h : op = 0 ∨ 15 ≤ op.toNat) : knownOp op = false := by
  rcases h with rfl | h
  · rfl
  · exact Bool.eq_false_iff.2 fun hk => by
      simp only [knownOp, Bool.and_eq_true, decide_eq_true_eq] at hk
      omega

theorem unknown_ne (h : op = 0 ∨ 15 ≤ op.toNat) {o : Byte} (ho : knownOp o = true) : op ≠ o := fun he => by
  rw [← he, knownOp_false h] at ho
  exact Bool.false_ne_true ho

theorem plainOp_unknown (h : op = 0 ∨ 15 ≤ op.toNat) : plainOp op = true := by
  simp only [plainOp, Bool.and_eq_true, bne_iff_ne]
  exact ⟨⟨⟨⟨⟨unknown_ne h rfl, unknown_ne h rfl⟩, unknown_ne h rfl⟩, unknown_ne h rfl⟩, unknown_ne h rfl⟩, unknown_ne h rfl⟩

theorem operate_unknown (h : Heard s who level) (hop : op = 0 ∨ 15 ≤ op.toNat) :
    operate who op selector index mask data s = .next (replied who op .unknownOp 0 0 (arrived .up s)) := by
  obtain ⟨l, -, he⟩ := operate_heard s who level op selector index mask data h
  have hl : ¬ 2 < (requestFor who op selector index mask data).level.toNat := Nat.not_lt.2 h.requested
  have hk : knownOp (requestFor who op selector index mask data).op = false := knownOp_false hop
  rw [he, judgeRequest, if_neg hl, hk, ← respond_plain (plainOp_unknown hop) selector index mask data]
  rfl

theorem tableOk_write {table : BitVec 4} (h : table = 0 ∨ 7 ≤ table.toNat) : tableOk opWrite table.toNat = false := by
  revert table
  decide

/-- A WRITE to a table without a WRITE rule shows zeros, and reads nothing for it. -/
theorem writeShown_other {r : Request} (h : r.table = 0 ∨ 7 ≤ r.table.toNat) (s : State) : writeShown r s = ((0, 0), s) := by
  have hne : ∀ n : Nat, 1 ≤ n → n ≤ 6 → r.table.toNat ≠ n := fun n h1 h6 he => by
    rcases h with h | h
    · rw [h] at he; exact absurd he (by simp; omega)
    · omega
  have hpart : partNumber r.table.toNat r.index.toNat r.part.toNat = none := by
    rw [partNumber, if_neg (hne 1 (by decide) (by decide)), if_neg (hne 2 (by decide) (by decide)),
      if_neg (hne 3 (by decide) (by decide)), if_neg (hne 4 (by decide) (by decide)),
      if_neg (hne 5 (by decide) (by decide)), if_neg (hne 6 (by decide) (by decide))]
  have h2 : ¬ (r.table = 2 && 5 ≤ r.part.toNat) = true := fun he => by
    simp only [Bool.and_eq_true, decide_eq_true_eq] at he
    exact hne 2 (by decide) (by decide) (by rw [he.1]; rfl)
  have h3 : ¬ (r.table = 3 && r.part = 1 && r.index.toNat < 24) = true := fun he => by
    simp only [Bool.and_eq_true, decide_eq_true_eq] at he
    exact hne 3 (by decide) (by decide) (by rw [he.1.1]; rfl)
  rw [writeShown, hpart]
  dsimp only
  rw [if_neg h2, if_neg h3]

theorem write_other_table {table : BitVec 4} {part : BitVec 3} (h : Heard s who level) (ht : table = 0 ∨ 7 ≤ table.toNat) :
    exec (.write who table part index mask data) s = .next (replied who 2 .badTable 0 0 (arrived .up s)) := by
  obtain ⟨l, -, he⟩ := operate_heard s who level opWrite (selectorOf table part) index mask data h
  have hexec : exec (.write who table part index mask data) s =
      operate who opWrite (selectorOf table part) index mask data s := rfl
  have hl : ¬ 2 < (requestFor who opWrite (selectorOf table part) index mask data).level.toNat := Nat.not_lt.2 h.requested
  have htable : (requestFor who opWrite (selectorOf table part) index mask data).table = table := selector_table table part
  have hok : tableOk (requestFor who opWrite (selectorOf table part) index mask data).op
      (requestFor who opWrite (selectorOf table part) index mask data).table.toNat = false := by
    rw [htable]
    exact tableOk_write ht
  have hknown : knownOp (requestFor who opWrite (selectorOf table part) index mask data).op = true := rfl
  have hshown : respond (requestFor who opWrite (selectorOf table part) index mask data) .badTable (arrived .up s) =
      replied who 2 .badTable 0 0 (arrived .up s) := by
    rw [respond_write rfl, writeShown_other (by rw [htable]; exact ht)]
    rfl
  rw [hexec, he, judgeRequest, if_neg hl, hknown, hok, ← hshown]
  rfl

/-! ### Requests that are dropped or refused before any operation (R163, R164, R166) -/

/-- A management cell addressed to the part is consumed and judged (R139). -/
theorem operate_consumed (hsync : Synced .up s) (hown : s.ring.ownAddr ≠ 0) : operate who op selector index mask data s =
    .next (manage (requestFor who op selector index mask data) (arrived .up s)) := by
  have ht : ¬ kindMgt = kindTrain := by decide
  have hs : ¬ kindMgt = kindSet := by decide
  have hcons : consumed (mgtCell s.ring.ownAddr who op selector index mask data) (arrived .up s) = true := by
    simpa [consumed, mgtCell] using hown
  have hkind : (mgtCell s.ring.ownAddr who op selector index mask data).kind = kindMgt := rfl
  have hgood : isGood (mgtCell s.ring.ownAddr who op selector index mask data) = true := isGood_goodCell _ _ _ _ _
  rw [operate, receive_good _ _ _ hsync hgood, passGood, passUp, hkind, if_neg ht, if_neg hs, if_pos rfl,
    if_pos hcons, requestOf_mgtCell]

theorem manage_full {r : Request} (h : 16 < s.mgmt.replies.length + replyCount r.op) :
    manage r s = s.setMgmt { s.mgmt with dropped := min 65535 (s.mgmt.dropped + 1) } := by
  have hroom : hasRoom r s = false := decide_eq_false (Nat.not_le.2 h)
  rw [manage, hroom, if_neg Bool.false_ne_true]
  rfl

/-- A request without an origin, and one for a level above 2, are refused before any operation. -/
theorem manage_refused {r : Request} {code : ReplyCode} (hroom : s.mgmt.replies.length + replyCount r.op ≤ 16)
    (hclean : TableClean s) (h : originOf s r.src = none ∧ code = .refusedLevel ∨
      (originOf s r.src).isSome = true ∧ 2 < r.level.toNat ∧ code = .badValue) : manage r s = respond r code s := by
  rw [manage, hasRoom, decide_eq_true hroom, if_pos rfl, originLevel_clean _ _ fun i _ => hclean.partClean _]
  rcases h with ⟨ho, rfl⟩ | ⟨ho, hl, rfl⟩
  · rw [ho]
  · obtain ⟨l, hl'⟩ := Option.isSome_iff_exists.1 ho
    rw [hl']
    exact if_pos hl

/-- What a WRITE's reply shows is read without effect from clean parts. -/
theorem writeShown_clean (hclean : TableClean s) (r : Request) : (writeShown r s).2 = s := by
  have hread : ∀ n, (writtenPart n s).2 = s := fun n => by
    unfold writtenPart
    rw [readPart_clean s n (hclean.partClean n)]
    split <;> rfl
  unfold writeShown
  split
  · exact hread _
  · split
    · rfl
    · split <;> rfl

/-- The replies of a request with one code: as many as its operation makes, to its sender, and nothing else. -/
theorem respond_clean (hclean : TableClean s) (r : Request) (code : ReplyCode) :
    ∃ l : List Reply, l.length = replyCount r.op ∧
      (∀ p ∈ l, p.dst = r.src ∧ p.tag = r.tag ∧ p.op = r.op ∧ p.code = code) ∧
      respond r code s = s.setMgmt { s.mgmt with replies := s.mgmt.replies ++ l } := by
  have hone : ∀ status shown, replyCount r.op = 1 → ∃ l : List Reply, l.length = replyCount r.op ∧
      (∀ p ∈ l, p.dst = r.src ∧ p.tag = r.tag ∧ p.op = r.op ∧ p.code = code) ∧
      answer r code status shown s = s.setMgmt { s.mgmt with replies := s.mgmt.replies ++ l } := fun status shown h1 =>
    ⟨[replyOf r code status false shown], h1.symm, fun p hp => by
      obtain rfl := List.mem_singleton.1 hp
      exact ⟨rfl, rfl, rfl, rfl⟩, rfl⟩
  by_cases hprobe : r.op = opProbe
  · refine ⟨[replyOf r code 0 false 0, replyOf r code 0 true 0], ?_, ?_, ?_⟩
    · rw [replyCount, if_pos hprobe]; rfl
    · intro p hp
      rcases List.mem_pair.1 hp with rfl | rfl <;> exact ⟨rfl, rfl, rfl, rfl⟩
    · rw [respond, if_pos hprobe, answerTwice, pushReply, pushReply, State.setMgmt_mgmt, State.setMgmt_twice, List.append_assoc]
      rfl
  by_cases hreset : r.op = opReset
  · refine ⟨[], ?_, fun p hp => absurd hp List.not_mem_nil, ?_⟩
    · rw [replyCount, if_neg hprobe, if_pos hreset]; rfl
    · rw [respond, if_neg hprobe, if_pos hreset, List.append_nil]; rfl
  have hcount : replyCount r.op = 1 := by rw [replyCount, if_neg hprobe, if_neg hreset]
  by_cases hwrite : r.op = opWrite
  · rw [respond_write hwrite, writeShown_clean hclean]
    exact hone _ _ hcount
  · rw [respond, if_neg hprobe, if_neg hreset, if_neg hwrite]
    split
    · exact hone _ _ hcount
    · split
      · exact hone _ _ hcount
      · exact hone _ _ hcount

/-- Every management command of the table is the arrival of an MGT cell of its sender, code and number of replies. -/
theorem exec_asks {c : Instr} {k : Nat} (h : asks c = some (who, op, k)) : replyCount op = k ∧
    ∃ selector index mask data, ∀ s, exec c s = operate who op selector index mask data s := by
  cases c
  case unknownOp who' op' selector index mask data =>
    have hop : op' = 0 ∨ 15 ≤ op'.toNat := by
      by_contra hno
      rw [asks, if_neg hno] at h
      cases h
    have hsome : asks (.unknownOp who' op' selector index mask data) = some (who', op', 1) := if_pos hop
    cases hsome.symm.trans h
    refine ⟨?_, selector, index, mask, data, fun _ => rfl⟩
    rw [replyCount, if_neg (unknown_ne hop rfl), if_neg (unknown_ne hop rfl)]
  all_goals cases h
  all_goals exact ⟨rfl, _, _, _, _, fun _ => rfl⟩

/-- Settles O40: the steps of R164 in their order, up to the first that refuses. -/
theorem unknownOperationsAreAnswered : Obligations.UnknownOperationsAreAnswered := by
  refine ⟨fun s who level op selector table part index mask data h => ⟨fun hop => ?_, write_other_table h⟩,
    fun s c who op k hsync hown hc => ?_⟩
  · exact operate_unknown h hop
  · obtain ⟨rfl, selector, index, mask, data, hexec⟩ := exec_asks hc
    rw [hexec, operate_consumed hsync hown]
    refine ⟨fun hfull => ?_, fun code hroom hclean hcode => ?_⟩
    · rw [manage_full (r := requestFor who op selector index mask data) (s := arrived .up s) hfull]
      rfl
    · have hclean' : TableClean (arrived .up s) := ⟨hclean.flips, hclean.unreadable, hclean.poisoned⟩
      obtain ⟨l, hlen, hl, hrespond⟩ := respond_clean hclean' (requestFor who op selector index mask data) code
      refine ⟨l, hlen, hl, ?_⟩
      have horigin : originOf (arrived .up s) who.src = originOf s who.src := rfl
      rw [← horigin] at hcode
      rw [manage_refused (r := requestFor who op selector index mask data) (s := arrived .up s) hroom hclean' hcode, hrespond]
      rfl

end Sys2Proof.Machine
end

section
/-! SUPPORT. What the work of a TRAIN arrival that follows the scrub leaves alone: the scrub's pass (R178) and the values of the
terms (R129), as no part of the TERM table is read any more. -/

namespace Sys2Proof.Machine

variable {s t : State}

/-! ### The scrub's pass (R178, log entry 36) -/

/-- Whether a pass is complete, and the passes counted. -/
def scrubPass (s : State) : Bool × Nat := (s.mgmt.passDue, s.mgmt.passes)

theorem scrubPass_report (s : State) : scrubPass (report s) = scrubPass s := by
  rw [scrubPass, (memory_report s).2, scrubPass]

theorem scrubPass_latch (k : FaultKind) (d : Nat) (s : State) : scrubPass (latch k d s) = scrubPass s := rfl
theorem scrubPass_setGuard (s : State) (v : Guard) : scrubPass (s.setGuard v) = scrubPass s := rfl
theorem scrubPass_setHeld (i : Nat) (x : TermHeld) (s : State) : scrubPass (setHeld i x s) = scrubPass s := rfl
theorem scrubPass_markUnreadable (n : Nat) (s : State) : scrubPass (markUnreadable n s) = scrubPass s := rfl

theorem scrubPass_storePart (n : Nat) (d : Part) (s : State) : scrubPass (storePart n d s) = scrubPass s := rfl

theorem scrubPass_uncorrectablePart (n : Nat) (s : State) : scrubPass (uncorrectablePart n s).2 = scrubPass s := by
  unfold uncorrectablePart
  split
  case h_1 => simp only [scrubPass_report, scrubPass_latch, scrubPass_setGuard]
  case h_2 => simp only [scrubPass_latch, scrubPass_storePart]
  case h_3 =>
    split
    · rfl
    · exact scrubPass_storePart _ _ _
  case h_6 => simp only [scrubPass_report, scrubPass_setHeld, scrubPass_latch, scrubPass_markUnreadable]
  all_goals simp only [scrubPass_latch, scrubPass_markUnreadable]

theorem scrubPass_writeBack (w : Nat) (f : WordFinding) (s : State) : scrubPass (writeBack w f s) = scrubPass s := by
  unfold writeBack
  split <;> rfl

theorem scrubPass_readPart (n : Nat) (s : State) : scrubPass (readPart n s).2 = scrubPass s := by
  unfold readPart
  dsimp only
  split
  · exact scrubPass_uncorrectablePart _ _
  · split
    · exact (scrubPass_writeBack _ _ _).trans (scrubPass_writeBack _ _ _)
    · exact ((scrubPass_uncorrectablePart _ _).trans (scrubPass_writeBack _ _ _)).trans (scrubPass_writeBack _ _ _)

theorem scrubPass_noteTerm (i : Nat) (s : State) : scrubPass (noteTerm i s) = scrubPass s := by
  unfold noteTerm
  dsimp only
  rw [scrubPass_report]
  split <;> rfl

theorem scrubPass_evalTerm (i : Nat) (s : State) : scrubPass (evalTerm i s) = scrubPass s := by
  have hread := scrubPass_readPart (termPart i) s
  unfold evalTerm
  split <;> rename_i heq <;> rw [heq] at hread
  · exact (scrubPass_noteTerm _ _).trans hread
  · exact (scrubPass_noteTerm _ _).trans hread

theorem scrubPass_evalTerms (l : List Nat) (s : State) : scrubPass (evalTerms l s) = scrubPass s := by
  unfold evalTerms
  induction l generalizing s with
  | nil => rfl
  | cons i l ih => rw [List.foldl_cons, ih, scrubPass_evalTerm]

theorem scrubPass_scrubStep (s : State) : scrubPass (scrubStep s) =
    (decide (partCount ≤ s.mgmt.scrub + 1), if s.mgmt.passDue then bump s.mgmt.passes else s.mgmt.passes) := by
  have hcounted : ∀ v : State, scrubPass v = scrubPass s →
      (if v.mgmt.passDue then bump v.mgmt.passes else v.mgmt.passes) =
        if s.mgmt.passDue then bump s.mgmt.passes else s.mgmt.passes := fun v hv => by
    obtain ⟨hdue, hpasses⟩ := Prod.ext_iff.1 hv
    rw [show v.mgmt.passDue = s.mgmt.passDue from hdue, show v.mgmt.passes = s.mgmt.passes from hpasses]
  have hread := scrubPass_readPart s.mgmt.scrub s
  unfold scrubStep
  dsimp only
  refine Prod.ext rfl (hcounted _ ?_)
  split
  · exact (scrubPass_noteTerm _ _).trans hread
  · exact hread

/-! ### The pass and the terms together -/

/-- The scrub's pass, and the values that the terms hold. -/
def tally (s : State) : (Bool × Nat) × Terms := (scrubPass s, s.terms)

theorem tally_eq (hpass : scrubPass t = scrubPass s) (hterms : t.terms = s.terms) : tally t = tally s := Prod.ext hpass hterms

theorem tally_report (s : State) : tally (report s) = tally s := tally_eq (scrubPass_report s) (terms_report s)

theorem tally_setPlan (s : State) (v : Plan) : tally (s.setPlan v) = tally s := rfl
theorem tally_setTrack (s : State) (v : Track) : tally (s.setTrack v) = tally s := rfl
theorem tally_setLay (s : State) (v : Lay) : tally (s.setLay v) = tally s := rfl
theorem tally_setStab (s : State) (v : Stab) : tally (s.setStab v) = tally s := rfl
theorem tally_setLine (s : State) (v : Line) : tally (s.setLine v) = tally s := rfl
theorem tally_setGuard (s : State) (v : Guard) : tally (s.setGuard v) = tally s := rfl
theorem tally_latch (k : FaultKind) (d : Nat) (s : State) : tally (latch k d s) = tally s := rfl

theorem tally_launch (c : Cmd) (k : Nat) (p : Word) (w : Nat) (s : State) : tally (launch c k p w s) = tally s := rfl

/-- A part that is not of the TERM table. -/
theorem placeOf_ne_term {n : Nat} (h : n < 37 ∨ 69 ≤ n) (i : Nat) : placeOf n ≠ .term i := by
  unfold placeOf
  split_ifs <;> simp only [ne_eq, reduceCtorEq, not_false_eq_true]
  omega

theorem terms_latch (k : FaultKind) (d : Nat) (s : State) : (latch k d s).terms = s.terms := rfl
theorem terms_markUnreadable (n : Nat) (s : State) : (markUnreadable n s).terms = s.terms := rfl
theorem terms_storePart (n : Nat) (d : Part) (s : State) : (storePart n d s).terms = s.terms := rfl

theorem terms_uncorrectablePart {n : Nat} (h : n < 37 ∨ 69 ≤ n) (s : State) : (uncorrectablePart n s).2.terms = s.terms := by
  unfold uncorrectablePart
  split
  case h_1 => simp only [terms_report, terms_latch, State.setGuard_terms]
  case h_2 => simp only [terms_latch, terms_storePart]
  case h_3 =>
    split
    · rfl
    · exact terms_storePart _ _ _
  case h_6 i hplace => exact absurd hplace (placeOf_ne_term h i)
  all_goals simp only [terms_latch, terms_markUnreadable]

theorem tally_readPart {n : Nat} (h : n < 37 ∨ 69 ≤ n) (s : State) : tally (readPart n s).2 = tally s := by
  have hback : ∀ w f (v : State), (writeBack w f v).terms = v.terms := fun w f v => by
    unfold writeBack
    split <;> rfl
  have hbad := terms_uncorrectablePart h
  refine tally_eq (scrubPass_readPart n s) ?_
  unfold readPart
  dsimp only
  split
  · exact hbad _
  · split
    · exact (hback _ _ _).trans (hback _ _ _)
    · exact ((hbad _).trans (hback _ _ _)).trans (hback _ _ _)

theorem tally_readPart_of {n : Nat} {p : Option Part} (h : n < 37 ∨ 69 ≤ n) (hr : readPart n s = (p, t)) : tally t = tally s := by
  have hread := tally_readPart h s
  rwa [hr] at hread

/-! ### Axis parts (R81, R30) -/

theorem entryOfRole_lt {r : Role} {i : Nat} (h : entryOfRole r s = some i) : i < 24 :=
  List.mem_range.1 (List.mem_of_find?_eq_some h)

theorem tally_readAxis {i : Nat} (h : i < 24) (s : State) : tally (readAxis i s).2 = tally s := by
  have hread := tally_readPart (n := axisPart i) (.inl (by unfold axisPart; omega)) s
  unfold readAxis
  split <;> rename_i heq <;> rwa [heq] at hread

theorem tally_readFine (r : Role) (s : State) : tally (readFine r s).2 = tally s := by
  unfold readFine
  split
  · rfl
  · rename_i i hi
    have hread := tally_readAxis (entryOfRole_lt hi) s
    split <;> rename_i heq <;> rwa [heq] at hread

theorem tally_readFines (s : State) : tally (readFines s).2 = tally s := by
  simp only [readFines, tally_readFine]

theorem tally_stabCompute (fr : Bool) (s : State) : tally (stabCompute fr s) = tally s := by
  have hread := tally_readFines s
  simp only [stabCompute]
  split
  · exact (tally_setStab _ _).trans hread
  · exact (tally_setLine _ _).trans ((tally_setStab _ _).trans hread)

theorem tally_stationEntry_of {st : Station} {p : Option Nat} (h : stationEntry st s = (p, t)) : tally t = tally s := by
  have hentry : tally (stationEntry st s).2 = tally s := by
    unfold stationEntry
    split
    · rfl
    · rename_i i hi
      have hread := tally_readAxis (entryOfRole_lt hi) s
      split <;> rename_i heq <;> rwa [heq] at hread
  rwa [h] at hentry

/-! ### Zone, course and plan parts (R17, R111) -/

theorem tally_readZone (i : Nat) (s : State) : tally (readZone i s).2 = tally s := by
  have hpart : ∀ p v, tally (readPart (zonePart i p) v).2 = tally v := fun p v =>
    tally_readPart (.inr (by unfold zonePart; omega)) v
  simp only [readZone]
  split <;> exact (hpart 1 _).trans (hpart 0 _)

theorem tally_readZonesOf (l : List Nat) (s : State) : tally (readZonesOf l s).2 = tally s := by
  induction l generalizing s with
  | nil => rfl
  | cons i l ih => exact (ih _).trans (tally_readZone i s)

theorem tally_readZones (s : State) : tally (readZones s).2 = tally s := tally_readZonesOf _ s

theorem tally_noteOutcome (o : Outcome) (s : State) : tally (noteOutcome o s) = tally s := by
  unfold noteOutcome
  split
  · split
    · rfl
    · split <;> rfl
  · split <;> rfl

theorem tally_evaluateZones (s : State) : tally (evaluateZones s) = tally s := by
  unfold evaluateZones
  split
  · simp only [zoneEvaluate]
    rw [tally_report, tally_noteOutcome, tally_setGuard, tally_readZones]
  · rfl

theorem tally_pointTest_of {g : Target} {b : Bool} (h : pointTest g s = (b, t)) : tally t = tally s := by
  have hzones : tally (pointTest g s).2 = tally s := by
    simp only [pointTest]
    exact tally_readZones s
  rwa [h] at hzones

theorem tally_readCourse_of {c : Nat} {p : Option CourseRec} (h : readCourse c s = (p, t)) : tally t = tally s := by
  have hpart : ∀ p v, tally (readPart (coursePart c p) v).2 = tally v := fun p v =>
    tally_readPart (.inr (by unfold coursePart; omega)) v
  have hread : tally (readCourse c s).2 = tally s := by
    simp only [readCourse]
    split <;> exact (hpart 1 _).trans (hpart 0 _)
  rwa [h] at hread

theorem tally_admitInCourse (e : QueueEntry) (r : PlanRec) (c : CourseRec) (s : State) :
    tally (admitInCourse e r c s).2 = tally s := by
  unfold admitInCourse
  split
  · rfl
  · split <;> rename_i heq <;> have hzones := tally_pointTest_of heq
    · exact (tally_latch _ _ _).trans hzones
    · exact (tally_setPlan _ _).trans hzones

theorem tally_admitRecord (e : QueueEntry) (s : State) : tally (admitRecord e s).2 = tally s := by
  have hplan : planPart e.slot < 37 ∨ 69 ≤ planPart e.slot := .inr (by unfold planPart; omega)
  unfold admitRecord
  split <;> rename_i hread <;> have hbody := tally_readPart_of hplan hread
  · exact hbody
  · split <;> rename_i hcourse <;> have hc := (tally_readCourse_of hcourse).trans hbody
    · exact hc
    · split
      · exact (tally_admitInCourse _ _ _ _).trans hc
      · exact hc

theorem tally_admitHead_of {a : Admission} (h : admitHead s = (a, t)) : tally t = tally s := by
  have hadmit : tally (admitHead s).2 = tally s := by
    unfold admitHead
    split
    · rfl
    · split
      · rfl
      · exact tally_admitRecord _ _
  rwa [h] at hadmit

/-! ### The placement (R50 to R60) -/

theorem tally_approachIfHeld (s : State) : tally (approachIfHeld s) = tally s := by
  unfold approachIfHeld
  split <;> rfl

theorem tally_offsetStep (s : State) : tally (offsetStep s) = tally s := by
  unfold offsetStep
  dsimp only
  split
  · split <;> rfl
  · rfl

theorem tally_layVerdict (s : State) : tally (layVerdict s) = tally s := by
  unfold layVerdict
  split
  · split
    case h_1 | h_2 | h_3 => split <;> rfl
    all_goals rfl
  · rfl

theorem tally_requestOpen (s : State) : tally (requestOpen s) = tally s := by
  unfold requestOpen
  split
  · split
    · split <;> rename_i heq <;> have hentry := tally_stationEntry_of heq
      · exact hentry
      · exact (tally_launch _ _ _ _ _).trans ((tally_setLay _ _).trans ((tally_setTrack _ _).trans hentry))
    · rfl
  · rfl

/-! ### The brick track (R31 to R38) -/

theorem tally_spoilAtFlipper (s : State) : tally (spoilAtFlipper s) = tally s := by
  unfold spoilAtFlipper
  split
  · rfl
  · split
    · split <;> rfl
    · rfl

theorem tally_issueFor (c : Cmd) (k : Ticket) (p : Word) (f : Ticket → Ticket) (s : State) :
    tally (issueFor c k p f s) = tally s := by
  unfold issueFor
  split
  · split <;> rename_i heq <;> have hentry := tally_stationEntry_of heq
    · exact hentry
    · exact (tally_launch _ _ _ _ _).trans ((tally_setTrack _ _).trans hentry)
  · rfl

theorem tally_issueFeed (s : State) : tally (issueFeed s) = tally s := by
  unfold issueFeed
  split
  · split <;> rename_i heq <;> have hentry := tally_stationEntry_of heq
    · exact hentry
    · split <;> rename_i hadmit <;> have hbound := (tally_admitHead_of hadmit).trans hentry
      · exact hbound
      · exact (tally_launch _ _ _ _ _).trans ((tally_setTrack _ _).trans hbound)
  · rfl

/-- A station's turn issues one command at most. -/
def IssuesOne (s t : State) : Prop := t = s ∨ ∃ c k p f, t = issueFor c k p f s

theorem IssuesOne.tally (h : IssuesOne s t) : tally t = tally s := by
  rcases h with rfl | ⟨c, k, p, f, rfl⟩
  · rfl
  · exact tally_issueFor c k p f s

theorem issuesOne_saw (s : State) : IssuesOne s (issueSaw s) := by
  unfold issueSaw
  split
  · exact .inr ⟨_, _, _, _, rfl⟩
  · split
    · exact .inr ⟨_, _, _, _, rfl⟩
    · exact .inl rfl

theorem issuesOne_glue (s : State) : IssuesOne s (issueGlue s) := by
  unfold issueGlue
  split
  · split
    · exact .inr ⟨_, _, _, _, rfl⟩
    · exact .inl rfl
  · exact .inl rfl

theorem issuesOne_shuttle (s : State) : IssuesOne s (issueShuttle s) := by
  unfold issueShuttle
  split
  · exact .inr ⟨_, _, _, _, rfl⟩
  · split
    · split
      · exact .inr ⟨_, _, _, _, rfl⟩
      · exact .inl rfl
    · exact .inl rfl

theorem issuesOne_flipper (s : State) : IssuesOne s (issueFlipper s) := by
  unfold issueFlipper
  split
  · exact .inl rfl
  · split
    · exact .inr ⟨_, _, _, _, rfl⟩
    · split
      · exact .inr ⟨_, _, _, _, rfl⟩
      · exact .inl rfl

theorem tally_trainIssue (s : State) : tally (trainIssue s) = tally s := by
  rw [trainIssue, issueCommands, (issuesOne_flipper _).tally, (issuesOne_shuttle _).tally, (issuesOne_glue _).tally,
    (issuesOne_saw _).tally, tally_issueFeed, tally_spoilAtFlipper, tally_requestOpen, tally_layVerdict]

/-- After the scrub, a TRAIN arrival counts no pass and evaluates no term. -/
theorem tally_afterScrub (fr : Bool) (s : State) :
    tally (trainIssue (evaluateZones (stabCompute fr (offsetStep (approachIfHeld s))))) = tally s := by
  rw [tally_trainIssue, tally_evaluateZones, tally_stabCompute, tally_offsetStep, tally_approachIfHeld]

end Sys2Proof.Machine
end

section
/-! SUPPORT. The outbound TRAIN as a whole (R110, R129, R140, R144, R146, R160, R178): the ring ports' own work, the terms at the
arrival's cycle number with no part in error, and the scrub's one step. -/

namespace Sys2Proof.Machine

variable {s t : State} {i : Nat}

/-! ### The terms with no part in error (R127, R128, R129) -/

/-- The value of a term depends on table memory, the axis table side, the last cycle number and the tracker word alone. -/
theorem evaluated_congr (h : ∀ n, PartClean s n) (hr : ReadsAs s t) (haxis : t.axis = s.axis)
    (hcycle : t.ring.lastCycle = s.ring.lastCycle) (htracker : t.terms.tracker = s.terms.tracker) (i : Nat) :
    evaluated t i = evaluated s i := by
  have hpeek : peekPart t (termPart i) = peekPart s (termPart i) := by rw [peekPart, hr.mem, peekPart]
  have hread : ∀ k, axisUnreadable t k = axisUnreadable s k := fun k => by
    rw [axisUnreadable_clean h, axisUnreadable_clean fun n => hr.partClean (h n)]
  rw [evaluated, hpeek, termValue_congr (sourceWord_congr htracker hcycle haxis fun _ => hread _), evaluated]

/-- Over clean parts every term of the list gets its value, and no evaluation disturbs another's value. -/
theorem termHeld_evalTerms {l : List Nat} (h : ∀ n, PartClean s n) (hi : i < 32)
    (hl : i ∈ l ∨ termHeld s i = evaluated s i) : termHeld (evalTerms l s) i = evaluated s i := by
  unfold evalTerms
  induction l generalizing s with
  | nil => exact hl.resolve_left List.not_mem_nil
  | cons j l ih =>
    have hr := readsAs_evalTerm (h (termPart j))
    obtain ⟨-, -, hring, haxis, -⟩ := (quiet_eq _ _).1 (quiet_evalTerm j s)
    have htracker : (evalTerm j s).terms.tracker = s.terms.tracker := by
      rw [terms_evalTerm (h (termPart j))]
      rfl
    have hvalue : evaluated (evalTerm j s) i = evaluated s i :=
      evaluated_congr h hr haxis (congrArg Ring.lastCycle hring) htracker i
    have hheld : i ∈ l ∨ termHeld (evalTerm j s) i = evaluated (evalTerm j s) i := by
      by_cases hj : i = j
      · subst hj
        exact .inr ((termHeld_evalTerm_same (h (termPart i)) hi).trans hvalue.symm)
      · rcases hl with hl | hl
        · exact .inl ((List.mem_cons.1 hl).resolve_left hj)
        · rw [hvalue, termHeld_evalTerm_ne (h (termPart j)) hj]
          exact .inr hl
    exact (ih (fun n => hr.partClean (h n)) hheld).trans hvalue

/-! ### The gate at the arrival (R50) -/

/-- At a TRAIN arrival the gate changes the placement alone. -/
theorem gateAtTrain_lay_only (s : State) : ∃ l, gateAtTrain s = s.setLay l := by
  show ∃ l, (if s.lay.gateDue && gateJudged s then settleGate false s else s).setLay _ = s.setLay l
  split <;> exact ⟨_, rfl⟩

/-! ### The arrival -/

theorem tally_outboundTrain (cycle : Word) (period : Half) (s : State) : tally (outboundTrain cycle period s) =
    tally (scrubStep (evalTerms (List.range 32) (gateAtTrain (beginTrain cycle period s)))) := by
  rw [outboundTrain, trainCompute]
  exact tally_afterScrub _ _

/-- The scrub counts a pass at the train after the one that read the last part (R178, log entry 36). -/
theorem scrubPass_outboundTrain (cycle : Word) (period : Half) (s : State) : scrubPass (outboundTrain cycle period s) =
    (decide (partCount ≤ s.mgmt.scrub + 1), if s.mgmt.passDue then bump s.mgmt.passes else s.mgmt.passes) := by
  obtain ⟨l, hl⟩ := gateAtTrain_lay_only (beginTrain cycle period s)
  obtain ⟨-, -, hscrub, -⟩ := (mail_eq _ _).1 (mail_evalTerms (List.range 32) (gateAtTrain (beginTrain cycle period s)))
  obtain ⟨hdue, hpasses⟩ := Prod.ext_iff.1 (scrubPass_evalTerms (List.range 32) (gateAtTrain (beginTrain cycle period s)))
  dsimp only [scrubPass] at hdue hpasses
  have htally := congrArg Prod.fst (tally_outboundTrain cycle period s)
  dsimp only [tally] at htally
  rw [htally, scrubPass_scrubStep, hscrub, hdue, hpasses, hl]
  rfl

/-- With no part in error every term gets its value at the arrival's cycle number (R129). -/
theorem termHeld_outboundTrain (h : ∀ n, PartClean s n) (cycle : Word) (period : Half) (hi : i < 32) :
    termHeld (outboundTrain cycle period s) i = evaluated (beginTrain cycle period s) i := by
  have hb : ReadsAs s (beginTrain cycle period s) := ⟨rfl, rfl⟩
  have hg := hb.trans (readsAs_gateAtTrain (beginTrain cycle period s))
  have hgclean : ∀ n, PartClean (gateAtTrain (beginTrain cycle period s)) n := fun n => hg.partClean (h n)
  have he := hg.trans (readsAs_evalTerms (List.range 32) hgclean)
  obtain ⟨m, hm, -⟩ := scrubStep_clean (he.partClean (h _))
  obtain ⟨l, hl⟩ := gateAtTrain_lay_only (beginTrain cycle period s)
  have hterms : (outboundTrain cycle period s).terms =
      (evalTerms (List.range 32) (gateAtTrain (beginTrain cycle period s))).terms := by
    have htally := congrArg Prod.snd (tally_outboundTrain cycle period s)
    dsimp only [tally] at htally
    rw [htally, hm, State.setMgmt_terms]
  rw [termHeld, hterms, ← termHeld, termHeld_evalTerms hgclean hi (.inl (List.mem_range.2 hi)), hl]
  rfl

/-! ### The ring ports' own work (R140, R144, R146, R160) -/

theorem trainGap_iff (last : Option Word) (cycle : Word) :
    trainGap last cycle = true ↔ last.isSome = true ∧ last ≠ some (cycle - 1) := by
  cases last with
  | none => simp [trainGap]
  | some n =>
    have hnext : cycle = n + 1 ↔ n = cycle - 1 := ⟨fun h => by rw [h]; bv_omega, fun h => by rw [h]; bv_omega⟩
    simpa [trainGap] using not_congr hnext

/-- What the arrival begins at the ring ports and the conditioner, in the words of the statement. -/
theorem beginTrain_eq (cycle : Word) (period : Half) (s : State) : beginTrain cycle period s =
    (s.setRing { s.ring with
        gaps := if s.ring.lastCycle.isSome ∧ s.ring.lastCycle ≠ some (cycle - 1) then min 65535 (s.ring.gaps + 1)
          else s.ring.gaps
        missed := if s.ring.append then min 65535 (s.ring.missed + 1) else s.ring.missed
        lastCycle := some cycle
        watchdog := some (s.clock.us + BitVec.ofNat 32 (3 * max 250 (min 4000 period.toNat)))
        append := true }).setAxis { s.axis with
          slot := ⟨false, false, false, false⟩
          trainOpen := true } := by
  have hgaps : (if trainGap s.ring.lastCycle cycle then bump s.ring.gaps else s.ring.gaps) =
      if s.ring.lastCycle.isSome ∧ s.ring.lastCycle ≠ some (cycle - 1) then min 65535 (s.ring.gaps + 1)
        else s.ring.gaps := if_congr (trainGap_iff _ _) rfl rfl
  rw [beginTrain, Ring.train, hgaps]
  rfl

theorem exec_outboundTrain (h : Synced .up s) (dst src flags : Byte) (hf : flags.getLsbD 0 = false) (cycle : Word)
    (period : Half) (rest : BitVec 144) : exec (.outboundTrainArrival dst src flags cycle period rest) s =
      .next (enqueue .down (goodCell dst src kindTrain flags (trainPayload cycle period rest))
        (outboundTrain cycle period (arrived .up s))) := by
  have hgood := isGood_goodCell dst src kindTrain flags (trainPayload cycle period rest)
  have hret : isReturn (goodCell dst src kindTrain flags (trainPayload cycle period rest)) = false := hf
  refine congrArg Host.Outcome.next ((receive_good .up _ s h hgood).trans ?_)
  rw [passGood, passUp, goodCell_kind, if_pos rfl, passTrain, hret, trainPayload_cycle, trainPayload_period,
    if_neg Bool.false_ne_true]

/-- Settles O11: the arrival is `outboundTrain`, whose blocks' frames give each clause. -/
theorem outboundTrainStartsACycle : Obligations.OutboundTrainStartsACycle := by
  intro s dst src flags cycle period rest a hsync hplace hret ha
  have hbegin : a = beginTrain cycle period (arrived .up s) := by rw [ha, beginTrain_eq]; rfl
  obtain ⟨hclock, hpins, hring, haxis, -, hparams, -⟩ :=
    (steady_eq _ _).1 (steady_outboundTrain cycle period (arrived .up s))
  obtain ⟨hreplies, -, hscrub, hasLaid⟩ := outboundTrain_mail cycle period (arrived .up s)
  obtain ⟨hdue, hpasses⟩ := Prod.ext_iff.1 (scrubPass_outboundTrain cycle period (arrived .up s))
  dsimp only [scrubPass] at hdue hpasses
  have hterms : TableClean s → ∀ i < 32, termHeld (outboundTrain cycle period (arrived .up s)) i = evaluated a i :=
    fun hclean i hi => hbegin ▸ termHeld_outboundTrain (s := arrived .up s) (fun n => hclean.partClean n) cycle period hi
  have hparts := outboundTrain_eq cycle period (arrived .up s)
  rw [beforeStab, ← hbegin] at hparts
  have hexec := exec_outboundTrain hsync dst src flags hret cycle period rest
  generalize outboundTrain cycle period (arrived .up s) = u at *
  have hroom : HasPlace .down u := by
    rw [HasPlace, hring]
    exact (hasPlace_arrived .up _ _).2 hplace
  rw [hexec, enqueue_joined hroom]
  refine ⟨_, rfl, ?_, ?_, ?_, ?_, ?_, hreplies, hasLaid, hparams, hclock, hpins, fun hclean i hi => ?_, _, _, rfl, rfl, ?_⟩
  · rw [joined, joined, State.setRing_ring, State.setRing_ring, hring, hbegin]
    rfl
  · rw [joined, State.setRing_axis, haxis, hbegin]
    rfl
  · rw [joined, State.setRing_mgmt, hscrub, nextScrub, partCount]
    rfl
  · rw [joined, State.setRing_mgmt, hdue, partCount]
    rfl
  · rw [joined, State.setRing_mgmt, hpasses]
    rfl
  · refine (hterms hclean i hi).trans ?_
    rw [evaluated, ha]
    rfl
  · rw [hparts]
    rfl

end Sys2Proof.Machine
end

section
/-! SUPPORT. SET cells at the UP port (R138, R152, R156 to R159): the conditioned cell and the DOWN queue, and what each role makes
of its cell. -/

namespace Sys2Proof.Machine

variable {s t : State} {dst src flags : Byte} {payload : BitVec 192} {crc : Word} {i : Nat} {e : AxisIdx} {c d : Cell}

/-! ### A SET cell and the DOWN queue (R136, R138) -/

/-- A SET cell as it is received, with the CRC that it carries. -/
def setCell (dst src flags : Byte) (payload : BitVec 192) (crc : Word) : Cell :=
  { dst := dst, src := src, kind := kindSet, flags := flags, payload := payload, crc := crc }

theorem refill_setCell (dst src flags : Byte) (payload filled : BitVec 192) (crc : Word) :
    refill (setCell dst src flags payload crc) filled = goodCell dst src 0x10 flags filled := rfl

theorem receive_set (hs : Synced .up s) (hc : isGood (setCell dst src flags payload crc) = true) :
    receive .up (setCell dst src flags payload crc) s = passSet (setCell dst src flags payload crc) (arrived .up s) := by
  have ht : ¬ kindSet = kindTrain := by decide
  have hkind : (setCell dst src flags payload crc).kind = kindSet := rfl
  rw [receive_good .up _ s hs hc, passGood, passUp, hkind, if_neg ht, if_pos rfl]

theorem ring_conditioned (h : conditionSet c s = (d, t)) : t.ring = s.ring := by
  have hring := ring_conditionSet c s
  rwa [h] at hring

theorem passSet_joined (h : conditionSet c s = (d, t)) (hp : HasPlace .down s) : passSet c s = joined .down d t := by
  have ht : HasPlace .down t := by rw [HasPlace, ring_conditioned h]; exact hp
  have hkeep : keepUnsent s t = t := if_pos ht
  rw [passSet, h]
  dsimp only
  rw [hkeep, enqueue_joined ht]

/-- A cell that finds the DOWN queue full is counted, and the last forwarded positions stay (log entry 19). -/
theorem passSet_full (h : conditionSet c s = (d, t)) (hp : ¬ HasPlace .down s) : passSet c s =
    (t.setAxis { t.axis with lastFwd := s.axis.lastFwd }).setRing
      { s.ring with overflows := min 65535 (s.ring.overflows + 1) } := by
  have ht : ¬ HasPlace .down t := by rw [HasPlace, ring_conditioned h]; exact hp
  have hkeep : keepUnsent s t = t.setAxis { t.axis with lastFwd := s.axis.lastFwd } := if_neg ht
  rw [passSet, h]
  dsimp only
  rw [hkeep, enqueue_full (p := .down) (s := t.setAxis { t.axis with lastFwd := s.axis.lastFwd }) ht, State.setAxis_ring,
    ring_conditioned h]

/-! ### Station SET cells (R159) -/

theorem conditionSet_none (h : entryOfAddr c.dst s = none) : conditionSet c s = (c, s) := by rw [conditionSet, h]

theorem conditionSet_sensor (h : entryOfAddr c.dst s = some (i, e)) (hr : e.role = .sensor) : conditionSet c s = (c, s) := by
  rw [conditionSet, h]
  dsimp only
  rw [hr]

theorem conditionSet_station {st : Station} (h : entryOfAddr c.dst s = some (i, e)) (hr : e.role = stationRole st) :
    conditionSet c s = fillStation st i c s := by
  rw [conditionSet, h]
  dsimp only
  rw [hr]
  cases st <;> rfl

theorem exec_stationSet (hs : Synced .up s) (hc : isGood (setCell dst src flags payload crc) = true) :
    exec (.stationSet dst src flags payload crc) s =
      .next (passSet (setCell dst src flags payload crc) (arrived .up s)) :=
  congrArg Host.Outcome.next (receive_set hs hc)

/-- Settles O20: the cell is filled by `stationCell` from the command in flight, or passes unchanged. -/
theorem stationSetCellCarriesTheCommandInFlight : Obligations.StationSetCellCarriesTheCommandInFlight := by
  intro s dst src flags payload crc hsync hplace hgood
  have hplace' : HasPlace .down (arrived .up s) := (hasPlace_arrived .up .down s).2 hplace
  rw [exec_stationSet hsync hgood]
  refine ⟨fun i e st he hr hread => ?_, fun hpass => ?_⟩
  · have hfill : conditionSet (setCell dst src flags payload crc) (arrived .up s) =
        (stationCell st (setCell dst src flags payload crc) (arrived .up s), arrived .up s) :=
      (conditionSet_station (s := arrived .up s) he hr).trans (if_neg (ne_true_of_eq_false hread))
    rw [passSet_joined hfill hplace', stationCell, arrived_track]
    exact ⟨fun fl hfl => by rw [hfl]; rfl, fun hfl => by rw [hfl]; rfl⟩
  · have hfill : conditionSet (setCell dst src flags payload crc) (arrived .up s) =
        (setCell dst src flags payload crc, arrived .up s) := by
      rcases hpass with he | ⟨i, e, he, hr | ⟨⟨st, hr⟩, hread⟩⟩
      · exact conditionSet_none (s := arrived .up s) he
      · exact conditionSet_sensor (s := arrived .up s) he hr
      · exact (conditionSet_station (s := arrived .up s) he hr).trans (if_pos hread)
    rw [passSet_joined hfill hplace']
    rfl

/-! ### Fine SET cells (R82, R158, R160) -/

/-- A role of a fine axis, with the command, the command before it and the slots with its own filled. -/
def FineParts (s : State) (r : Role) (c cPrev : Int) (q : Quad Bool) : Prop :=
  r = .fineX ∧ c = s.stab.c.x ∧ cPrev = s.stab.cPrev.x ∧ q = { s.axis.slot with x := true } ∨
  r = .fineY ∧ c = s.stab.c.y ∧ cPrev = s.stab.cPrev.y ∧ q = { s.axis.slot with y := true } ∨
  r = .fineZ ∧ c = s.stab.c.z ∧ cPrev = s.stab.cPrev.z ∧ q = { s.axis.slot with z := true } ∨
  r = .fineW ∧ c = s.stab.c.w ∧ cPrev = s.stab.cPrev.w ∧ q = { s.axis.slot with w := true }

theorem FineParts.reads {r : Role} {c cPrev : Int} {q : Quad Bool} (h : FineParts s r c cPrev q) :
    fineOf s.stab.c r = c ∧ fineOf s.stab.cPrev r = cPrev ∧ fillSlot s.axis.slot r = q := by
  rcases h with ⟨rfl, rfl, rfl, rfl⟩ | ⟨rfl, rfl, rfl, rfl⟩ | ⟨rfl, rfl, rfl, rfl⟩ | ⟨rfl, rfl, rfl, rfl⟩ <;>
    exact ⟨rfl, rfl, rfl⟩

theorem conditionSet_fine {k cPrev : Int} {q : Quad Bool} (h : entryOfAddr c.dst s = some (i, e))
    (hr : FineParts s e.role k cPrev q) : conditionSet c s = fillFine e.role i c s := by
  rw [conditionSet, h]
  dsimp only
  rcases hr with ⟨hr, -⟩ | ⟨hr, -⟩ | ⟨hr, -⟩ | ⟨hr, -⟩ <;> rw [hr]

theorem exec_fineSet (hs : Synced .up s) (hc : isGood (setCell dst src flags payload crc) = true) (trainSeen : Bool) :
    exec (.fineSet dst src flags ⟨payload, trainSeen⟩ crc) s =
      .next (passSet (setCell dst src flags payload crc) (noteCycle trainSeen (arrived .up s))) :=
  congrArg Host.Outcome.next (receive_set (s := noteCycle trainSeen s) hs hc)

/-- Settles O19: the cycle is noted, then the cell is filled by `fineCell`, or passes unchanged. -/
theorem fineSetCellCarriesTheCommand : Obligations.FineSetCellCarriesTheCommand := by
  rintro s dst src flags payload crc i e r trainSeen c cPrev v q hsync hplace hgood he rfl hparts rfl
  have hplace' : HasPlace .down (noteCycle trainSeen (arrived .up s)) := (hasPlace_arrived .up .down s).2 hplace
  have hparts' : FineParts (noteCycle trainSeen (arrived .up s)) e.role c cPrev q := hparts
  have hrole : conditionSet (setCell dst src flags payload crc) (noteCycle trainSeen (arrived .up s)) =
      fillFine e.role i (setCell dst src flags payload crc) (noteCycle trainSeen (arrived .up s)) :=
    conditionSet_fine (s := noteCycle trainSeen (arrived .up s)) he hparts'
  obtain ⟨hc, hprev, hslot⟩ := hparts'.reads
  rw [exec_fineSet hsync hgood]
  refine ⟨fun hread => ?_, fun hread => ?_⟩
  · have hvelocity : fineVelocity (noteCycle trainSeen (arrived .up s)) e.role =
        if s.axis.trainOpen = true ∧ trainSeen = true then c - cPrev else 0 := by
      rw [fineVelocity, hc, hprev]
      exact if_congr Bool.and_eq_true_iff rfl rfl
    rw [passSet_joined (hrole.trans (if_neg (ne_true_of_eq_false hread))) hplace', fineCell, hc, hvelocity, hslot]
    rfl
  · rw [passSet_joined (hrole.trans (if_pos hread)) hplace']
    rfl

end Sys2Proof.Machine
end

section
/-! SUPPORT. Coarse SET cells (R136, R149, R152, R156, R157): the hold form, and the step from the last forwarded position. -/

namespace Sys2Proof.Machine

variable {s t : State} {dst src flags : Byte} {payload : BitVec 192} {crc : Word} {i : Nat} {e : AxisIdx} {c d : Cell}
  {position velocity : Word} {setFlags : Byte} {rest : BitVec 120} {step : Nat} {b p : Word}

theorem conditionSet_coarse (h : entryOfAddr c.dst s = some (i, e)) (hr : e.role = .coarse) :
    conditionSet c s = conditionCoarse i c s := by
  rw [conditionSet, h]
  dsimp only
  rw [hr]

theorem exec_coarseSet (hs : Synced .up s)
    (hc : isGood (setCell dst src flags (setPayload position velocity setFlags rest) crc) = true) :
    exec (.coarseSet dst src flags position velocity setFlags rest crc) s =
      .next (passSet (setCell dst src flags (setPayload position velocity setFlags rest) crc) (arrived .up s)) :=
  congrArg Host.Outcome.next (receive_set hs hc)

/-! ### The hold form (R156) -/

/-- The state that the read of a coarse entry's part leaves; a marked entry is not read (R149, log entry 26). -/
def coarseRead (i : Nat) (s : State) : State :=
  if axisUnreadable s i then s else (readPart (axisPart i) s).2

theorem coarseRead_clean (h : PartClean s (axisPart i)) : coarseRead i s = s := by
  rw [coarseRead, readPart_clean s _ h, ite_self]

theorem quiet_coarseRead (i : Nat) (s : State) : quiet (coarseRead i s) = quiet s := by
  unfold coarseRead
  split
  · rfl
  · exact quiet_readPart _ _

/-- In a hold, and with its entry unreadable before or by this read, the cell takes the hold form. -/
theorem conditionCoarse_held (h : s.ctl.mode.held = true ∨ axisUnreadable s i = true ∨ (readPart (axisPart i) s).1 = none)
    (c : Cell) : conditionCoarse i c s = forwardHeld i c (coarseRead i s) := by
  rw [conditionCoarse, coarseRead]
  split
  · rfl
  · rename_i hread
    rcases hpart : readPart (axisPart i) s with ⟨_ | part, t⟩ <;> simp only [readAxis, hpart]
    rcases h with h | h | h
    · exact if_pos h
    · exact absurd h hread
    · rw [hpart] at h; cases h

theorem forwardHeld_of_quiet (h : quiet t = quiet s) (i : Nat) (c : Cell) : forwardHeld i c t =
    (refill c (setPayload (holdPosition s i c) 0 1 0),
      t.setAxis { s.axis with lastFwd := s.axis.lastFwd.setIfInBounds i (some (holdPosition s i c)) }) := by
  obtain ⟨-, -, -, haxis, -⟩ := (quiet_eq t s).1 h
  rw [forwardHeld, holdForm, holdPosition, setForwarded, feedbackOf, haxis]
  rfl

/-- A last forwarded position taken back leaves the state as the read left it. -/
theorem setAxis_unsent (h : t.axis = s.axis) (v : Vector (Option Word) 24) :
    (t.setAxis { s.axis with lastFwd := v }).setAxis
      { (t.setAxis { s.axis with lastFwd := v }).axis with lastFwd := s.axis.lastFwd } = t := by
  rw [← h]
  rfl

/-- Settles O17: `conditionCoarse` in the hold form, then a DOWN queue with a place or full. -/
theorem coarseSetCellTakesTheHoldForm : Obligations.CoarseSetCellTakesTheHoldForm := by
  rintro s dst src flags position velocity setFlags rest crc i e p t hsync hgood he hrole rfl rfl
  refine ⟨fun hclean => coarseRead_clean (s := arrived .up s) hclean, fun hheld => ?_⟩
  have hposition : holdPosition (arrived .up s) i
      (setCell dst src flags (setPayload position velocity setFlags rest) crc) =
        if (feedbackOf s i).seen then (feedbackOf s i).actual else position := by
    rw [holdPosition, (setPayload_fields _ _ _ _ _ rfl).1]
    rfl
  have hcond := ((conditionSet_coarse (s := arrived .up s)
    (c := setCell dst src flags (setPayload position velocity setFlags rest) crc) he hrole).trans
      (conditionCoarse_held (s := arrived .up s) hheld _)).trans (forwardHeld_of_quiet (quiet_coarseRead i _) i _)
  obtain ⟨-, -, -, haxis, -⟩ := (quiet_eq _ _).1 (quiet_coarseRead i (arrived .up s))
  rw [exec_coarseSet hsync hgood]
  refine ⟨fun hplace => ?_, fun hplace => ?_⟩
  · rw [passSet_joined hcond ((hasPlace_arrived .up .down s).2 hplace), hposition]
    rfl
  · rw [passSet_full hcond (mt (hasPlace_arrived .up .down s).1 hplace)]
    rw [setAxis_unsent (s := arrived .up s) haxis]
    rfl

/-! ### The step (R157) -/

/-- A step from the base towards the target lies between the two, so it is a word (R157). -/
theorem toInt_limitStep (b target : Word) (step : Nat) : (limitStep b target step).toInt =
    b.toInt + max (-(step : Int)) (min (step : Int) (target.toInt - b.toInt)) := by
  have hb := b.le_toInt
  have hb' := b.toInt_lt
  have ht := target.le_toInt
  have ht' := target.toInt_lt
  rw [limitStep, word32, sat, BitVec.toInt_ofInt, Int.bmod_eq_of_le] <;> omega

theorem conditionCoarse_limited (hm : s.ctl.mode.held = false) (hc : PartClean s (axisPart i)) (c : Cell) :
    conditionCoarse i c s = forwardLimited i (axisRec (peekPart s (axisPart i))) c s := by
  have hread : axisUnreadable s i = false := contains_of_partClean hc
  have hpart : readPart (axisPart i) s = (some (peekPart s (axisPart i)), s) := readPart_clean s _ hc
  rw [conditionCoarse, if_neg (ne_true_of_eq_false hread)]
  simp only [readAxis, hpart, hm, Bool.false_eq_true, if_false]

theorem coarseBase_eq (h : s.axis.lastFwd[i]?.join = some b ∨
    s.axis.lastFwd[i]?.join = none ∧ (feedbackOf s i).seen = true ∧ (feedbackOf s i).actual = b) :
    coarseBase s i = some b := by
  rw [coarseBase, lastForwarded]
  rcases h with h | ⟨h, hseen, rfl⟩
  · rw [h]
  · rw [h]
    exact if_pos hseen

theorem coarseBase_none (h : s.axis.lastFwd[i]?.join = none) (hseen : (feedbackOf s i).seen = false) :
    coarseBase s i = none := by
  rw [coarseBase, lastForwarded, h]
  exact if_neg (ne_true_of_eq_false hseen)

/-- A cell that is not limited keeps its velocity; a limited one carries 0 and CONDITIONED. -/
theorem coarseCell_setCell (p : Word) :
    coarseCell (setCell dst src flags (setPayload position velocity setFlags rest) crc) p = goodCell dst src 0x10 flags
      (if p = position then setPayload position velocity 0 rest else setPayload p 0 2 rest) := by
  obtain ⟨hposition, hvelocity, -, hrest⟩ := setPayload_fields
    (setCell dst src flags (setPayload position velocity setFlags rest) crc) position velocity setFlags rest rfl
  rw [coarseCell, hposition, hvelocity, hrest, refill_setCell, refill_setCell]
  by_cases hp : p = position
  · rw [if_pos (beq_iff_eq.2 hp), if_pos hp, hp]
    rfl
  · rw [if_neg (mt beq_iff_eq.1 hp), if_neg hp]
    rfl

theorem coarseStep_eq (r : AxisRec) (s : State) :
    coarseStep r s = if s.guard.outcome.slow = true ∨ s.ctl.recovery = true then r.b else r.a :=
  if_congr Bool.or_eq_true_iff rfl rfl

/-- Settles O18: `forwardLimited` from the base of the entry, or without one. -/
theorem coarseSetCellMovesOneStepAtMost : Obligations.CoarseSetCellMovesOneStepAtMost := by
  rintro s dst src flags position velocity setFlags rest crc i e step hsync hplace hgood he hrole hmode hclean hstep
  have hplace' : HasPlace .down (arrived .up s) := (hasPlace_arrived .up .down s).2 hplace
  have hposition := (setPayload_fields
    (setCell dst src flags (setPayload position velocity setFlags rest) crc) position velocity setFlags rest rfl).1
  have hcond := (conditionSet_coarse (s := arrived .up s)
    (c := setCell dst src flags (setPayload position velocity setFlags rest) crc) he hrole).trans
      (conditionCoarse_limited (s := arrived .up s) hmode hclean _)
  rw [exec_coarseSet hsync hgood]
  refine ⟨fun b hb => ⟨_, toInt_limitStep b position _, ?_⟩, fun hlast hseen => ?_⟩
  · rw [forwardLimited, coarseBase_eq (s := arrived .up s) hb, hposition, coarseStep_eq] at hcond
    rw [passSet_joined hcond hplace', coarseCell_setCell, hstep]
    rfl
  · rw [forwardLimited, coarseBase_none (s := arrived .up s) hlast hseen, hposition] at hcond
    rw [passSet_joined hcond hplace']
    rfl

end Sys2Proof.Machine
end

section
/-! SUPPORT. READ (R169) as it comes to the table that it names, and the pages that are no part of table memory: the feedback of an
axis entry (R153) and the counters (R173). -/

namespace Sys2Proof.Machine

variable {s : State} {who : Sender} {level : Nat} {table : BitVec 4} {part : BitVec 3} {index : Half}

/-! ### The request and its reply -/

/-- The request of a READ. -/
def readRequest (who : Sender) (table : BitVec 4) (part : BitVec 3) (index : Half) : Request :=
  requestFor who opRead (selectorOf table part) index 0 0

@[simp] theorem readRequest_table : (readRequest who table part index).table = table := selector_table table part
@[simp] theorem readRequest_part : (readRequest who table part index).part = part := selector_part table part
@[simp] theorem readRequest_index : (readRequest who table part index).index = index := rfl

/-- A READ of one of the seven tables that is heard is performed. -/
theorem exec_read (h : Heard s who level) (hl : level ≤ 2) (ht : tableOk opRead table.toNat = true) :
    exec (.read who table part index) s = .next (opReadExec (readRequest who table part index) (arrived .up s)) := by
  have htable : tableOk opRead ((selectorOf table part).extractLsb' 0 4).toNat = true := by rw [selector_table]; exact ht
  exact operate_performed s who level opRead (selectorOf table part) index 0 0 h rfl htable hl

/-! ### The counters (R173) -/

/-- A READ of PARAM part 5, 6 or 7 is one of counters. -/
theorem exec_read_counters (h : Heard s who level) (hl : level ≤ 2) (hp : 5 ≤ part.toNat) :
    exec (.read who 2 part index) s = .next (readCounters (readRequest who 2 part index) (arrived .up s)) := by
  have h7 : ¬ (2 : BitVec 4).toNat = 7 := by decide
  have h2 : (decide ((2 : BitVec 4).toNat = 2) && decide (5 ≤ part.toNat)) = true := by simp [hp]
  rw [exec_read h hl rfl, opReadExec, readRequest_table, readRequest_part, if_neg h7, if_pos h2]

theorem exec_read_page {d : Part} (h : Heard s who level) (hl : level ≤ 2) (hp : 5 ≤ part.toNat)
    (hd : counterPage part.toNat index.toNat (arrived .up s) = some d) :
    exec (.read who 2 part index) s = .next (replied who 1 .ok 0 d (arrived .up s)) := by
  rw [exec_read_counters h hl hp, readCounters, readRequest_part, readRequest_index, hd]
  rfl

theorem exec_read_noPage (h : Heard s who level) (hl : level ≤ 2) (hp : 5 ≤ part.toNat)
    (hd : counterPage part.toNat index.toNat (arrived .up s) = none) :
    exec (.read who 2 part index) s = .next (replied who 1 .badIndex 0 0 (arrived .up s)) := by
  rw [exec_read_counters h hl hp, readCounters, readRequest_part, readRequest_index, hd]
  rfl

theorem syncCode_eq (x : Sync) : x.code = if x = .synced then 1 else 0 := by cases x <;> rfl

/-- The cell of the READ is received at a SYNCED port. -/
theorem sync_arrived (h : Synced .up s) : (arrived .up s).ring.up.sync = .synced := by
  have hsync : s.ring.up.sync = .synced := h
  show (s.ring.up.receive true s.clock.us).sync = .synced
  simp [PortRx.receive, PortRx.afterGood, hsync]

/-! ### The feedback page (R153) -/

/-- A READ of AXIS part 1 shows the entry's feedback with its age, and whether its part 0 is unreadable. -/
theorem exec_read_feedback (h : Heard s who level) (hl : level ≤ 2) (hi : index.toNat < 24) :
    exec (.read who 3 1 index) s = .next (replied who 1 .ok
      (if s.mgmt.unreadable.contains (13 + index.toNat) then 1 else 0) (feedbackPage s index.toNat) (arrived .up s)) := by
  have h7 : ¬ (3 : BitVec 4).toNat = 7 := by decide
  have h2 : ¬ (decide ((3 : BitVec 4).toNat = 2) && decide (5 ≤ (1 : BitVec 3).toNat)) = true := by decide
  have h3 : (decide ((3 : BitVec 4).toNat = 3) && decide ((1 : BitVec 3) = 1) && decide (index.toNat < 24)) = true := by simp [hi]
  have hbit : unreadableBit s (axisPart index.toNat) = if s.mgmt.unreadable.contains (13 + index.toNat) then 1 else 0 := by
    rw [unreadableBit, axisPart]
    cases s.mgmt.unreadable.contains (13 + index.toNat) <;> rfl
  rw [exec_read h hl rfl, opReadExec, readRequest_table, readRequest_part, readRequest_index, if_neg h7, if_neg h2,
    if_pos h3, ← hbit]
  rfl

/-- Settles O38: each page as `feedbackPage` and `counterPage` build it. -/
theorem readReturnsFeedbackAndCounters : Obligations.ReadReturnsFeedbackAndCounters := by
  intro s who level index h hl
  refine ⟨?_, ?_, ?_, ?_, fun hi => ?_⟩
  · rintro f hi rfl
    exact exec_read_feedback h hl hi
  · rintro l rfl
    exact ⟨exec_read_page h hl (by decide) rfl, exec_read_page h hl (by decide) rfl⟩
  · rintro r rfl
    refine ⟨exec_read_page h hl (by decide) ?_, exec_read_page h hl (by decide) rfl⟩
    show some (ringPage 0 (arrived .up s)) = _
    rw [ringPage, syncCode_eq, syncCode_eq, sync_arrived h.synced]
    rfl
  · exact exec_read_page h hl (by decide) rfl
  · exact exec_read_noPage h hl (by decide) ((if_pos rfl).trans (if_neg (Nat.not_le.2 hi)))

end Sys2Proof.Machine
end

section
/-! SUPPORT. The capture of an FBK cell (R142, R154): the entry's feedback, the terms on it, and a station's report that is no matching
DONE (R28, R29, R44). -/

namespace Sys2Proof.Machine

variable {s t u : State} {c : Cell} {i : Nat} {e : AxisIdx} {role : Role} {st : Station} {f : Feedback} {fl : InFlight}

/-! ### The cell (R142, R154) -/

theorem receive_fbk (hs : Synced .down s) (hp : HasPlace .up s) (hc : isGood c = true) (hk : c.kind = kindFbk) :
    receive .down c s = joined .up c (captureCell c (arrived .down s)) := by
  have hplace : HasPlace .up (captureCell c (arrived .down s)) := by
    rw [HasPlace, ring_captureCell]
    exact (hasPlace_arrived .down .up s).2 hp
  rw [receive_good .down c s hs hc, passGood, passDown, if_pos hk, enqueue_joined hplace]

theorem captureCell_entry (he : entryOfAddr c.src s = some (i, e)) (hr : axisUnreadable s i = false) :
    captureCell c s = capture i e.role c s := by
  rw [captureCell, he]
  exact if_neg (ne_true_of_eq_false hr)

theorem captureCell_none (h : entryOfAddr c.src s = none ∨ ∃ i e, entryOfAddr c.src s = some (i, e) ∧
    axisUnreadable s i = true) : captureCell c s = s := by
  rw [captureCell]
  rcases h with h | ⟨i, e, h, hr⟩ <;> rw [h]
  exact if_pos hr

/-! ### The terms on the entry (R129) -/

/-- The part after an entry has taken its feedback and the terms on it have been evaluated. -/
def informed (i : Nat) (f : Feedback) (s : State) : State :=
  evalTerms (termsOnEntry i (storeFeedback i f s)) (storeFeedback i f s)

/-- Where no term looks at the entry, none is evaluated. -/
theorem informed_calm (h : ∀ j < 32, 2 ≤ (termRec (peekPart s (termPart j))).kind ∨
    (termRec (peekPart s (termPart j))).axis ≠ i) (f : Feedback) : informed i f s = storeFeedback i f s := by
  have hnone : termsOnEntry i (storeFeedback i f s) = [] := by
    rw [termsOnEntry, termsWhere, List.filter_eq_nil_iff]
    intro j hj
    have hpart : peekPart (storeFeedback i f s) (termPart j) = peekPart s (termPart j) := rfl
    rw [hpart]
    simp only [Bool.and_eq_true, Bool.or_eq_true, beq_iff_eq]
    have hterm := h j (List.mem_range.1 hj)
    omega
  rw [informed, hnone]
  rfl

theorem quiet_informed (i : Nat) (f : Feedback) (s : State) : quiet (informed i f s) = quiet (storeFeedback i f s) :=
  quiet_evalTerms _ _

theorem mail_informed (i : Nat) (f : Feedback) (s : State) : mail (informed i f s) = mail s :=
  (mail_evalTerms _ _).trans (mail_setAxis s _)

theorem capture_plain (h : role.station = none) (i : Nat) (c : Cell) (s : State) :
    capture i role c s = informed i (feedbackOfCell c s.ring.lastCycle) s := by
  simp only [capture, h]
  rfl

/-! ### What no report changes -/

theorem replies_complete (st : Station) (fl : InFlight) (v : Int) (s : State) :
    (complete st fl v s).mgmt.replies = s.mgmt.replies := by
  have hmail : ∀ {x y : State}, mail x = mail y → x.mgmt.replies = y.mgmt.replies := fun h => ((mail_eq _ _).1 h).1
  have hfor : ∀ cmd k x, (completeFor cmd k v x).mgmt.replies = x.mgmt.replies := fun cmd k x => by
    cases cmd
    case cut => simp only [completeFor, cutCompletes]; split <;> rfl
    case eject | drop => exact hmail (kept_dropTicket _ _ _).2
    case handover => exact hmail (mail_placementBegins k.lay (moveTicket k .gripper .held x))
    case openJaws => exact (hmail (kept_planLaid k.lay ((x.setLay (x.lay.endRelease k false)).setTrack (x.track.remove k.lay))).2 :)
    all_goals rfl
  unfold complete
  dsimp only
  split
  · exact hfor _ _ _
  · rfl

theorem replies_stationReport (st : Station) (f : Feedback) (s : State) :
    (stationReport st f s).mgmt.replies = s.mgmt.replies := by
  have hcommand : (reportCommand st f s).mgmt.replies = s.mgmt.replies := by
    unfold reportCommand
    dsimp only
    split
    · rfl
    · split
      · exact replies_complete _ _ _ _
      · split <;> rfl
  rcases compareSensor_cases st f (reportCommand st f s) with h | ⟨-, h⟩ <;> rw [stationReport, h]
  · exact hcommand
  · exact hcommand

/-- Every capture replaces the entry's feedback, and leaves these blocks as they were. -/
theorem steady_capture (i : Nat) (role : Role) (c : Cell) (s : State) :
    steady (capture i role c s) = steady (storeFeedback i (feedbackOfCell c s.ring.lastCycle) s) ∧
      (capture i role c s).mgmt.replies = s.mgmt.replies := by
  have hsteady := steady_of_quiet (quiet_informed i (feedbackOfCell c s.ring.lastCycle) s)
  have hreplies := ((mail_eq _ _).1 (mail_informed i (feedbackOfCell c s.ring.lastCycle) s)).1
  cases hrole : role.station with
  | none => rw [capture_plain hrole]; exact ⟨hsteady, hreplies⟩
  | some st =>
    rw [capture_station hrole, ← informed]
    exact ⟨(steady_stationReport _ _ _).trans hsteady, (replies_stationReport _ _ _).trans hreplies⟩

/-! ### A report that is no matching DONE (R28, R29) -/

theorem reportCommand_fault (hfl : (s.track.station st).inflight = some fl) (hecho : echoOf f = fl.num)
    (hstatus : stationStatus f = 3) (hs : (s.track.station st).stall = .none ∨ (s.track.station st).stall = .timeout) :
    reportCommand st f s = latch .stationFault (stationCode st) (setStation st { s.track.station st with
      stall := .fault, inflight := some { fl with timer := false } } s) := by
  unfold reportCommand
  dsimp only
  rw [hfl]
  simp [hecho, hstatus, hs]

theorem reportCommand_other (h : ∀ fl, (s.track.station st).inflight = some fl → echoOf f = fl.num →
    ¬ (stationStatus f = 2 ∧ (s.track.station st).stall ≠ .fault) ∧
    ¬ (stationStatus f = 3 ∧ ((s.track.station st).stall = .none ∨ (s.track.station st).stall = .timeout))) :
    reportCommand st f s = s := by
  unfold reportCommand
  dsimp only
  split
  · rfl
  · rename_i fl hfl
    split
    · rename_i hc
      simp only [Bool.and_eq_true, decide_eq_true_eq, bne_iff_ne] at hc
      exact absurd ⟨hc.1.1, hc.2⟩ (h fl hfl hc.1.2).1
    · split
      · rename_i hc
        simp only [Bool.and_eq_true, Bool.or_eq_true, decide_eq_true_eq, beq_iff_eq] at hc
        exact absurd ⟨hc.1.1, hc.2⟩ (h fl hfl hc.1.2).2
      · rfl

/-! ### The sensor (R44) -/

theorem inTransfer_iff {place : Station → InFlight → Station}
    (hplace : ∀ x fl, place x fl = ((s.track.find fl.ticket).map (·.pos)).getD x) : inTransfer s st = true ↔
      ∃ x fl, (s.track.station x).inflight = some fl ∧ st ∈ fl.cmd.touches (place x fl) := by
  have hall : ∀ x : Station, x ∈ allStations := fun x => by cases x <;> decide
  rw [inTransfer, List.any_eq_true]
  refine exists_congr fun x => ?_
  rw [and_iff_right (hall x)]
  cases hfl : (s.track.station x).inflight <;> simp [hplace]

/-- The sensor is compared at a station that is not stalled and not in transfer. -/
theorem compared_iff {place : Station → InFlight → Station}
    (hplace : ∀ x fl, place x fl = ((s.track.find fl.ticket).map (·.pos)).getD x) :
    (stalled s st || inTransfer s st) = false ↔ (s.track.station st).stall = .none ∧
      ∀ x fl, (s.track.station x).inflight = some fl → st ∉ fl.cmd.touches (place x fl) := by
  rw [Bool.or_eq_false_iff, stalled, bne_eq_false_iff_eq, ← Bool.not_eq_true (inTransfer s st), inTransfer_iff hplace]
  simp only [not_exists, not_and]

/-- The sensor and the track disagree: a block is seen at a free station, or none where one stands. -/
theorem disagrees_iff : (brickPresent f == holdsBlock s st) = false ↔ (f.status.getLsbD 2 = true ↔ standsFree s st) := by
  have hfree : standsFree s st ↔ ¬ holdsBlock s st = true := by
    rw [holdsBlock_iff]
    exact ⟨fun h ⟨k, hk, hpos⟩ => h k hk hpos, fun h k hk hpos => h ⟨k, hk, hpos⟩⟩
  rw [hfree, brickPresent]
  cases f.status.getLsbD 2 <;> cases holdsBlock s st <;> decide

theorem compareSensor_mismatch (hc : (stalled s st || inTransfer s st) = false)
    (hd : (brickPresent f == holdsBlock s st) = false) : compareSensor st f s =
      latch .trackMismatch (stationCode st) (setStation st { s.track.station st with stall := .mismatch } s) := by
  rw [compareSensor, hc, hd]
  rfl

theorem compareSensor_same (h : (stalled s st || inTransfer s st) = true ∨ (brickPresent f == holdsBlock s st) = true) :
    compareSensor st f s = s := by
  rw [compareSensor, if_pos (Bool.or_eq_true_iff.2 h)]

/-- A FAULT report of the command in flight: the station is stalled and its sensor is not compared. -/
theorem stationReport_fault (hfl : (s.track.station st).inflight = some fl) (hecho : echoOf f = fl.num)
    (hstatus : stationStatus f = 3) (hs : (s.track.station st).stall = .none ∨ (s.track.station st).stall = .timeout) :
    stationReport st f s = latch .stationFault (stationCode st) (setStation st { s.track.station st with
      stall := .fault, inflight := some { fl with timer := false } } s) := by
  rw [stationReport, reportCommand_fault hfl hecho hstatus hs]
  refine compareSensor_same (.inl (Bool.or_eq_true_iff.2 (.inl ?_)))
  rw [stalled]
  show (((s.track.setStation st _).station st).stall != .none) = true
  rw [station_setStation_same]
  rfl

/-! ### The report of a station after its terms -/

/-- The comparison looks at the track alone. -/
theorem compares_congr (h : u.track = s.track) : (stalled u st || inTransfer u st) = (stalled s st || inTransfer s st) ∧
    holdsBlock u st = holdsBlock s st := by
  unfold stalled inTransfer holdsBlock
  rw [h]
  exact ⟨rfl, rfl⟩

/-- A report of station `st` under the echoed number of the command in flight. -/
def Matches (s : State) (st : Station) (f : Feedback) : Prop :=
  ∃ fl, (s.track.station st).inflight = some fl ∧ fl.num = echoOf f

/-- A FAULT report of the command in flight, taken by a station without a worse stall (R29). -/
def ReportsFault (s : State) (st : Station) (f : Feedback) : Prop :=
  Matches s st f ∧ stationStatus f = 3 ∧ ((s.track.station st).stall = .none ∨ (s.track.station st).stall = .timeout)

/-- A matching DONE (R28). -/
def ReportsMatchingDone (s : State) (st : Station) (f : Feedback) : Prop :=
  Matches s st f ∧ stationStatus f = 2 ∧ (s.track.station st).stall ≠ .fault

/-- A station's record stalled by FAULT, its timer stopped. -/
def faulted (r : StationRec) : StationRec :=
  { r with stall := .fault, inflight := r.inflight.map fun fl => { fl with timer := false } }

section Report

variable (h : u.track = s.track)
include h

theorem report_faults (hf : ReportsFault s st f) : stationReport st f u =
    latch .stationFault (stationCode st) (setStation st (faulted (s.track.station st)) u) := by
  obtain ⟨⟨fl, hfl, hecho⟩, hstatus, hs⟩ := hf
  have hreport := stationReport_fault (h ▸ hfl) hecho.symm hstatus (h ▸ hs)
  rw [hreport, h, faulted, hfl]
  rfl

theorem report_compares (hf : ¬ ReportsFault s st f) (hd : ¬ ReportsMatchingDone s st f) :
    stationReport st f u = compareSensor st f u := by
  rw [stationReport, reportCommand_other fun fl hfl hecho => ?_]
  rw [h] at hfl ⊢
  exact ⟨fun hdone => hd ⟨⟨fl, hfl, hecho.symm⟩, hdone⟩, fun hfault => hf ⟨⟨fl, hfl, hecho.symm⟩, hfault⟩⟩

theorem report_mismatches (hc : (stalled s st || inTransfer s st) = false) (hb : (brickPresent f == holdsBlock s st) = false) :
    compareSensor st f u =
      latch .trackMismatch (stationCode st) (setStation st { s.track.station st with stall := .mismatch } u) := by
  obtain ⟨hstands, hblock⟩ := compares_congr (st := st) h
  rw [compareSensor_mismatch (hstands.trans hc) (hblock ▸ hb), h]

theorem report_agrees (hb : (stalled s st || inTransfer s st) = true ∨ (brickPresent f == holdsBlock s st) = true) :
    compareSensor st f u = u := by
  obtain ⟨hstands, hblock⟩ := compares_congr (st := st) h
  exact compareSensor_same (hstands.symm ▸ hblock.symm ▸ hb)

/-- A report that is no matching DONE leaves the plan and the lay controller. -/
theorem report_frame (hd : ¬ ReportsMatchingDone s st f) :
    (stationReport st f u).plan = u.plan ∧ (stationReport st f u).lay = u.lay := by
  by_cases hf : ReportsFault s st f
  · rw [report_faults h hf]
    exact ⟨rfl, rfl⟩
  · obtain ⟨hplan, hlay, -⟩ := compareSensor_frame st f u
    rw [report_compares h hf hd]
    exact ⟨hplan, hlay⟩

end Report

/-- The report by its cases, on a state whose terms have been evaluated; `calm` leaves the mode controller to the report alone. -/
theorem report_afterTerms {calm : Prop} (hu : Informed s u) (hctl : calm → u.ctl = s.ctl) :
    (ReportsFault s st f →
      (stationReport st f u).track = s.track.setStation st (faulted (s.track.station st)) ∧
      (stationReport st f u).ctl.has .stationFault = true ∧
      (calm → (stationReport st f u).ctl = s.ctl.latch .stationFault (BitVec.ofNat 32 (stationCode st)) s.clock.ms)) ∧
    (¬ ReportsFault s st f → ¬ ReportsMatchingDone s st f → (stalled s st || inTransfer s st) = false →
      (brickPresent f == holdsBlock s st) = false →
      (stationReport st f u).track = s.track.setStation st { s.track.station st with stall := .mismatch } ∧
      (stationReport st f u).ctl.has .trackMismatch = true ∧
      (calm → (stationReport st f u).ctl = s.ctl.latch .trackMismatch (BitVec.ofNat 32 (stationCode st)) s.clock.ms)) ∧
    (¬ ReportsFault s st f → ¬ ReportsMatchingDone s st f →
      ¬ (stalled s st || inTransfer s st) = false ∨ ¬ (brickPresent f == holdsBlock s st) = false →
      (stationReport st f u).track = s.track ∧ (calm → (stationReport st f u).ctl = s.ctl)) ∧
    (¬ ReportsMatchingDone s st f →
      (stationReport st f u).plan = s.plan ∧ (stationReport st f u).lay.asLaid = s.lay.asLaid) := by
  have hlatch : calm → ∀ k, u.ctl.latch k (BitVec.ofNat 32 (stationCode st)) u.clock.ms =
      s.ctl.latch k (BitVec.ofNat 32 (stationCode st)) s.clock.ms := fun hn k => by rw [hctl hn, hu.clock]
  refine ⟨fun hf => ?_, fun hf hd hc hb => ?_, fun hf hd hcb => ?_, fun hd => ?_⟩
  · rw [report_faults hu.track hf]
    exact ⟨congrArg (Track.setStation · st _) hu.track, has_latch _ _ _, fun hn => hlatch hn _⟩
  · rw [report_compares hu.track hf hd, report_mismatches hu.track hc hb]
    exact ⟨congrArg (Track.setStation · st _) hu.track, has_latch _ _ _, fun hn => hlatch hn _⟩
  · rw [report_compares hu.track hf hd, report_agrees hu.track (hcb.imp eq_true_of_ne_false eq_true_of_ne_false)]
    exact ⟨hu.track, hctl⟩
  · obtain ⟨hplan, hlay⟩ := report_frame hu.track hd
    exact ⟨hplan.trans hu.plan, (congrArg Lay.asLaid hlay).trans hu.asLaid⟩

/-- Settles O21: the terms on the entry come first, then the report of its station by `report_afterTerms`. -/
theorem feedbackIsCapturedWhole : Obligations.FeedbackIsCapturedWhole := by
  intro s dst src flags actual status aux0 aux1 aux2 aux3 rest hsync hplace
  obtain ⟨c, hc⟩ : ∃ c, c = goodCell dst src kindFbk flags (fbkPayload actual status aux0 aux1 aux2 aux3 rest) := ⟨_, rfl⟩
  have hexec : exec (.fbkCapture dst src flags actual status aux0 aux1 aux2 aux3 rest) s =
      .next (joined .up c (captureCell c (arrived .down s))) := by
    rw [hc]
    exact congrArg Host.Outcome.next (receive_fbk hsync hplace (isGood_goodCell _ _ _ _ _) rfl)
  have hsrc : c.src = src := by rw [hc]; rfl
  rw [hexec]
  refine ⟨fun i e he hr => ⟨_, rfl, ?_⟩, fun hnone => ?_⟩
  · rw [captureCell_entry (s := arrived .down s) (hsrc ▸ he) hr]
    obtain ⟨f, hf⟩ : ∃ f : Feedback, f = ⟨actual, status, aux0, aux1, aux2, aux3, s.ring.lastCycle, true⟩ := ⟨_, rfl⟩
    have hfeedback : feedbackOfCell c (arrived .down s).ring.lastCycle = f := by
      rw [hc, feedbackOfCell_fields, hf]
      rfl
    obtain ⟨hsteady, hreplies⟩ := steady_capture i e.role c (arrived .down s)
    obtain ⟨hclock, hpins, hring, haxis, hstab, hparams, -⟩ := (steady_eq _ _).1 hsteady
    have hplain : e.role.station = none → capture i e.role c (arrived .down s) = informed i f (arrived .down s) :=
      fun hrole => hfeedback ▸ capture_plain hrole i c (arrived .down s)
    have hstation : ∀ st, e.role = stationRole st →
        capture i e.role c (arrived .down s) = stationReport st f (informed i f (arrived .down s)) := fun st hrole => by
      rw [capture_station (hrole ▸ station_stationRole st), hfeedback, informed]
    have hu := informed_evalTerms (termsOnEntry i (storeFeedback i f (arrived .down s))) i f s
    rw [← informed] at hu
    have hcalm := informed_calm (s := arrived .down s) (i := i) (f := f)
    rw [hfeedback] at haxis
    generalize capture i e.role c (arrived .down s) = v at *
    refine ⟨?_, ?_, hstab, hparams, hclock, hpins, hreplies, fun hrole => ?_, ?_⟩
    · rw [joined, joined, State.setRing_ring, State.setRing_ring, hring, hc]
      rfl
    · rw [joined, State.setRing_axis, haxis, hf]
      rfl
    · rw [hplain hrole]
      exact ⟨hu.track, hu.plan, hu.asLaid⟩
    · rintro st r matched fault done compared disagrees calm hrole rfl hmatched hfault hdone hcompared hdisagrees hnotNamed
      have hstatus : stationStatus f = status.toNat % 4 := by rw [hf]; rfl
      have hmatched' : matched ↔ Matches s st f := by rw [hmatched, Matches, hf]; rfl
      have hfault' : fault ↔ ReportsFault s st f := by rw [hfault, hmatched', ReportsFault, hstatus]
      have hdone' : done ↔ ReportsMatchingDone s st f := by rw [hdone, hmatched', ReportsMatchingDone, hstatus]
      have hcompared' : compared ↔ (stalled s st || inTransfer s st) = false :=
        hcompared.trans (compared_iff fun x fl => by cases s.track.find fl.ticket <;> rfl).symm
      have hdisagrees' : disagrees ↔ (brickPresent f == holdsBlock s st) = false := by
        rw [hdisagrees, disagrees_iff, hf]
      have hctl : calm → (informed i f (arrived .down s)).ctl = s.ctl := fun hn => by
        rw [hcalm (hnotNamed.1 hn)]
        rfl
      rw [hfault', hdone', hcompared', hdisagrees', hstation st hrole]
      exact report_afterTerms hu hctl
  · rw [captureCell_none (s := arrived .down s) (hsrc ▸ hnone), hc]
    rfl

end Sys2Proof.Machine
end

section
/-! SUPPORT. What a read of another part, and an evaluation of terms, leave of a part of table memory (R129, R177): its content, its
check bits and its marking. -/

namespace Sys2Proof.Machine

variable {s t u : State} {k n w : Nat}

/-- Part `k` reads in `t` as in `s`: its content and its marking stand, and no bit of it has been flipped. -/
structure KeepsPart (k : Nat) (s t : State) : Prop where
  content : peekPart t k = peekPart s k
  flips : ∀ w, wordFlips s.mem.flips w = [] → wordFlips t.mem.flips w = []
  marked : partMarked t k = partMarked s k

theorem KeepsPart.trans (h : KeepsPart k s t) (h' : KeepsPart k t u) : KeepsPart k s u :=
  ⟨h'.content.trans h.content, fun w hw => h'.flips w (h.flips w hw), h'.marked.trans h.marked⟩

theorem KeepsPart.partClean (h : KeepsPart k s t) (hc : PartClean s k) : PartClean t k :=
  ⟨h.flips _ hc.1, h.flips _ hc.2.1, h.marked.trans hc.2.2⟩

theorem ReadsAs.keepsPart (h : ReadsAs s t) : KeepsPart k s t :=
  ⟨by rw [peekPart, h.mem, ← peekPart], fun _ hw => h.mem ▸ hw, congrFun h.marked k⟩

theorem keepsPart_refl (k : Nat) (s : State) : KeepsPart k s s := ReadsAs.keepsPart ⟨rfl, rfl⟩

theorem KeepsPart.reported (h : KeepsPart k s t) : KeepsPart k s (report t) := h.trans (readsAs_report t).keepsPart

theorem KeepsPart.latched (h : KeepsPart k s t) (f : FaultKind) (d : Nat) : KeepsPart k s (latch f d t) :=
  h.trans (ReadsAs.keepsPart ⟨rfl, rfl⟩)

theorem KeepsPart.held (h : KeepsPart k s t) (i : Nat) (x : TermHeld) : KeepsPart k s (setHeld i x t) :=
  h.trans (ReadsAs.keepsPart ⟨rfl, rfl⟩)

theorem KeepsPart.noted (h : KeepsPart k s t) (i : Nat) : KeepsPart k s (noteTerm i t) :=
  h.trans (ReadsAs.noted (s := t) (t := t) ⟨rfl, rfl⟩ i).keepsPart

/-! ### Reads of another part (R177) -/

theorem contains_setInsert_ne (h : n ≠ k) (l : List Nat) : (setInsert n l).contains k = l.contains k := by
  rw [Bool.eq_iff_iff, List.contains_iff_mem, List.contains_iff_mem, mem_setInsert]
  exact or_iff_right h.symm

theorem keepsPart_markUnreadable (h : n ≠ k) (s : State) : KeepsPart k s (markUnreadable n s) :=
  ⟨rfl, fun _ hw => hw, congrArg (· || s.guard.poisoned.contains k) (contains_setInsert_ne h s.mgmt.unreadable)⟩

theorem keepsPart_poison (h : n ≠ k) (s : State) :
    KeepsPart k s (s.setGuard { s.guard with poisoned := setInsert n s.guard.poisoned }) :=
  ⟨rfl, fun _ hw => hw, congrArg (s.mgmt.unreadable.contains k || ·) (contains_setInsert_ne h s.guard.poisoned)⟩

theorem keepsPart_storePart (h : n ≠ k) (d : Part) (s : State) : KeepsPart k s (storePart n d s) where
  content := by rw [peekPart, storePart, State.setMem_mem, store_cells, partData_putPart_ne _ _ _ _ h.symm, peekPart]
  flips w hw := by
    rw [storePart, State.setMem_mem, store_flips]
    exact wordFlips_freshWord_of (wordFlips_freshWord_of hw _) _
  marked := by rw [partMarked, storePart, State.setMem_mgmt, State.setMem_guard, partMarked]

theorem keepsPart_writeBack (h : w / 2 ≠ k) (f : WordFinding) (s : State) : KeepsPart k s (writeBack w f s) := by
  unfold writeBack
  split
  · refine ⟨?_, fun v hv => ?_, ?_⟩
    · rw [peekPart, State.setMem_mem, TableMem.storeWord, partData_putPart_ne _ _ _ _ h.symm, peekPart]
    · rw [State.setMem_mem, TableMem.storeWord]
      exact wordFlips_freshWord_of hv _
    · rw [partMarked, State.setMem_mgmt, State.setMem_guard, partMarked]
  · exact keepsPart_refl k s

theorem keepsPart_uncorrectablePart (h : n ≠ k) (s : State) : KeepsPart k s (uncorrectablePart n s).2 := by
  have hmark := keepsPart_markUnreadable h s
  unfold uncorrectablePart
  split
  · exact ((keepsPart_poison h s).latched _ _).reported
  · exact (keepsPart_storePart h _ s).latched _ _
  · split
    · exact keepsPart_refl k s
    · exact keepsPart_storePart h _ s
  · exact hmark.latched _ _
  · exact hmark.latched _ _
  · exact ((hmark.latched _ _).held _ _).reported
  · exact hmark.latched _ _

theorem keepsPart_readPart (h : n ≠ k) (s : State) : KeepsPart k s (readPart n s).2 := by
  have hcount : ∀ a b, KeepsPart k s (countWords a b s) := fun _ _ => ReadsAs.keepsPart ⟨rfl, rfl⟩
  have hback : ∀ a b f g, KeepsPart k s (writeBack (2 * n + 1) g (writeBack (2 * n) f (countWords a b s))) := fun a b f g =>
    ((hcount a b).trans (keepsPart_writeBack (by omega) f _)).trans (keepsPart_writeBack (by omega) g _)
  unfold readPart
  dsimp only
  split
  · exact (hcount _ _).trans (keepsPart_uncorrectablePart h _)
  · split
    · exact hback _ _ _ _
    · exact (hback _ _ _ _).trans (keepsPart_uncorrectablePart h _)

/-! ### Terms (R129) -/

theorem keepsPart_evalTerm {i : Nat} (h : termPart i ≠ k) (s : State) : KeepsPart k s (evalTerm i s) := by
  have hread := keepsPart_readPart h s
  unfold evalTerm
  split <;> rename_i heq <;> rw [heq] at hread
  · exact hread.noted i
  · exact (hread.held _ _).noted i

theorem keepsPart_evalTerms {l : List Nat} (h : ∀ i ∈ l, termPart i ≠ k) (s : State) : KeepsPart k s (evalTerms l s) := by
  unfold evalTerms
  induction l generalizing s with
  | nil => exact keepsPart_refl k s
  | cons i l ih =>
    exact (keepsPart_evalTerm (h i List.mem_cons_self) s).trans (ih (fun j hj => h j (List.mem_cons_of_mem _ hj)) _)

end Sys2Proof.Machine
end

section
/-! SUPPORT. The WRITE to the AXIS table (R150, R151, R152): which merged entries are valid beside readable others, and what the address
index holds for them. -/

namespace Sys2Proof.Machine

variable {s t : State} {i : Nat} {e : AxisRec} {role : Role} {x : Option AxisIdx}

/-! ### The other entries (R150) -/

/-- No axis entry is marked unreadable. -/
def AxesReadable (s : State) : Prop := ∀ j < 24, axisUnreadable s j = false

theorem mem_otherAxes (h : AxesReadable s) {k : AxisIdx} :
    k ∈ otherAxes i s ↔ ∃ j < 24, j ≠ i ∧ s.axis.index[j]?.join = some k := by
  rw [otherAxes, List.mem_filterMap]
  refine exists_congr fun j => ?_
  rw [List.mem_range]
  refine and_congr_right fun hj => ?_
  rw [h j hj]
  by_cases hi : j = i <;> simp [hi]

/-- The other entries of role COARSE, by their places in the table. -/
theorem length_otherCoarse (h : AxesReadable s) : ((otherAxes i s).filter fun k => k.role == .coarse).length =
    ((List.range 24).filter fun j => decide (j ≠ i ∧ (s.axis.index[j]?.join).map (·.role) = some .coarse)).length := by
  rw [otherAxes, List.filter_filterMap, List.length_filterMap_eq_countP, ← List.countP_eq_length_filter]
  refine List.countP_congr fun j hj => ?_
  rw [h j (List.mem_range.1 hj)]
  by_cases hi : j = i <;> cases s.axis.index[j]?.join <;> simp [hi]

/-! ### A valid entry (R149, R150) -/

/-- R149, R150: the parameters of a role, in the words of the statement. -/
def ParamsFit (role : Role) (a b : Nat) (c : Quad Int) : Prop :=
  role = .coarse ∧ 1 ≤ b ∧ b ≤ a ∧ a ≤ 2147483647 ∨
    role = .fineX ∧ c.x.natAbs ≤ a ∧ a ≤ 200000 ∧ 10 ≤ b ∧ b ≤ 20000 ∨
    role = .fineY ∧ c.y.natAbs ≤ a ∧ a ≤ 200000 ∧ 10 ≤ b ∧ b ≤ 20000 ∨
    role = .fineZ ∧ c.z.natAbs ≤ a ∧ a ≤ 200000 ∧ 10 ≤ b ∧ b ≤ 20000 ∨
    role = .fineW ∧ c.w.natAbs ≤ a ∧ a ≤ 1500 ∧ 1 ≤ b ∧ b ≤ 200 ∨
    role.station ≠ none ∧ 100 ≤ a ∧ a ≤ 60000 ∨ role = .sensor

theorem roleParamsValid_iff (role : Role) (a b : Nat) (c : Quad Int) :
    roleParamsValid role a b c = true ↔ ParamsFit role a b c := by
  cases role <;> simp [roleParamsValid, ParamsFit, Role.station] <;> omega

/-- R150: no other entry has the address or, but for COARSE and SENSOR, the role. -/
def OthersApart (s : State) (i addr : Nat) (role : Role) : Prop :=
  ∀ j k, j < 24 → j ≠ i → s.axis.index[j]?.join = some k →
    k.addr.toNat ≠ addr ∧ (role = .coarse ∨ role = .sensor ∨ k.role ≠ role)

/-- R150: at most seven others are COARSE. -/
def CoarseRoom (s : State) (i : Nat) (role : Role) : Prop :=
  role = .coarse → ((List.range 24).filter fun j => decide (j ≠ i ∧
    (s.axis.index[j]?.join).map (·.role) = some .coarse)).length ≤ 7

theorem roleFree_iff (role : Role) (l : List AxisIdx) : roleFree role l = true ↔
    (∀ k ∈ l, role = .coarse ∨ role = .sensor ∨ k.role ≠ role) ∧
      (role = .coarse → (l.filter fun k => k.role == .coarse).length ≤ 7) := by
  cases role <;> simp [roleFree]

theorem placeFree_iff (h : AxesReadable s) (addr : Nat) :
    (otherAxes i s).all (fun o => o.addr.toNat != addr) = true ∧ roleFree role (otherAxes i s) = true ↔
      OthersApart s i addr role ∧ CoarseRoom s i role := by
  rw [List.all_eq_true, roleFree_iff, length_otherCoarse h, ← and_assoc]
  refine and_congr_left fun _ => ?_
  simp only [bne_iff_ne, mem_otherAxes h]
  refine ⟨fun ⟨haddr, hrole⟩ j k hj hi hk => ⟨haddr k ⟨j, hj, hi, hk⟩, hrole k ⟨j, hj, hi, hk⟩⟩, fun hapart => ⟨?_, ?_⟩⟩
  · rintro k ⟨j, hj, hi, hk⟩
    exact (hapart j k hj hi hk).1
  · rintro k ⟨j, hj, hi, hk⟩
    exact (hapart j k hj hi hk).2

/-- R150: a merged entry is valid, of this role, and the address index is to hold `x` for it. -/
def EntryValid (s : State) (i : Nat) (e : AxisRec) (role : Role) (x : Option AxisIdx) : Prop :=
  e.present = 0 ∧ x = none ∨
    e.present = 1 ∧ 1 ≤ e.addr ∧ e.addr ≤ 126 ∧ e.addr ≠ s.ring.ownAddr.toNat ∧ roleOfCode e.role = some role ∧
      x = some { addr := BitVec.ofNat 8 e.addr, role := role } ∧ OthersApart s i e.addr role ∧ CoarseRoom s i role ∧
      ParamsFit role e.a e.b s.stab.c

theorem axisValid_present (h : AxesReadable s) (hp : e.present ≠ 0) : axisValid i e s = true ↔ ∃ role,
    roleOfCode e.role = some role ∧ e.present = 1 ∧ 1 ≤ e.addr ∧ e.addr ≤ 126 ∧ e.addr ≠ s.ring.ownAddr.toNat ∧
      OthersApart s i e.addr role ∧ CoarseRoom s i role ∧ ParamsFit role e.a e.b s.stab.c := by
  rw [axisValid, if_neg hp]
  cases roleOfCode e.role with
  | none => simp
  | some role =>
    have hfree := placeFree_iff (i := i) (role := role) h e.addr
    have hparams := roleParamsValid_iff role e.a e.b s.stab.c
    simp only [Bool.and_eq_true, beq_iff_eq, bne_iff_ne, decide_eq_true_eq, and_assoc, Option.some.injEq, exists_eq_left',
      hparams]
    rw [← and_assoc (c := ParamsFit _ _ _ _), hfree, and_assoc]

theorem axisValid_iff (h : AxesReadable s) : axisValid i e s = true ↔ ∃ role x, EntryValid s i e role x := by
  by_cases hp : e.present = 0
  · rw [axisValid, if_pos hp]
    exact iff_of_true rfl ⟨.sensor, none, .inl ⟨hp, rfl⟩⟩
  · rw [axisValid_present h hp]
    refine exists_congr fun role => ⟨?_, ?_⟩
    · rintro ⟨hrole, h1, hlo, hhi, hown, hrest⟩
      exact ⟨_, .inr ⟨h1, hlo, hhi, hown, hrole, rfl, hrest⟩⟩
    · rintro ⟨x, ⟨h0, -⟩ | ⟨h1, hlo, hhi, hown, hrole, -, hrest⟩⟩
      · exact absurd h0 hp
      · exact ⟨hrole, h1, hlo, hhi, hown, hrest⟩

/-! ### The address index (R152) -/

theorem EntryValid.indexOf (h : EntryValid s i e role x) : indexOf e = x := by
  rcases h with ⟨hp, rfl⟩ | ⟨hp, -, -, -, hrole, rfl, -⟩
  · rw [Machine.indexOf, if_neg (by omega)]
  · rw [Machine.indexOf, if_pos hp, hrole]
    rfl

/-- Beside readable entries none leaves the address index. -/
theorem newIndex_readable (h : AxesReadable s) : newIndex i e s = s.axis.index.setIfInBounds i (indexOf e) := by
  have hdrop : ∀ a, dropUnreadable i a s = s.axis.index := fun a => Vector.ext fun j hj => by
    rw [dropUnreadable, Vector.getElem_ofFn]
    simp only [Fin.getElem_fin, h j hj, Bool.and_false, Bool.false_and, Bool.false_eq_true, if_false]
    cases s.axis.index[j] <;> rfl
  rw [newIndex]
  cases indexOf e with
  | none => rfl
  | some k => exact congrArg (Vector.setIfInBounds · i (some k)) (hdrop k.addr)

end Sys2Proof.Machine
end

section
/-! SUPPORT. The WRITE to the AXIS table as a whole (R149 to R152, R167): the request and its reply, what an accepted WRITE leaves, and
the refusals. -/

namespace Sys2Proof.Machine

variable {s t : State} {who : Sender} {level : Nat} {part : BitVec 3} {index mask : Half} {data d m : Part} {i : Nat}
  {role : Role} {x : Option AxisIdx}

/-! ### The request and its reply (R167) -/

/-- The request of a WRITE to an axis entry's part. -/
def axisRequest (who : Sender) (part : BitVec 3) (index mask : Half) (data : Part) : Request :=
  requestFor who opWrite (selectorOf 3 part) index mask data

@[simp] theorem axisRequest_table : (axisRequest who part index mask data).table = 3 := selector_table 3 part
@[simp] theorem axisRequest_part : (axisRequest who part index mask data).part = part := selector_part 3 part
@[simp] theorem axisRequest_index : (axisRequest who part index mask data).index = index := rfl
@[simp] theorem axisRequest_mask : (axisRequest who part index mask data).mask = mask := rfl
@[simp] theorem axisRequest_data : (axisRequest who part index mask data).data = data := rfl
@[simp] theorem axisRequest_op : (axisRequest who part index mask data).op = opWrite := rfl

theorem axisTable_ok (part : BitVec 3) : tableOk opWrite ((selectorOf 3 part).extractLsb' 0 4).toNat = true := by
  rw [selector_table]
  rfl

theorem exec_writeAxis (h : Heard s who level) (hl : level ≤ 2) : exec (.writeAxis who part index mask data) s =
    .next (writeAxisTable (axisRequest who part index mask data) level (arrived .up s)) := by
  have ht : (axisRequest who part index mask data).table.toNat = 3 := by rw [axisRequest_table]; rfl
  refine (operate_performed s who level opWrite _ index mask data h rfl (axisTable_ok part) hl).trans (congrArg _ ?_)
  show opWriteExec (axisRequest who part index mask data) level (arrived .up s) = _
  rw [opWriteExec, ht]
  rfl

theorem placeOf_axis (hi : i < 24) : placeOf (axisPart i) = .axis i := by
  have hi' : axisPart i - 13 = i := by unfold axisPart; omega
  have hlo : 13 ≤ axisPart i := by unfold axisPart; omega
  have hhi : axisPart i < 37 := by unfold axisPart; omega
  rw [placeOf, if_neg (by omega), if_neg (by omega), if_pos hhi, hi']

/-- The reply of a WRITE to a clean axis part shows it. -/
theorem respond_axis (hi : index.toNat < 24) (hp : part = 0) (code : ReplyCode) (h : PartClean s (axisPart index.toNat)) :
    respond (axisRequest who part index mask data) code s = replied who 2 code 0 (peekPart s (axisPart index.toNat)) s := by
  have hn : partNumber 3 index.toNat 0 = some (axisPart index.toNat) := by simp [partNumber, hi]
  have h3 : (axisRequest who part index mask data).table.toNat = 3 := by rw [axisRequest_table]; rfl
  have h0 : (axisRequest who part index mask data).part.toNat = 0 := by rw [axisRequest_part, hp]; rfl
  have hw : writtenPart (axisPart index.toNat) s = (peekPart s (axisPart index.toNat), s) := by
    rw [writtenPart, h.2.2, if_neg Bool.false_ne_true, readPart_clean _ _ h]
    simp only [shownPart, placeOf_axis hi]
    rfl
  rw [respond_write axisRequest_op, writeShown, h3, h0, axisRequest_index, hn]
  simp only [hw, partStatus, placeOf_axis hi, unreadableBit, contains_of_partClean h]
  rfl

/-- A WRITE beyond the table shows zeros. -/
theorem respond_axis_beyond (hi : 24 ≤ index.toNat) (hp : part = 0) (code : ReplyCode) (s : State) :
    respond (axisRequest who part index mask data) code s = replied who 2 code 0 0 s := by
  have hlt : ¬ index.toNat < 24 := Nat.not_lt.2 hi
  have hn : partNumber 3 index.toNat 0 = none := by simp [partNumber, hlt]
  have h3 : (axisRequest who part index mask data).table.toNat = 3 := by rw [axisRequest_table]; rfl
  have h0 : (axisRequest who part index mask data).part.toNat = 0 := by rw [axisRequest_part, hp]; rfl
  have hcounters : ¬ (decide ((axisRequest who part index mask data).table = 2) && decide (5 ≤ 0)) = true := by simp
  have hfeedback : ¬ (decide ((axisRequest who part index mask data).table = 3) &&
      decide ((axisRequest who part index mask data).part = 1) && decide (index.toNat < 24)) = true := by simp [hlt]
  rw [respond_write axisRequest_op, writeShown, h3, h0, axisRequest_index, hn]
  dsimp only
  rw [if_neg hcounters, if_neg hfeedback]
  rfl

/-! ### The judgement (R150, R151) -/

theorem writeAxis_level (hl : 1 < level) (r : Request) (s : State) : writeAxisTable r level s = respond r .refusedLevel s :=
  if_pos hl

theorem writeAxis_mode (hl : level ≤ 1) (hm : s.ctl.mode ≠ .standby) (r : Request) :
    writeAxisTable r level s = respond r .refusedMode s :=
  (if_neg (Nat.not_lt.2 hl)).trans (if_pos hm)

theorem writeAxis_index (hl : level ≤ 1) (hm : s.ctl.mode = .standby) {r : Request} (hi : 24 ≤ r.index.toNat) :
    writeAxisTable r level s = respond r .badIndex s := by
  rw [writeAxisTable, if_neg (Nat.not_lt.2 hl), if_neg (not_not.2 hm)]
  simp [hi]

/-- In STANDBY the merged entry is judged, and taken when it is valid. -/
theorem writeAxis_judged (hl : level ≤ 1) (hm : s.ctl.mode = .standby) (hi : index.toNat < 24) (hp : part = 0)
    (hc : PartClean s (axisPart index.toNat)) : writeAxisTable (axisRequest who part index mask data) level s =
      if axisValid index.toNat (axisRec (mergedWith s (axisPart index.toNat) data mask)) s then
        respond (axisRequest who part index mask data) .ok
          (storeMerged (axisRequest who part index mask data) (axisPart index.toNat)
            (mergedWith s (axisPart index.toNat) data mask)
            (axisAccepted index.toNat (axisRec (mergedWith s (axisPart index.toNat) data mask))) s)
      else respond (axisRequest who part index mask data) .badValue s := by
  have hnamed : ¬ (decide (24 ≤ index.toNat) || decide (part ≠ 0)) = true := by simp [hi, hp]
  rw [writeAxisTable, axisRequest_index, axisRequest_part, if_neg (Nat.not_lt.2 hl), if_neg (not_not.2 hm), if_neg hnamed]
  simp only [axisRequest_mask, axisRequest_data, readForMerge_clean hc]

/-! ### What an accepted WRITE leaves (R151, R152, R154, R157) -/

/-- The axis table side after an accepted WRITE of entry `i`, for which the address index is to hold `x`. -/
def axisTaken (i : Nat) (x : Option AxisIdx) (a : Axis) : Axis :=
  let b := { a with index := a.index.setIfInBounds i x }
  if a.index[i]?.join = x then b
  else { b with feedback := b.feedback.setIfInBounds i Feedback.initial, lastFwd := b.lastFwd.setIfInBounds i none }

theorem axisTaken_same {a : Axis} (h : a.index[i]?.join = x) :
    axisTaken i x a = { a with index := a.index.setIfInBounds i x } := if_pos h

theorem axisTaken_changed {a : Axis} (h : a.index[i]?.join ≠ x) : axisTaken i x a = { a with
    index := a.index.setIfInBounds i x
    feedback := a.feedback.setIfInBounds i Feedback.initial
    lastFwd := a.lastFwd.setIfInBounds i none } := if_neg h

theorem axisTaken_rest (i : Nat) (x : Option AxisIdx) (a : Axis) : (axisTaken i x a).index = a.index.setIfInBounds i x ∧
    (axisTaken i x a).slot = a.slot ∧ (axisTaken i x a).missing = a.missing := by
  by_cases h : a.index[i]?.join = x
  · rw [axisTaken_same h]
    exact ⟨rfl, rfl, rfl⟩
  · rw [axisTaken_changed h]
    exact ⟨rfl, rfl, rfl⟩

theorem axisAccepted_eq {e : AxisRec} (h : AxesReadable s) (hv : EntryValid s i e role x) :
    ∃ l, axisAccepted i e s = evalTerms l (s.setAxis (axisTaken i x s.axis)) := by
  rw [axisAccepted, newIndex_readable h, hv.indexOf, axisTaken]
  refine ⟨_, congrArg (evalTerms _) ?_⟩
  split <;> rfl

theorem readable_storeAccepted (h : AxesReadable s) (n : Nat) (d : Part) : AxesReadable (storeAccepted n d s) := fun j hj => by
  by_cases hn : axisPart j = n
  · rw [← hn]
    exact (Bool.or_eq_false_iff.1 (storeAccepted_marked (axisPart j) d s)).1
  · exact (unreadable_storeAccepted hn d s).trans (h j hj)

/-- An entry has been stored and taken. -/
structure EntryTaken (i : Nat) (m : Part) (x : Option AxisIdx) (s t : State) : Prop where
  part : peekPart t (axisPart i) = m &&& usedBits (.axis i)
  clean : PartClean t (axisPart i)
  axis : t.axis = axisTaken i x s.axis
  stab : t.stab = s.stab
  plan : t.plan = s.plan
  track : t.track = s.track
  params : t.params = s.params
  mode : t.ctl.mode = .standby
  replies : t.mgmt.replies = s.mgmt.replies

theorem entryTaken_accepted (hi : i < 24) (hc : MemoryCanonical s) (hm : s.ctl.mode = .standby) (h : AxesReadable s)
    (hvalid : EntryValid s i (axisRec m) role x) :
    EntryTaken i m x s (axisAccepted i (axisRec m) (storeAccepted (axisPart i) m s)) := by
  have hst := stores_storeAccepted (axisPart i) m hc
  have hstored := undisturbed_storeAccepted (axisPart i) m s
  have hctl := ctl_storeAccepted (axisPart i) m s
  have hstoredReplies := replies_storeAccepted (axisPart i) m s
  have hreadable := readable_storeAccepted h (axisPart i) m
  rw [placeOf_axis hi] at hst
  generalize storeAccepted (axisPart i) m s = u at *
  have hvu : EntryValid u i (axisRec m) role x := by
    unfold EntryValid OthersApart CoarseRoom
    rw [hstored.axis, hstored.ring, hstored.stab]
    exact hvalid
  obtain ⟨l, hl⟩ := axisAccepted_eq hreadable hvu
  obtain ⟨v, hv⟩ : ∃ v, v = u.setAxis (axisTaken i x u.axis) := ⟨_, rfl⟩
  have hclean : PartClean v (axisPart i) := hv ▸ hst.partClean
  have hmode : v.ctl.mode = .standby := hv ▸ (congrArg Ctl.mode hctl).trans hm
  have hother : ∀ j ∈ l, termPart j ≠ axisPart i := fun j _ => by unfold termPart axisPart; omega
  have hkeeps := keepsPart_evalTerms hother v
  obtain ⟨-, -, -, haxis, hstab, hplan, htrack, hparams, -⟩ := (quiet_eq _ _).1 (quiet_evalTerms l v)
  obtain ⟨hreplies, -⟩ := (mail_eq _ _).1 (mail_evalTerms l v)
  rw [hl, ← hv]
  refine ⟨hkeeps.content.trans (hv ▸ hst.part), hkeeps.partClean hclean, ?_, hstab.trans (hv ▸ hstored.stab),
    hplan.trans (hv ▸ hstored.plan), htrack.trans (hv ▸ hstored.track), hparams.trans (hv ▸ hstored.params), ?_,
    hreplies.trans (hv ▸ hstoredReplies)⟩
  · rw [haxis, hv, State.setAxis_axis, hstored.axis]
  cases mayHold_evalTerms l v with
  | stays mode => exact mode.trans hmode
  | holds free => rw [hmode] at free; cases free

/-! ### The ends of the WRITE -/

section Heard

variable (h : Heard s who level) (hp : part = 0)
include h hp

theorem exec_writeAxis_beyond (hl : level ≤ 1) (hm : s.ctl.mode = .standby) (hi : 24 ≤ index.toNat) :
    exec (.writeAxis who part index mask data) s = .next (replied who 2 .badIndex 0 0 (arrived .up s)) := by
  rw [exec_writeAxis h (Nat.le_succ_of_le hl),
    writeAxis_index (s := arrived .up s) (r := axisRequest who part index mask data) hl hm hi, respond_axis_beyond hi hp]

variable (hi : index.toNat < 24) (hc : PartClean s (axisPart index.toNat))
include hi hc

/-- Above level 2 the order of judgement refuses the request, else the level test of the AXIS table. -/
theorem exec_writeAxis_level (hl : 1 < level) : exec (.writeAxis who part index mask data) s =
    .next (replied who 2 .refusedLevel 0 (peekPart s (axisPart index.toNat)) (arrived .up s)) := by
  refine Eq.trans ?_ (congrArg _ (respond_axis (s := arrived .up s) (mask := mask) (data := data) hi hp .refusedLevel hc))
  rcases Nat.lt_or_ge 2 level with h2 | h2
  · exact operate_refused h _ index mask data rfl (axisTable_ok part) h2
  · exact (exec_writeAxis h h2).trans (congrArg _ (writeAxis_level hl _ _))

theorem exec_writeAxis_mode (hl : level ≤ 1) (hm : s.ctl.mode ≠ .standby) : exec (.writeAxis who part index mask data) s =
    .next (replied who 2 .refusedMode 0 (peekPart s (axisPart index.toNat)) (arrived .up s)) := by
  rw [exec_writeAxis h (Nat.le_succ_of_le hl), writeAxis_mode (s := arrived .up s) hl hm]
  exact congrArg _ (respond_axis (s := arrived .up s) hi hp .refusedMode hc)

variable (hl : level ≤ 1) (hm : s.ctl.mode = .standby) (ha : AxesReadable s)
include hl hm ha

theorem exec_writeAxis_invalid
    (hv : ∀ role x, ¬ EntryValid s index.toNat (axisRec (mergedWith s (axisPart index.toNat) data mask)) role x) :
    exec (.writeAxis who part index mask data) s =
      .next (replied who 2 .badValue 0 (peekPart s (axisPart index.toNat)) (arrived .up s)) := by
  have hinvalid : ¬ axisValid index.toNat (axisRec (mergedWith s (axisPart index.toNat) data mask)) (arrived .up s) = true :=
    fun hvalid => by
      obtain ⟨role, x, hrx⟩ := (axisValid_iff (s := arrived .up s) ha).1 hvalid
      exact hv role x hrx
  rw [exec_writeAxis h (Nat.le_succ_of_le hl), writeAxis_judged (s := arrived .up s) hl hm hi hp hc, mergedWith_arrived,
    if_neg hinvalid]
  exact congrArg _ (respond_axis (s := arrived .up s) hi hp .badValue hc)

theorem exec_writeAxis_accepted (hcan : MemoryCanonical s) (hmask : mask ≠ 0)
    (hd : m = mergedWith s (axisPart index.toNat) data mask) (hv : EntryValid s index.toNat (axisRec m) role x) :
    ∃ t, exec (.writeAxis who part index mask data) s =
        .next (replied who 2 .ok 0 (m &&& usedBits (.axis index.toNat)) t) ∧
      EntryTaken index.toNat m x (arrived .up s) t := by
  subst hd
  have hvalid : axisValid index.toNat (axisRec (mergedWith s (axisPart index.toNat) data mask)) (arrived .up s) = true :=
    (axisValid_iff (s := arrived .up s) ha).2 ⟨role, x, hv⟩
  have htaken := entryTaken_accepted (s := arrived .up s) hi hcan hm ha hv
  rw [exec_writeAxis h (Nat.le_succ_of_le hl), writeAxis_judged (s := arrived .up s) hl hm hi hp hc, mergedWith_arrived,
    if_pos hvalid, storeMerged, axisRequest_mask, if_neg hmask]
  exact ⟨_, congrArg _ ((respond_axis hi hp .ok htaken.clean).trans (by rw [htaken.part])), htaken⟩

end Heard

/-- Settles O46: the WRITE is refused for its level, its mode or its index, or comes to the validation of the merged entry. -/
theorem writeAxisTakesTheEntryInStandby : Obligations.WriteAxisTakesTheEntryInStandby := by
  rintro s who level part index mask data m e role x valid h hcan hc ha hm rfl hvalid
  replace hvalid : ∀ role x, valid role x ↔ EntryValid s index.toNat (axisRec m) role x := hvalid
  refine ⟨fun hi hp hl hmode hmask hv => ?_, fun hl hmode hi hp => ?_, fun hl hi hp => ?_, fun hl hmode hi hp hv => ?_,
    fun hl hmode hi hp => ?_⟩
  · obtain ⟨t, he, htaken⟩ := exec_writeAxis_accepted h hp hi hc hl hmode ha hcan hmask hm ((hvalid role x).1 hv)
    have haxis : t.axis = axisTaken index.toNat x s.axis := htaken.axis
    obtain ⟨hindex, hslot, hmissing⟩ := axisTaken_rest index.toNat x s.axis
    rw [← haxis] at hindex hslot hmissing
    refine ⟨t, he, htaken.part, hindex, fun hsame => ?_, fun hchanged => ?_, hslot, hmissing, htaken.stab, htaken.plan,
      htaken.track, htaken.params, htaken.mode, htaken.replies⟩
    · rw [haxis, axisTaken_same hsame]
      exact ⟨rfl, rfl⟩
    · rw [haxis, axisTaken_changed hchanged]
      exact ⟨rfl, rfl⟩
  · exact exec_writeAxis_mode h hp hi hc hl hmode
  · exact exec_writeAxis_level h hp hi hc hl
  · exact exec_writeAxis_invalid h hp hi hc hl hmode ha fun role x hr => hv role x ((hvalid role x).2 (hm ▸ hr))
  · exact exec_writeAxis_beyond h hp hl hmode hi

end Sys2Proof.Machine
end

section
/-! SUPPORT. Which part of table memory a number names (section 10.8), and the parts
that a request's table, index and part name. -/

namespace Sys2Proof.Machine

variable {i p k table index part n : Nat}

theorem placeOf_origin (hi : i < 8) : placeOf i = .origin i := if_pos hi

theorem placeOf_param (hp : p < 5) : placeOf (paramPart p) = .param p := by
  have hp' : paramPart p - 8 = p := by unfold paramPart; omega
  have hlo : 8 ≤ paramPart p := by unfold paramPart; omega
  have hhi : paramPart p < 13 := by unfold paramPart; omega
  rw [placeOf, if_neg (by omega), if_pos hhi, hp']

theorem placeOf_plan (k : Nat) : placeOf (planPart k) = .plan k := by
  have hk : planPart k - 709 = k := by unfold planPart; omega
  have hlo : 709 ≤ planPart k := by unfold planPart; omega
  rw [placeOf, if_neg (by omega), if_neg (by omega), if_neg (by omega), if_neg (by omega), if_neg (by omega),
    if_neg (by omega), hk]

theorem partNumber_origin (hi : index < 8) : partNumber 1 index 0 = some index := by simp [partNumber, hi, originPart]

theorem partNumber_param (hp : part < 5) : partNumber 2 0 part = some (paramPart part) := by simp [partNumber, hp]

theorem partNumber_axis (hi : index < 24) : partNumber 3 index 0 = some (axisPart index) := by simp [partNumber, hi]

theorem partNumber_term (hi : index < 32) : partNumber 4 index 0 = some (termPart index) := by simp [partNumber, hi]

theorem partNumber_zone (hi : index < 64) (hp : part < 2) : partNumber 5 index part = some (zonePart index part) := by
  simp [partNumber, hi, hp]

theorem partNumber_course (hi : index < 256) (hp : part < 2) : partNumber 6 index part = some (coursePart index part) := by
  simp [partNumber, hi, hp]

/-- A part of table memory is no queue position, no page of counters and no page of feedback. -/
theorem partNumber_some (h : partNumber table index part = some n) :
    table ≠ 7 ∧ (table = 2 → part < 5) ∧ (table = 3 → part = 0) := by
  refine ⟨?_, ?_, ?_⟩ <;> rintro rfl <;> simp [partNumber] at h
  · exact h.1.2
  · exact h.1.2

end Sys2Proof.Machine
end

section
/-! SUPPORT. Errors of table memory (R177, log entry 8): a bit flipped is a
membership turned over in the set of flipped bits. -/

namespace Sys2Proof.Machine

variable {part word bit : Nat}

/-- A toggle turns over the membership of one number and leaves every other. -/
theorem mem_setToggle (n k : Nat) (l : List Nat) : k ∈ setToggle n l ↔ (k ∈ l ↔ k ≠ n) := by
  rw [setToggle]
  split <;> rename_i hn
  · have hmem : n ∈ l := List.contains_iff_mem.1 hn
    rw [mem_setErase]
    by_cases hk : k = n
    · simp [hk, hmem]
    · simp [hk]
  · have hmem : n ∉ l := fun h => hn (List.contains_iff_mem.2 h)
    rw [mem_setInsert]
    by_cases hk : k = n
    · simp [hk, hmem]
    · simp [hk]

/-- A bit of a word that exists flips. -/
theorem exec_tableMemoryError {second : Option Nat} (hp : part < 4814) (hw : word < 2) (hb : bit < 72)
    (h2 : ∀ b, second = some b → b < 72) (s : State) :
    exec (.tableMemoryError part word bit second) s = .next (flipBits part word bit second s) := by
  have hpart : part < partCount := hp
  refine if_pos ?_
  cases second with
  | none => simp [bitsExist, hpart, hw, hb]
  | some b => simp [bitsExist, hpart, hw, hb, h2 b rfl]

theorem not_bitsExist {other : Nat} (h : 4814 ≤ other) (second : Option Nat) : bitsExist other word bit second = false := by
  have hpart : ¬ other < partCount := Nat.not_lt.2 h
  simp only [bitsExist, hpart, decide_false, Bool.false_and]

/-- Settles O60: each named bit is one toggle; of two different bits of a word both turn over. -/
theorem tableMemoryErrorFlipsBits : Obligations.TableMemoryErrorFlipsBits := by
  intro s part word bit hcan hp hw hb
  refine ⟨⟨_, exec_tableMemoryError hp hw hb (by simp) s, rfl, setWf_setToggle _ _ hcan.2,
      fun k => mem_setToggle _ k _⟩, fun b hb2 hne => ?_, fun other ho second => ?_⟩
  · refine ⟨_, exec_tableMemoryError hp hw hb (fun _ h => (Option.some.inj h) ▸ hb2) s, rfl,
      setWf_setToggle _ _ (setWf_setToggle _ _ hcan.2), fun k => ?_⟩
    have hapart : (2 * part + word) * 72 + b ≠ (2 * part + word) * 72 + bit := by omega
    refine (mem_setToggle _ k _).trans ?_
    rw [mem_setToggle, bitNumber, bitNumber]
    by_cases h1 : k = (2 * part + word) * 72 + bit
    · simp [h1, hne.symm]
    · simp [h1]
  · exact if_neg (by rw [not_bitsExist ho]; exact Bool.false_ne_true)

end Sys2Proof.Machine
end

section
/-! SUPPORT. The WRITE to the ORIGIN table (R162, R164, R167): which merged entries are valid beside readable
others, the reply, and the judgement. -/

namespace Sys2Proof.Machine

variable {s : State} {who : Sender} {level : Nat} {part : BitVec 3} {index mask : Half} {data m : Part} {i : Nat}

/-! ### A valid entry (R162) -/

/-- The part of another present origin entry. -/
def OtherOrigin (s : State) (i j : Nat) : Prop := j < 8 ∧ j ≠ i ∧ (originRec (peekPart s j)).present = 1

/-- Another present origin entry has level 0. -/
def LevelZeroElsewhere (s : State) (i : Nat) : Prop := ∃ j, OtherOrigin s i j ∧ (originRec (peekPart s j)).level = 0

/-- R162: a merged entry in its ranges, at an address of its own, that keeps a present entry of level 0. -/
def OriginFits (s : State) (i : Nat) (o : OriginRec) : Prop :=
  (o.present = 0 ∧ LevelZeroElsewhere s i) ∨
    (o.present = 1 ∧ 1 ≤ o.addr ∧ o.addr ≤ 126 ∧ o.addr ≠ s.ring.ownAddr.toNat ∧
      (∀ j, OtherOrigin s i j → (originRec (peekPart s j)).addr ≠ o.addr) ∧ o.level ≤ 2 ∧
      (o.level = 0 ∨ LevelZeroElsewhere s i))

/-- Where the origin parts are clean, the others are the present ones. -/
theorem mem_otherOrigins (h : ∀ j < 8, PartClean s (originPart j)) {k : OriginRec} :
    k ∈ otherOrigins i s ↔ ∃ j, OtherOrigin s i j ∧ originRec (peekPart s j) = k := by
  simp only [otherOrigins, List.mem_filter, List.mem_map, List.mem_range, Bool.and_eq_true, bne_iff_ne, Bool.not_eq_true',
    beq_iff_eq]
  constructor
  · rintro ⟨⟨j, ⟨hj, hi, -⟩, rfl⟩, hp⟩
    exact ⟨j, ⟨hj, hi, hp⟩, rfl⟩
  · rintro ⟨j, ⟨hj, hi, hp⟩, rfl⟩
    exact ⟨⟨j, ⟨hj, hi, contains_of_partClean (h j hj)⟩, rfl⟩, hp⟩

theorem originValid_iff (h : ∀ j < 8, PartClean s (originPart j)) (o : OriginRec) :
    originValid i o s = true ↔ OriginFits s i o := by
  have hzero : (otherOrigins i s).any (fun k => k.level == 0) = true ↔ LevelZeroElsewhere s i := by
    simp only [List.any_eq_true, mem_otherOrigins h, beq_iff_eq]
    exact ⟨fun ⟨_, ⟨j, hj, he⟩, hk⟩ => ⟨j, hj, he ▸ hk⟩, fun ⟨j, hj, hk⟩ => ⟨_, ⟨j, hj, rfl⟩, hk⟩⟩
  have hapart : (otherOrigins i s).all (fun k => k.addr != o.addr) = true ↔
      ∀ j, OtherOrigin s i j → (originRec (peekPart s j)).addr ≠ o.addr := by
    simp only [List.all_eq_true, mem_otherOrigins h, bne_iff_ne]
    exact ⟨fun hall j hj => hall _ ⟨j, hj, rfl⟩, fun hall _ ⟨j, hj, he⟩ => he ▸ hall j hj⟩
  rw [originValid]
  by_cases hp : o.present = 0
  · rw [if_pos hp, hzero, OriginFits]
    exact ⟨fun hz => .inl ⟨hp, hz⟩, fun hf => hf.elim And.right fun h1 => absurd (hp.symm.trans h1.1) (by decide)⟩
  · rw [if_neg hp]
    simp only [Bool.and_eq_true, Bool.or_eq_true, beq_iff_eq, bne_iff_ne, decide_eq_true_eq, hapart, hzero, and_assoc]
    exact ⟨.inr, fun hf => hf.resolve_left fun h0 => hp h0.1⟩

/-! ### The request and its reply (R167) -/

/-- The request of a WRITE to an origin entry's part. -/
def originRequest (who : Sender) (part : BitVec 3) (index mask : Half) (data : Part) : Request :=
  requestFor who opWrite (selectorOf 1 part) index mask data

@[simp] theorem originRequest_table : (originRequest who part index mask data).table = 1 := selector_table 1 part
@[simp] theorem originRequest_part : (originRequest who part index mask data).part = part := selector_part 1 part
@[simp] theorem originRequest_index : (originRequest who part index mask data).index = index := rfl
@[simp] theorem originRequest_mask : (originRequest who part index mask data).mask = mask := rfl
@[simp] theorem originRequest_op : (originRequest who part index mask data).op = opWrite := rfl

theorem exec_writeOrigin (h : Heard s who level) (hl : level ≤ 2) : exec (.writeOrigin who part index mask data) s =
    .next (writeOriginTable (originRequest who part index mask data) level (arrived .up s)) := by
  have htable : tableOk opWrite ((selectorOf 1 part).extractLsb' 0 4).toNat = true := by rw [selector_table]; rfl
  have ht : (originRequest who part index mask data).table.toNat = 1 := by rw [originRequest_table]; rfl
  refine (operate_performed s who level opWrite _ index mask data h rfl htable hl).trans (congrArg _ ?_)
  show opWriteExec (originRequest who part index mask data) level (arrived .up s) = _
  rw [opWriteExec, ht]
  rfl

/-- The reply of a WRITE to a clean origin part shows it. -/
theorem respond_origin (hi : index.toNat < 8) (hp : part = 0) (code : ReplyCode) (h : PartClean s index.toNat) :
    respond (originRequest who part index mask data) code s = replied who 2 code 0 (peekPart s index.toNat) s := by
  have hn : partNumber 1 index.toNat 0 = some index.toNat := partNumber_origin hi
  have h1 : (originRequest who part index mask data).table.toNat = 1 := by rw [originRequest_table]; rfl
  have h0 : (originRequest who part index mask data).part.toNat = 0 := by rw [originRequest_part, hp]; rfl
  have hw : writtenPart index.toNat s = (peekPart s index.toNat, s) := by
    rw [writtenPart, h.2.2, if_neg Bool.false_ne_true, readPart_clean _ _ h]
    simp only [shownPart, placeOf_origin hi]
    rfl
  rw [respond_write originRequest_op, writeShown, h1, h0, originRequest_index, hn]
  simp only [hw, partStatus, placeOf_origin hi, unreadableBit, contains_of_partClean h]
  rfl

/-- A WRITE to no part of the table shows zeros. -/
theorem respond_origin_beyond (hbad : 8 ≤ index.toNat ∨ part ≠ 0) (code : ReplyCode) (s : State) :
    respond (originRequest who part index mask data) code s = replied who 2 code 0 0 s := by
  have hne : ¬ (decide (index.toNat < 8) && decide (part.toNat = 0)) = true := fun he => by
    obtain ⟨hi, hp⟩ := (Bool.and_eq_true _ _).mp he
    rcases hbad with hb | hb
    · exact Nat.not_le.2 (of_decide_eq_true hi) hb
    · exact hb (BitVec.eq_of_toNat_eq (of_decide_eq_true hp))
  have hn : partNumber 1 index.toNat part.toNat = none := if_neg hne
  have h1 : (originRequest who part index mask data).table.toNat = 1 := by rw [originRequest_table]; rfl
  rw [respond_write originRequest_op, writeShown, h1, originRequest_index, originRequest_part, hn, originRequest_table]
  rfl

/-! ### The judgement (R162, R164) -/

theorem writeOrigin_beyond {r : Request} (hbad : 8 ≤ r.index.toNat ∨ r.part ≠ 0) :
    writeOriginTable r level s = respond r .badIndex s :=
  if_pos (by simpa using hbad)

section Named

variable {r : Request} (hi : r.index.toNat < 8) (hp : r.part = 0)
include hi hp

theorem origin_named : ¬ (decide (8 ≤ r.index.toNat) || decide (r.part ≠ 0)) = true := by simp [hi, hp]

theorem writeOrigin_level (hl : 0 < level) : writeOriginTable r level s = respond r .refusedLevel s :=
  (if_neg (origin_named hi hp)).trans (if_pos hl)

/-- At level 0 the merged entry is judged, and stored when it is valid. -/
theorem writeOrigin_judged (hc : PartClean s r.index.toNat) : writeOriginTable r 0 s =
    if originValid r.index.toNat (originRec (mergedWith s r.index.toNat r.data r.mask)) s then
      respond r .ok (storeMerged r r.index.toNat (mergedWith s r.index.toNat r.data r.mask) id s)
    else respond r .badValue s := by
  rw [writeOriginTable, if_neg (origin_named hi hp), if_neg (Nat.lt_irrefl 0), originPart, readForMerge_clean hc]

end Named

/-! ### The ends of the WRITE -/

section Heard

variable (h : Heard s who level) (hi : index.toNat < 8) (hp : part = 0)
include h hi hp

theorem exec_writeOrigin_level (hl : level ≤ 2) (h0 : 0 < level) : exec (.writeOrigin who part index mask data) s =
    .next (replied who 2 .refusedLevel 0 (peekPart s index.toNat) (arrived .up s)) := by
  rw [exec_writeOrigin h hl, writeOrigin_level hi (originRequest_part.trans hp) h0]
  exact congrArg _ (respond_origin (s := arrived .up s) hi hp _ (h.clean _ hi))

variable (hl : level = 0)
include hl

theorem exec_writeOrigin_invalid (hv : ¬ OriginFits s index.toNat (originRec (mergedWith s index.toNat data mask))) :
    exec (.writeOrigin who part index mask data) s =
      .next (replied who 2 .badValue 0 (peekPart s index.toNat) (arrived .up s)) := by
  subst hl
  have hinvalid := mt (originValid_iff (s := arrived .up s) h.clean _).1 hv
  rw [exec_writeOrigin h (Nat.zero_le _),
    writeOrigin_judged (s := arrived .up s) hi (originRequest_part.trans hp) (h.clean _ hi)]
  exact congrArg _ ((if_neg hinvalid).trans (respond_origin (s := arrived .up s) hi hp _ (h.clean _ hi)))

variable (hv : OriginFits s index.toNat (originRec (mergedWith s index.toNat data mask)))
include hv

theorem exec_writeOrigin_valid : exec (.writeOrigin who part index mask data) s =
    .next (respond (originRequest who part index mask data) .ok
      (storeMerged (originRequest who part index mask data) index.toNat (mergedWith s index.toNat data mask) id
        (arrived .up s))) := by
  subst hl
  have hvalid := (originValid_iff (s := arrived .up s) h.clean _).2 hv
  rw [exec_writeOrigin h (Nat.zero_le _),
    writeOrigin_judged (s := arrived .up s) hi (originRequest_part.trans hp) (h.clean _ hi)]
  exact congrArg _ (if_pos hvalid)

theorem exec_writeOrigin_zeroMask (hm : mask = 0) : exec (.writeOrigin who part index mask data) s =
    .next (replied who 2 .ok 0 (peekPart s index.toNat) (arrived .up s)) := by
  rw [exec_writeOrigin_valid h hi hp hl hv, storeMerged, originRequest_mask, if_pos hm]
  exact congrArg _ (respond_origin (s := arrived .up s) hi hp _ (h.clean _ hi))

theorem exec_writeOrigin_stored (hcan : MemoryCanonical s) (hm : mask ≠ 0) :
    ∃ t, exec (.writeOrigin who part index mask data) s =
        .next (replied who 2 .ok 0 (mergedWith s index.toNat data mask &&& usedBits (.origin index.toNat)) t) ∧
      Stores index.toNat (mergedWith s index.toNat data mask &&& usedBits (.origin index.toNat)) (arrived .up s) t := by
  have hst := stores_storeAccepted (s := arrived .up s) index.toNat (mergedWith s index.toNat data mask) hcan
  rw [placeOf_origin hi] at hst
  rw [exec_writeOrigin_valid h hi hp hl hv, storeMerged, originRequest_mask, if_neg hm, id]
  exact ⟨_, congrArg _ ((respond_origin hi hp _ hst.partClean).trans (by rw [hst.part])), hst⟩

end Heard

/-- Settles O43: the index, then the level, then the validity of the merged entry decides. -/
theorem writeOriginKeepsALevelZeroOrigin : Obligations.WriteOriginKeepsALevelZeroOrigin := by
  rintro s who level part index mask data m o other valid h hl hcan rfl rfl hother hvalid
  obtain rfl : other = OtherOrigin s index.toNat := funext fun j => propext (hother j)
  replace hvalid : valid ↔ OriginFits s index.toNat (originRec (mergedWith s index.toNat data mask)) := hvalid
  rw [hvalid]
  refine ⟨fun hi hp h0 hv hm => exec_writeOrigin_stored h hi hp h0 hv hcan hm,
    fun hi hp h0 hv hm => exec_writeOrigin_zeroMask h hi hp h0 hv hm,
    fun hi hp h0 hv => exec_writeOrigin_invalid h hi hp h0 hv,
    fun hi hp h0 => exec_writeOrigin_level h hi hp hl h0, fun hbad => ?_⟩
  rw [exec_writeOrigin h hl, writeOrigin_beyond (hbad.imp_right fun hp => originRequest_part.symm ▸ hp),
    respond_origin_beyond hbad]

end Sys2Proof.Machine
end

section
/-! SUPPORT. READ (R169) of a part of table memory and of a position of the plan queue (R16), with the flags of
the part's owner. -/

namespace Sys2Proof.Machine

variable {s : State} {who : Sender} {level n i p : Nat} {table : BitVec 4} {part : BitVec 3} {index : Half}

/-! ### The flags of the owners (section 12.2) -/

theorem unreadableBit_clean (h : PartClean s n) : unreadableBit s n = 0 := by
  rw [unreadableBit, contains_of_partClean h]
  rfl

theorem termFlags_value (h : PartClean s (termPart i)) : termFlags s i =
    match (termHeld s i).value with | .isFalse => 0x00 | .isTrue => 0x10 | .unknown => 0x20 := by
  rw [termFlags_clean h]
  cases (termHeld s i).value <;> rfl

theorem planFlags_eq (e : QueueEntry) : planFlags e = BitVec.ofNat 8 (e.reissue + if e.failed then 16 else 0) := rfl

theorem partStatus_origin (hi : i < 8) (h : PartClean s i) : partStatus s i = 0 := by
  rw [partStatus, placeOf_origin hi]
  exact unreadableBit_clean h

theorem partStatus_param (hp : p < 5) : partStatus s (paramPart p) = 0 := by rw [partStatus, placeOf_param hp]

theorem partStatus_axis (hi : i < 24) : partStatus s (axisPart i) = unreadableBit s (axisPart i) := by
  rw [partStatus, placeOf_axis hi]

theorem partStatus_term (hi : i < 32) : partStatus s (termPart i) = termFlags s i := by rw [partStatus, placeOf_term hi]

theorem partStatus_zone (hi : i < 64) (hp : p < 2) : partStatus s (zonePart i p) = zoneFlags s i := by
  rw [partStatus, placeOf_zone hi hp]

theorem partStatus_course (hi : i < 256) (hp : p < 2) (h : PartClean s (coursePart i p)) :
    partStatus s (coursePart i p) = 0 := by
  rw [partStatus, placeOf_course hi hp]
  exact unreadableBit_clean h

/-- Only a course part is shown otherwise than it is stored. -/
theorem shownPart_plain (h : ∀ c p, placeOf n ≠ .course c p) (s : State) (d : Part) : shownPart s n d = d := by
  rw [shownPart]
  split
  · exact absurd (by assumption) (h _ _)
  · rfl

theorem shownPart_course (hi : i < 256) (hp : p < 2) (s : State) (d : Part) :
    shownPart s (coursePart i p) d = withRefCount s i p d := by
  rw [shownPart, placeOf_course hi hp]

/-! ### READ of a part -/

/-- A READ that names a part of table memory reads it. -/
theorem exec_read_part (h : Heard s who level) (hl : level ≤ 2) (ht : tableOk opRead table.toNat = true)
    (hn : partNumber table.toNat index.toNat part.toNat = some n) :
    exec (.read who table part index) s = .next (readTablePart (readRequest who table part index) n (arrived .up s)) := by
  obtain ⟨h7, h2, h3⟩ := partNumber_some hn
  have hcounters : ¬ (decide (table.toNat = 2) && decide (5 ≤ part.toNat)) = true := fun he => by
    obtain ⟨ht2, hp⟩ := (Bool.and_eq_true _ _).mp he
    exact Nat.not_le.2 (h2 (of_decide_eq_true ht2)) (of_decide_eq_true hp)
  have hfeedback : ¬ (decide (table.toNat = 3) && decide (part = 1) && decide (index.toNat < 24)) = true := fun he => by
    simp only [Bool.and_eq_true, decide_eq_true_eq] at he
    have h0 := h3 he.1.1
    rw [he.1.2] at h0
    cases h0
  rw [exec_read h hl ht, opReadExec, readRequest_table, readRequest_part, readRequest_index, if_neg h7, if_neg hcounters,
    if_neg hfeedback, hn]

/-- A READ of a clean part shows it with its owner's flags. -/
theorem exec_read_clean (h : Heard s who level) (hl : level ≤ 2) (ht : tableOk opRead table.toNat = true)
    (hn : partNumber table.toNat index.toNat part.toNat = some n) (hc : PartClean s n) :
    exec (.read who table part index) s = .next (replied who 1 .ok (partStatus (arrived .up s) n)
      (shownPart (arrived .up s) n (peekPart s n)) (arrived .up s)) := by
  rw [exec_read_part h hl ht hn, readTablePart, readPart_clean (arrived .up s) n hc]
  rfl

/-! ### READ of the plan queue (R16) -/

theorem exec_read_plan (h : Heard s who level) (hl : level ≤ 2) :
    exec (.read who 7 part index) s = .next (readPlan (readRequest who 7 part index) (arrived .up s)) := by
  rw [exec_read h hl rfl, opReadExec, readRequest_table]
  rfl

theorem exec_read_record {e : QueueEntry} (h : Heard s who level) (hl : level ≤ 2)
    (he : s.plan.queue[index.toNat]? = some e) (hc : PartClean s (planPart e.slot)) :
    exec (.read who 7 0 index) s =
      .next (replied who 1 .ok (planFlags e) (peekPart s (planPart e.slot)) (arrived .up s)) := by
  have hp : (readRequest who 7 0 index).part.toNat = 0 := by rw [readRequest_part]; rfl
  rw [exec_read_plan h hl, readPlan, readRequest_index, arrived_plan, he, hp]
  simp only [readPart_clean (arrived .up s) _ hc]
  rfl

theorem exec_read_noRecord (h : Heard s who level) (hl : level ≤ 2) (hi : s.plan.queue.length ≤ index.toNat) :
    exec (.read who 7 part index) s = .next (replied who 1 .badIndex 0 0 (arrived .up s)) := by
  rw [exec_read_plan h hl, readPlan, readRequest_index, arrived_plan, List.getElem?_eq_none hi]
  rfl

/-- Settles O37: table by table, the part that is named and the flags of its owner. -/
theorem readReturnsTheAddressedPart : Obligations.ReadReturnsTheAddressedPart := by
  intro s who level part index h hl
  refine ⟨?_, ?_, ?_, ?_, fun hi hp hc => ?_, fun hi hp hc => ?_, ?_, exec_read_noRecord h hl⟩
  · rintro hi rfl
    have hc : PartClean s index.toNat := h.clean _ hi
    rw [exec_read_clean (table := 1) (part := 0) (index := index) h hl rfl (partNumber_origin hi) hc,
      partStatus_origin (s := arrived .up s) hi hc,
      shownPart_plain (by simp [placeOf_origin hi])]
  · rintro rfl hp hc
    rw [exec_read_clean (table := 2) (part := part) (index := 0) h hl rfl (partNumber_param hp) hc, partStatus_param hp,
      shownPart_plain (by simp [placeOf_param hp])]
    rfl
  · rintro hi rfl hc
    rw [exec_read_clean (table := 3) (part := 0) (index := index) h hl rfl (partNumber_axis hi) hc, partStatus_axis hi,
      unreadableBit_clean (s := arrived .up s) (n := axisPart index.toNat) hc, shownPart_plain (by simp [placeOf_axis hi])]
    rfl
  · rintro hi rfl hc
    rw [exec_read_clean (table := 4) (part := 0) (index := index) h hl rfl (partNumber_term hi) hc,
      partStatus_term hi, termFlags_value (s := arrived .up s) hc,
      shownPart_plain (by simp [placeOf_term hi])]
    rfl
  · rw [exec_read_clean (table := 5) (part := part) (index := index) h hl rfl (partNumber_zone hi hp) hc,
      partStatus_zone hi hp, zoneFlags_eq,
      shownPart_plain (by simp [placeOf_zone hi hp])]
    rfl
  · have hpart : part = 0 ↔ part.toNat = 0 := BitVec.toNat_inj.symm
    rw [exec_read_clean (table := 6) (part := part) (index := index) h hl rfl (partNumber_course hi hp) hc,
      partStatus_course (s := arrived .up s) hi hp hc,
      shownPart_course hi hp]
    simp only [hpart]
    rfl
  · rintro e he rfl hc
    exact (exec_read_record h hl he hc).trans (by rw [planFlags_eq]; rfl)

end Sys2Proof.Machine
end

section
/-! SUPPORT. PROBE (R170) of a zone (R121) and of a course (R2): both corners of the box, in two replies of one
code and status. -/

namespace Sys2Proof.Machine

variable {s : State} {who : Sender} {level : Nat} {table : BitVec 4} {index : Half}

/-! ### The request and its replies -/

/-- The request of a PROBE. -/
def probeRequest (who : Sender) (table : BitVec 4) (index : Half) : Request :=
  requestFor who opProbe (selectorOf table 0) index 0 0

@[simp] theorem probeRequest_table : (probeRequest who table index).table = table := selector_table table 0
@[simp] theorem probeRequest_index : (probeRequest who table index).index = index := rfl

/-- Two replies of one code and one status have joined the reply queue. -/
def repliedTwice (who : Sender) (code : ReplyCode) (status : Byte) (lo hi : Part) (s : State) : State :=
  s.setMgmt { s.mgmt with
    replies := s.mgmt.replies ++
      [{ dst := who.src, tag := who.tag, op := 3, code := code, status := status, second := false, data := lo },
       { dst := who.src, tag := who.tag, op := 3, code := code, status := status, second := true, data := hi }] }

theorem answerTwice_probe (code : ReplyCode) (status : Byte) (lo hi : Part) (s : State) :
    answerTwice (probeRequest who table index) code status lo hi s = repliedTwice who code status lo hi s := by
  rw [answerTwice, pushReply, pushReply, State.setMgmt_mgmt, State.setMgmt_twice, List.append_assoc]
  rfl

/-- A PROBE of a table that has boxes is performed when it is heard. -/
theorem exec_probe (h : Heard s who level) (hl : level ≤ 2) (ht : tableOk opProbe table.toNat = true) :
    exec (.probe who table index) s =
      .next (opProbeExec (probeRequest who table index) level (arrived .up s)) := by
  have htable : tableOk opProbe ((selectorOf table 0).extractLsb' 0 4).toNat = true := by rw [selector_table]; exact ht
  exact operate_performed s who level opProbe (selectorOf table 0) index 0 0 h rfl htable hl

theorem exec_probe_zone (h : Heard s who level) (hl : level ≤ 2) : exec (.probe who 5 index) s =
    .next (if index.toNat < 64 then probeZone (probeRequest who 5 index) level (arrived .up s)
      else answerTwice (probeRequest who 5 index) .badIndex 0 0 0 (arrived .up s)) := by
  rw [exec_probe h hl rfl, opProbeExec, if_pos probeRequest_table, probeRequest_index]

theorem exec_probe_course (h : Heard s who level) (hl : level ≤ 2) : exec (.probe who 6 index) s =
    .next (if index.toNat < 256 then probeCourse (probeRequest who 6 index) (arrived .up s)
      else answerTwice (probeRequest who 6 index) .badIndex 0 0 0 (arrived .up s)) := by
  have hne : ¬ (probeRequest who 6 index).table = 5 := by rw [probeRequest_table]; decide
  rw [exec_probe h hl rfl, opProbeExec, if_neg hne, probeRequest_index]

/-! ### The box -/

theorem statusBit_zero (b : Bool) : statusBit b 0 = if b then 1 else 0 := by cases b <;> rfl

/-- The two corners of a clean course, the maximum saturated (R2). -/
theorem probeCourse_clean (h0 : PartClean s (197 + 2 * index.toNat)) (h1 : PartClean s (197 + 2 * index.toNat + 1))
    {c : CourseRec} (hc : c = courseRec (peekPart s (197 + 2 * index.toNat)) (peekPart s (197 + 2 * index.toNat + 1))) :
    probeCourse (probeRequest who table index) s =
      repliedTwice who .ok (if c.present then 1 else 0) (cornerData c.x c.y c.z)
        (cornerData (boxMax c.x c.g c.extX) (boxMax c.y c.g c.extY) c.z) s := by
  rw [probeCourse, probeRequest_index, readCourse_clean h0 h1, ← hc]
  simp only [answerTwice_probe, statusBit_zero]

/-- The two corners of a clean zone, and whether its level lets the sender at it (R106, R121). -/
theorem probeZone_clean (h0 : PartClean s (69 + 2 * index.toNat)) (h1 : PartClean s (69 + 2 * index.toNat + 1))
    {z : ZoneRec} (hz : z = cleanZone s index.toNat) :
    probeZone (probeRequest who table index) level s =
      repliedTwice who .ok (if z.present = true ∧ level ≤ z.dpl then 1 else 0) (cornerData z.base.x z.base.y z.base.z)
        (cornerData (boxMax z.base.x z.g z.ext.x) (boxMax z.base.y z.g z.ext.y) (boxMax z.base.z z.g z.ext.z)) s := by
  rw [probeZone, probeRequest_index, readZone_clean h0 h1, ← hz]
  simp only [answerTwice_probe, statusBit_zero, Bool.and_eq_true, decide_eq_true_eq]
  rfl

/-- Settles O41: the box of the course or the zone, or BAD_INDEX twice. -/
theorem probeReturnsBothCorners : Obligations.ProbeReturnsBothCorners := by
  rintro s who level index two h hl rfl
  refine ⟨fun c hi h0 h1 hc => ?_, fun z hi h0 h1 hz => ?_, fun hi => ?_, fun hi => ?_⟩
  · rw [exec_probe_course h hl, if_pos hi]
    exact congrArg _ (probeCourse_clean (s := arrived .up s) h0 h1 hc)
  · rw [exec_probe_zone h hl, if_pos hi]
    exact congrArg _ (probeZone_clean (s := arrived .up s) h0 h1 hz)
  · rw [exec_probe_zone h hl, if_neg (Nat.not_lt.2 hi), answerTwice_probe]
    rfl
  · rw [exec_probe_course h hl, if_neg (Nat.not_lt.2 hi), answerTwice_probe]
    rfl

end Sys2Proof.Machine
end

section
/-! SUPPORT. The walk of a SCAN along a table (R171): what an examined entry answers, and where the walk ends. -/

namespace Sys2Proof.Machine

variable {s : State} {table size stop count i j d : Nat} {up : Bool} {meets : Nat → Prop}

/-! ### One entry -/

theorem scanFrom_meets (h : scanMeets table stop i s = (true, s)) (up : Bool) (count : Nat) :
    scanFrom table stop up (count + 1) i s = ({ found := true, last := i, left := count }, s) := by rw [scanFrom, h]

/-- A scan stops at once at an entry that meets its condition. -/
theorem scanFrom_first (hc : count ≠ 0) (h : scanMeets table stop i s = (true, s)) (up : Bool) :
    scanFrom table stop up count i s = ({ found := true, last := i, left := count - 1 }, s) := by
  obtain ⟨n, rfl⟩ := Nat.exists_eq_succ_of_ne_zero hc
  exact scanFrom_meets h up n

theorem scanFrom_next (h : scanMeets table stop i s = (false, s)) (hn : scanNext (tableSize table) up i = some j)
    (count : Nat) :
    scanFrom table stop up (count + 2) i s = scanFrom table stop up (count + 1) j s := by
  rw [scanFrom, h]
  simp only [hn]

theorem scanFrom_one (h : scanMeets table stop i s = (false, s)) :
    scanFrom table stop up 1 i s = ({ found := false, last := i, left := 0 }, s) := by
  rw [scanFrom, h]
  rfl

theorem scanFrom_edge (h : scanMeets table stop i s = (false, s)) (hn : scanNext (tableSize table) up i = none) (count : Nat) :
    scanFrom table stop up (count + 1) i s = ({ found := false, last := i, left := count }, s) := by
  rw [scanFrom, h]
  cases count with
  | zero => rfl
  | succ n => simp only [hn]

/-! ### The walk -/

/-- Each entry of the table answers for the stop condition, and its examination changes nothing. -/
def Answers (table stop : Nat) (meets : Nat → Prop) (s : State) : Prop :=
  ∀ j < tableSize table, (meets j → scanMeets table stop j s = (true, s)) ∧
    (¬ meets j → scanMeets table stop j s = (false, s))

/-- The indices of a walk, one after another within the table. -/
structure Walks (table : Nat) (up : Bool) (w : Nat → Nat) (d : Nat) : Prop where
  inside : ∀ k ≤ d, w k < tableSize table
  next : ∀ k < d, scanNext (tableSize table) up (w k) = some (w (k + 1))

theorem walks_up (h : i + d < tableSize table) : Walks table true (fun k => i + k) d where
  inside k hk := by omega
  next k hk := if_pos (show i + k + 1 < tableSize table by omega)

theorem walks_down (hi : i < tableSize table) (h : d ≤ i) : Walks table false (fun k => i - k) d where
  inside k hk := by omega
  next k hk := (if_neg (show ¬ i - k = 0 by omega)).trans rfl

variable {w : Nat → Nat}

/-- The entries of a walk that do not meet the condition are passed. -/
theorem scanFrom_walk (ha : Answers table stop meets s) (hw : Walks table up w d) (hn : ∀ k < d, ¬ meets (w k))
    (hc : d < count) : scanFrom table stop up count (w 0) s = scanFrom table stop up (count - d) (w d) s := by
  induction d with
  | zero => rfl
  | succ d ih =>
    have hshort : Walks table up w d := ⟨fun k hk => hw.inside k (by omega), fun k hk => hw.next k (by omega)⟩
    obtain ⟨n, hcount, hrest⟩ : ∃ n, count - d = n + 2 ∧ count - (d + 1) = n + 1 :=
      ⟨count - (d + 2), by omega, by omega⟩
    rw [ih hshort (fun k hk => hn k (by omega)) (by omega), hcount, hrest]
    exact scanFrom_next ((ha _ (hw.inside d (by omega))).2 (hn d (by omega))) (hw.next d (by omega)) n

/-- A scan stops at the first entry of its walk that meets its condition. -/
theorem scanFrom_found (ha : Answers table stop meets s) (hw : Walks table up w d) (hn : ∀ k < d, ¬ meets (w k))
    (hm : meets (w d)) (hc : d < count) :
    scanFrom table stop up count (w 0) s = ({ found := true, last := w d, left := count - 1 - d }, s) := by
  obtain ⟨n, hrest, hleft⟩ : ∃ n, count - d = n + 1 ∧ count - 1 - d = n := ⟨count - (d + 1), by omega, by omega⟩
  rw [scanFrom_walk ha hw hn hc, hrest, hleft]
  exact scanFrom_meets ((ha _ (hw.inside d (Nat.le_refl d))).1 hm) up n

/-- A scan that meets its condition nowhere ends at its count or at the end of the table. -/
theorem scanFrom_ends (ha : Answers table stop meets s) (hw : Walks table up w d) (hn : ∀ k ≤ d, ¬ meets (w k))
    (hend : count = d + 1 ∨ d < count ∧ scanNext (tableSize table) up (w d) = none) :
    scanFrom table stop up count (w 0) s = ({ found := false, last := w d, left := count - (d + 1) }, s) := by
  have hlast := (ha _ (hw.inside d (Nat.le_refl d))).2 (hn d (Nat.le_refl d))
  have hpass := fun hc => scanFrom_walk (count := count) ha hw (fun k hk => hn k (Nat.le_of_lt hk)) hc
  rcases hend with rfl | ⟨hc, hedge⟩
  · rw [hpass (Nat.lt_succ_self d), Nat.add_sub_cancel_left, Nat.sub_self]
    exact scanFrom_one hlast
  · obtain ⟨n, hrest, hleft⟩ : ∃ n, count - d = n + 1 ∧ count - (d + 1) = n :=
      ⟨count - (d + 1), by omega, by omega⟩
    rw [hpass hc, hrest, hleft]
    exact scanFrom_edge hlast hedge n

/-! ### Upward and downward -/

theorem scanNext_top (h : size ≤ i + 1) : scanNext size true i = none := if_neg (Nat.not_lt.2 h)

theorem scanNext_bottom (h : i = 0) : scanNext size false i = none := if_pos h

theorem scanFrom_up_found (ha : Answers table stop meets s) (hij : i ≤ j) (hj : j < tableSize table) (hc : j - i < count)
    (hm : meets j) (hn : ∀ m, i ≤ m → m < j → ¬ meets m) : scanFrom table stop true count i s =
      ({ found := true, last := j, left := count - 1 - (j - i) }, s) := by
  have hadd : i + (j - i) = j := Nat.add_sub_of_le hij
  have hfound := scanFrom_found (d := j - i) ha (walks_up (i := i) (hadd.symm ▸ hj)) (fun k hk => hn _ (by omega) (by omega))
    (hadd.symm ▸ hm) hc
  rwa [hadd] at hfound

theorem scanFrom_down_found (ha : Answers table stop meets s) (hi : i < tableSize table) (hji : j ≤ i) (hc : i - j < count)
    (hm : meets j) (hn : ∀ m, j < m → m ≤ i → ¬ meets m) : scanFrom table stop false count i s =
      ({ found := true, last := j, left := count - 1 - (i - j) }, s) := by
  have hsub : i - (i - j) = j := Nat.sub_sub_self hji
  have hfound := scanFrom_found (d := i - j) ha (walks_down hi (Nat.sub_le i j)) (fun k hk => hn _ (by omega) (by omega))
    (hsub.symm ▸ hm) hc
  rwa [hsub] at hfound

theorem scanFrom_up_ends (ha : Answers table stop meets s) (hi : i < tableSize table) (hc : count ≠ 0)
    (hj : j = min (tableSize table - 1) (i + (count - 1))) (hn : ∀ m, i ≤ m → m ≤ j → ¬ meets m) :
    scanFrom table stop true count i s = ({ found := false, last := j, left := count - ((j - i) + (i - j) + 1) }, s) := by
  have hadd : i + (j - i) = j := by omega
  have hgap : (j - i) + (i - j) + 1 = (j - i) + 1 := by omega
  have hwalk : Walks table true (fun k => i + k) (j - i) := walks_up (by omega)
  have hend : count = j - i + 1 ∨ j - i < count ∧ scanNext (tableSize table) true (i + (j - i)) = none := by
    by_cases hfull : count = j - i + 1
    · exact .inl hfull
    · exact .inr ⟨by omega, scanNext_top (by omega)⟩
  have hends := scanFrom_ends ha hwalk (fun k hk => hn _ (by omega) (by omega)) hend
  rwa [hadd, ← hgap] at hends

theorem scanFrom_down_ends (ha : Answers table stop meets s) (hi : i < tableSize table) (hc : count ≠ 0)
    (hj : j = i - (count - 1)) (hn : ∀ m, j ≤ m → m ≤ i → ¬ meets m) :
    scanFrom table stop false count i s = ({ found := false, last := j, left := count - ((j - i) + (i - j) + 1) }, s) := by
  have hsub : i - (i - j) = j := by omega
  have hgap : (j - i) + (i - j) + 1 = (i - j) + 1 := by omega
  have hwalk : Walks table false (fun k => i - k) (i - j) := walks_down hi (Nat.sub_le i j)
  have hend : count = i - j + 1 ∨ i - j < count ∧ scanNext (tableSize table) false (i - (i - j)) = none := by
    by_cases hfull : count = i - j + 1
    · exact .inl hfull
    · exact .inr ⟨by omega, scanNext_bottom (by omega)⟩
  have hends := scanFrom_ends ha hwalk (fun k hk => hn _ (by omega) (by omega)) hend
  rwa [hsub, ← hgap] at hends

end Sys2Proof.Machine
end

section
/-! SUPPORT. SCAN (R171) as a request: its operands, its refusals, the reply, and what each stop condition asks of an entry. -/

namespace Sys2Proof.Machine

variable {s : State} {who : Sender} {level size last : Nat} {table : BitVec 4} {index count : Half} {dir stop : Byte}
  {part : Nat → Nat} {present meets : Nat → Prop}

/-! ### The request and its reply -/

/-- The request of a SCAN. -/
def scanRequest (who : Sender) (table : BitVec 4) (index count : Half) (dir stop : Byte) : Request :=
  requestFor who opScan (selectorOf table 0) index 0 (scanData count dir stop)

@[simp] theorem scanRequest_table : (scanRequest who table index count dir stop).table = table := selector_table table 0
@[simp] theorem scanRequest_index : (scanRequest who table index count dir stop).index = index := rfl
@[simp] theorem scanRequest_data : (scanRequest who table index count dir stop).data = scanData count dir stop := rfl

/-- The data bytes of a SCAN give each of its operands back. -/
theorem scanData_fields (count : Half) (dir stop : Byte) : field (scanData count dir stop) 0 2 = count.toNat ∧
    (scanData count dir stop).extractLsb' 16 8 = dir ∧ field (scanData count dir stop) 3 1 = stop.toNat := by
  have hc := count.isLt
  have hd := dir.isLt
  have hs := stop.isLt
  refine ⟨?_, BitVec.eq_of_toNat_eq ?_, ?_⟩ <;>
    simp only [field, scanData, packPart, packNat, BitVec.extractLsb'_toNat, BitVec.toNat_ofNat, Nat.shiftRight_eq_div_pow] <;>
    omega

/-- The tables that have entries to scan, and how many. -/
def ScanTable (table : BitVec 4) (size : Nat) : Prop :=
  table = 1 ∧ size = 8 ∨ table = 3 ∧ size = 24 ∨ table = 4 ∧ size = 32 ∨ table = 5 ∧ size = 64 ∨
    table = 6 ∧ size = 256

theorem ScanTable.tableSize (ht : ScanTable table size) : tableSize table.toNat = size := by
  rcases ht with ⟨rfl, rfl⟩ | ⟨rfl, rfl⟩ | ⟨rfl, rfl⟩ | ⟨rfl, rfl⟩ | ⟨rfl, rfl⟩ <;> rfl

theorem ScanTable.tableOk (ht : ScanTable table size) : tableOk opScan table.toNat = true := by
  rcases ht with ⟨rfl, -⟩ | ⟨rfl, -⟩ | ⟨rfl, -⟩ | ⟨rfl, -⟩ | ⟨rfl, -⟩ <;> rfl

section Heard

variable (h : Heard s who level) (hl : level ≤ 2) (ht : ScanTable table size)
include h hl ht

theorem exec_scan : exec (.scan who table index count dir stop) s =
    .next (opScanExec (scanRequest who table index count dir stop) (arrived .up s)) := by
  have htable : tableOk opScan ((selectorOf table 0).extractLsb' 0 4).toNat = true := by rw [selector_table]; exact ht.tableOk
  exact operate_performed s who level opScan (selectorOf table 0) index 0 (scanData count dir stop) h rfl htable hl

theorem exec_scan_beyond (hi : size ≤ index.toNat) : exec (.scan who table index count dir stop) s =
    .next (replied who 4 .badIndex 0 0 (arrived .up s)) := by
  rw [exec_scan h hl ht, opScanExec, scanRequest_table, scanRequest_index, ht.tableSize, if_pos hi]
  rfl

variable (hi : index.toNat < size)
include hi

theorem exec_scan_invalid (hv : scanValid table.toNat count.toNat dir stop.toNat = false) :
    exec (.scan who table index count dir stop) s = .next (replied who 4 .badValue 0 0 (arrived .up s)) := by
  obtain ⟨hcount, hdir, hstop⟩ := scanData_fields count dir stop
  rw [exec_scan h hl ht, opScanExec, scanRequest_table, scanRequest_index, scanRequest_data, hcount, hdir, hstop,
    ht.tableSize, if_neg (Nat.not_le.2 hi), hv, if_pos (by rfl)]
  rfl

/-- A SCAN in range replies where its walk ends. -/
theorem exec_scan_walked {found : Bool} {n left : Nat} {up : Bool} (hup : (dir == 1) = up)
    (hv : scanValid table.toNat count.toNat dir stop.toNat = true)
    (hwalk : scanFrom table.toNat stop.toNat up count.toNat index.toNat (arrived .up s) =
      ({ found := found, last := n, left := left }, arrived .up s)) :
    exec (.scan who table index count dir stop) s = .next (replied who 4 .ok 0
      (packPart [(1, if found then 1 else 0), (1, 0), (2, n), (2, left)]) (arrived .up s)) := by
  obtain ⟨hcount, hdir, hstop⟩ := scanData_fields count dir stop
  rw [exec_scan h hl ht, opScanExec, scanRequest_table, scanRequest_index, scanRequest_data, hcount, hdir, hstop,
    ht.tableSize, if_neg (Nat.not_le.2 hi), hv, if_neg (by simp), hup, hwalk]
  rfl

end Heard

/-! ### The ranges (R171) -/

theorem scanValid_false (h : count = 0 ∨ 256 < count.toNat ∨ (dir ≠ 1 ∧ dir ≠ 0xFF) ∨ 4 < stop.toNat ∨
    (2 < stop.toNat ∧ table ≠ 5)) : scanValid table.toNat count.toNat dir stop.toNat = false := by
  have htable : table.toNat = 5 → table = 5 := fun h5 => BitVec.eq_of_toNat_eq h5
  refine Bool.eq_false_iff.2 fun hv => ?_
  simp only [scanValid, Bool.and_eq_true, Bool.or_eq_true, decide_eq_true_eq, beq_iff_eq] at hv
  obtain ⟨⟨⟨hlo, hhi⟩, hdir⟩, hstop⟩ := hv
  rcases h with rfl | h | ⟨h1, h2⟩ | h | ⟨h, hne⟩
  · exact absurd hlo (by decide)
  · exact absurd hhi (Nat.not_le.2 h)
  · exact hdir.elim h1 h2
  · exact absurd (hstop.elim (fun h' => Nat.le_trans h' (by decide)) And.left) (Nat.not_le.2 h)
  · exact hstop.elim (Nat.not_le.2 h) fun h5 => hne (htable h5.2)

theorem scanValid_true (h0 : count ≠ 0) (hhi : count.toNat ≤ 256) (hdir : dir = 1 ∨ dir = 0xFF)
    (hstop : stop.toNat ≤ 2 ∨ stop.toNat ≤ 4 ∧ table = 5) :
    scanValid table.toNat count.toNat dir stop.toNat = true := by
  have hlo : 1 ≤ count.toNat := Nat.pos_of_ne_zero fun h => h0 (BitVec.eq_of_toNat_eq h)
  have htable : table = 5 → table.toNat = 5 := fun h5 => congrArg BitVec.toNat h5
  simp only [scanValid, Bool.and_eq_true, Bool.or_eq_true, decide_eq_true_eq, beq_iff_eq]
  exact ⟨⟨⟨hlo, hhi⟩, hdir⟩, hstop.imp_right fun h => ⟨h.1, htable h.2⟩⟩

/-! ### The stop conditions (R105, R109, R119) -/

/-- Part 0 of an entry, by its table (section 10.8). -/
def partZero (table : BitVec 4) (j : Nat) : Nat :=
  if table = 1 then j else if table = 3 then 13 + j else if table = 4 then 37 + j
  else if table = 5 then 69 + 2 * j else 197 + 2 * j

/-- The entry's part 0 says present. -/
def SaysPresent (table : BitVec 4) (d : Part) : Prop :=
  if table = 5 ∨ table = 6 then d.getLsbD 0 = true else field d 0 1 = 1

theorem ScanTable.scanPart (ht : ScanTable table size) {j : Nat} (hj : j < size) :
    scanPart table.toNat j = partZero table j := by
  rcases ht with ⟨rfl, rfl⟩ | ⟨rfl, rfl⟩ | ⟨rfl, rfl⟩ | ⟨rfl, rfl⟩ | ⟨rfl, rfl⟩
  · exact congrArg (Option.getD · 0) (partNumber_origin hj)
  · exact congrArg (Option.getD · 0) (partNumber_axis hj)
  · exact congrArg (Option.getD · 0) (partNumber_term hj)
  · exact congrArg (Option.getD · 0) (partNumber_zone hj (by decide : 0 < 2))
  · exact congrArg (Option.getD · 0) (partNumber_course hj (by decide : 0 < 2))

theorem ScanTable.presentField (ht : ScanTable table size) (d : Part) :
    presentField table.toNat d = true ↔ SaysPresent table d := by
  rcases ht with ⟨rfl, -⟩ | ⟨rfl, -⟩ | ⟨rfl, -⟩ | ⟨rfl, -⟩ | ⟨rfl, -⟩ <;>
    simp [Machine.presentField, SaysPresent]

/-- An entry whose part 0 is clean is found present or not, and its examination changes nothing. -/
theorem ScanTable.scanPresent (ht : ScanTable table size) {j : Nat} (hj : j < size) (hc : PartClean s (partZero table j))
    (h6 : table = 6 → s.mgmt.unreadable.contains (197 + 2 * j + 1) = false) :
    ∃ b, scanPresent table.toNat j s = (b, s) ∧ (b = true ↔ SaysPresent table (peekPart s (partZero table j))) := by
  have hreadable : (table.toNat == 6 && courseUnreadable s j) = false := by
    refine Bool.eq_false_iff.2 fun he => ?_
    obtain ⟨h6', hu⟩ := (Bool.and_eq_true _ _).mp he
    obtain rfl : table = 6 := BitVec.eq_of_toNat_eq (beq_iff_eq.1 h6')
    have h0 : s.mgmt.unreadable.contains (coursePart j 0) = false := contains_of_partClean hc
    have h1 : s.mgmt.unreadable.contains (coursePart j 1) = false := h6 rfl
    rw [courseUnreadable, h0, h1] at hu
    cases hu
  refine ⟨_, ?_, ht.presentField _⟩
  rw [Machine.scanPresent, ht.scanPart hj, readPart_clean s _ hc]
  simp only [hreadable, Bool.not_false, Bool.and_true]
  rfl

/-- No entry meets the stop condition NONE. -/
theorem answers_none (table : Nat) (s : State) : Answers table 0 (fun _ => False) s := fun _ _ => ⟨False.elim, fun _ => rfl⟩

theorem answers_of_bool {table stop : Nat}
    (h : ∀ j < tableSize table, ∃ b, scanMeets table stop j s = (b, s) ∧ (b = true ↔ meets j)) :
    Answers table stop meets s := fun j hj => by
  obtain ⟨b, he, hb⟩ := h j hj
  refine ⟨fun hm => ?_, fun hm => ?_⟩
  · rw [he, hb.2 hm]
  · rw [he, Bool.eq_false_iff.2 (mt hb.1 hm)]

/-- The four stop conditions, each with the entries that meet it. -/
def StopsAt (s : State) (table : BitVec 4) (size : Nat) (stop : Byte) (part : Nat → Nat) (present meets : Nat → Prop) :
    Prop :=
  stop = 1 ∧ (∀ j < size, PartClean s (part j)) ∧
      (table = 6 → ∀ j < 256, s.mgmt.unreadable.contains (197 + 2 * j + 1) = false) ∧ (∀ j, meets j ↔ present j) ∨
    stop = 2 ∧ (∀ j < size, PartClean s (part j)) ∧
      (table = 6 → ∀ j < 256, s.mgmt.unreadable.contains (197 + 2 * j + 1) = false) ∧
        (∀ j, meets j ↔ ¬ present j) ∨
    stop = 3 ∧ table = 5 ∧ (∀ j, meets j ↔ j ∈ s.guard.suspended) ∨
    stop = 4 ∧ table = 5 ∧ (∀ j, meets j ↔ 69 + 2 * j ∈ s.guard.poisoned ∨ 69 + 2 * j + 1 ∈ s.guard.poisoned)

theorem StopsAt.inRange (h : StopsAt s table size stop part present meets) :
    stop.toNat ≤ 2 ∨ stop.toNat ≤ 4 ∧ table = 5 := by
  rcases h with ⟨rfl, -⟩ | ⟨rfl, -⟩ | ⟨rfl, ht, -⟩ | ⟨rfl, ht, -⟩
  · exact .inl (by decide)
  · exact .inl (by decide)
  · exact .inr ⟨by decide, ht⟩
  · exact .inr ⟨by decide, ht⟩

/-- Each entry answers for the stop condition, PRESENT and ABSENT by its part 0, the others by the zone guard's flags. -/
theorem StopsAt.answers (ht : ScanTable table size) (hpart : ∀ j, part j = partZero table j)
    (hpresent : ∀ j, present j ↔ SaysPresent table (peekPart s (part j)))
    (h : StopsAt s table size stop part present meets) : Answers table.toNat stop.toNat meets s := by
  obtain rfl : part = partZero table := funext hpart
  have hsize := ht.tableSize
  have hread : (∀ j < size, PartClean s (partZero table j)) →
      (table = 6 → ∀ j < 256, s.mgmt.unreadable.contains (197 + 2 * j + 1) = false) → ∀ j < tableSize table.toNat,
        ∃ b, Machine.scanPresent table.toNat j s = (b, s) ∧ (b = true ↔ present j) := fun hc h6 j hj => by
    obtain ⟨b, he, hb⟩ := ht.scanPresent (hsize ▸ hj) (hc j (hsize ▸ hj)) fun h6' => h6 h6' j (by subst h6'; exact hj)
    exact ⟨b, he, hb.trans (hpresent j).symm⟩
  refine answers_of_bool fun j hj => ?_
  rcases h with ⟨rfl, hc, h6, hm⟩ | ⟨rfl, hc, h6, hm⟩ | ⟨rfl, -, hm⟩ | ⟨rfl, -, hm⟩
  · obtain ⟨b, he, hb⟩ := hread hc h6 j hj
    exact ⟨b, he, hb.trans (hm j).symm⟩
  · obtain ⟨b, he, hb⟩ := hread hc h6 j hj
    have hmeets : scanMeets table.toNat 2 j s = (!b, s) := by rw [scanMeets, he]
    refine ⟨!b, hmeets, ?_⟩
    rw [hm j, ← hb, Bool.not_eq_true', Bool.not_eq_true]
  · exact ⟨_, rfl, List.contains_iff_mem.trans (hm j).symm⟩
  · refine ⟨_, rfl, ?_⟩
    rw [hm j, zonePoisoned, Bool.or_eq_true, List.contains_iff_mem, List.contains_iff_mem]
    rfl

/-! ### The obligation -/

/-- Settles O42: the operands in range or refused, and the walk by its direction. -/
theorem scanLooksAlongATable : Obligations.ScanLooksAlongATable := by
  intro s who level table index count dir stop size last h hl ht
  replace ht : ScanTable table size := ht
  have hsize := ht.tableSize
  have hcount : count ≠ 0 → count.toNat ≠ 0 := fun h0 hn => h0 (BitVec.eq_of_toNat_eq hn)
  refine ⟨exec_scan_beyond h hl ht, fun hi hv => exec_scan_invalid h hl ht hi (scanValid_false hv), ?_, ?_, ?_, ?_⟩
  · intro hi h0 hhi hdir
    have ha := answers_none table.toNat (arrived .up s)
    have hv := scanValid_true (table := table) (stop := 0) h0 hhi (hdir.imp And.left And.left) (.inl (by decide))
    rcases hdir with ⟨rfl, hlast⟩ | ⟨rfl, hlast⟩
    · exact exec_scan_walked (found := false) h hl ht hi rfl hv
        (scanFrom_up_ends ha (hsize.symm ▸ hi) (hcount h0) (hsize.symm ▸ hlast) fun _ _ _ => id)
    · exact exec_scan_walked (found := false) h hl ht hi rfl hv
        (scanFrom_down_ends ha (hsize.symm ▸ hi) (hcount h0) hlast fun _ _ _ => id)
  · rintro rfl hi h0 hhi hdir hsusp
    have hmeets : scanMeets 5 3 index.toNat (arrived .up s) = (true, arrived .up s) := congrArg (·, arrived .up s) hsusp
    exact exec_scan_walked (found := true) h hl ht hi rfl (scanValid_true h0 hhi hdir (.inr ⟨by decide, rfl⟩))
      (scanFrom_first (hcount h0) hmeets _)
  · rintro rfl hi h0 hhi hdir hc hpresent
    obtain ⟨b, hb, hiff⟩ := ht.scanPresent (s := arrived .up s) hi hc (fun h6 => absurd h6 (by decide))
    have hmeets : scanMeets 3 1 index.toNat (arrived .up s) = (true, arrived .up s) :=
      hb.trans (congrArg (·, arrived .up s) (hiff.2 hpresent))
    exact exec_scan_walked (found := true) h hl ht hi rfl (scanValid_true h0 hhi hdir (.inl (by decide)))
      (scanFrom_first (hcount h0) hmeets _)
  · intro part present meets hi h0 hhi hpart hpresent hstop
    replace hstop : StopsAt (arrived .up s) table size stop part present meets := hstop
    have ha : Answers table.toNat stop.toNat meets (arrived .up s) := hstop.answers ht hpart hpresent
    have hv := fun dir hdir => scanValid_true (table := table) (dir := dir) h0 hhi hdir hstop.inRange
    refine ⟨?_, ?_, ?_⟩
    · rintro j rfl hij hj hc hm hn
      exact exec_scan_walked (found := true) h hl ht hi rfl (hv 1 (.inl rfl))
        (scanFrom_up_found ha hij (hsize.symm ▸ hj) hc hm hn)
    · rintro j rfl hji hc hm hn
      exact exec_scan_walked (found := true) h hl ht hi rfl (hv 0xFF (.inr rfl))
        (scanFrom_down_found ha (hsize.symm ▸ hi) hji hc hm hn)
    · rintro (⟨rfl, hlast, hn⟩ | ⟨rfl, hlast, hn⟩)
      · exact exec_scan_walked (found := false) h hl ht hi rfl (hv 1 (.inl rfl))
          (scanFrom_up_ends ha (hsize.symm ▸ hi) (hcount h0) (hsize.symm ▸ hlast) hn)
      · exact exec_scan_walked (found := false) h hl ht hi rfl (hv 0xFF (.inr rfl))
          (scanFrom_down_ends ha (hsize.symm ▸ hi) (hcount h0) hlast hn)

end Sys2Proof.Machine
end

section
/-! SUPPORT. What a read finds (R177): one bit in error in a word is corrected and written back, two make the
part uncorrectable, and what an uncorrectable part means to its owner. -/

namespace Sys2Proof.Machine

variable {s t : State} {n w b i p k : Nat}

/-! ### One bit in error -/

theorem wordFlips_freshWord_ne {v : Nat} (h : v ≠ w) (l : List Nat) : wordFlips (freshWord l w) v = wordFlips l v := by
  rw [wordFlips, freshWord, List.filter_filter, wordFlips]
  refine congrArg _ (List.filter_congr fun k _ => ?_)
  rw [Bool.eq_iff_iff, Bool.and_eq_true, beq_iff_eq, bne_iff_ne]
  exact and_iff_left_of_imp fun hk => hk ▸ h

theorem storeWord_cells (m : TableMem) (w : Nat) (d : BitVec 64) : (m.storeWord w d).cells = putPart m.cells (w / 2)
    (if w % 2 = 0 then joinWords d ((partData m.cells (w / 2)).extractLsb' 64 64)
      else joinWords ((partData m.cells (w / 2)).extractLsb' 0 64) d) := by
  simp only [TableMem.storeWord]

/-- A word put back in its own part. -/
theorem joinWords_own (m : Memory) (w : Nat) :
    (if w % 2 = 0 then joinWords (wordData m w) ((partData m (w / 2)).extractLsb' 64 64)
      else joinWords ((partData m (w / 2)).extractLsb' 0 64) (wordData m w)) = partData m (w / 2) := by
  rw [wordData]
  rcases Nat.mod_two_eq_zero_or_one w with hw | hw
  · rw [hw, if_pos rfl]
    exact joinWords_extract _
  · rw [hw, if_neg Nat.one_ne_zero]
    exact joinWords_extract _

/-- A word written back with its own data leaves every part's content as it was. -/
theorem partData_storeWord (m : TableMem) (hm : Memory.wf m.cells = true) (w k : Nat) :
    partData (m.storeWord w (wordData m.cells w)).cells k = partData m.cells k := by
  rw [storeWord_cells, joinWords_own]
  by_cases hk : k = w / 2
  · rw [hk, partData_putPart _ _ _ hm]
  · exact partData_putPart_ne _ _ _ _ hk

theorem wordFinding_corrected (h : wordFlips s.mem.flips w = [b]) :
    wordFinding s.mem w = .corrected (wordData s.mem.cells w) := by simp [wordFinding, h]

theorem joinWords_wordData (m : Memory) (n : Nat) : joinWords (wordData m (2 * n)) (wordData m (2 * n + 1)) = partData m n := by
  have hlow : 2 * n / 2 = n ∧ 2 * n % 2 = 0 := by omega
  have hhigh : (2 * n + 1) / 2 = n ∧ (2 * n + 1) % 2 = 1 := by omega
  rw [wordData, wordData, hlow.1, hlow.2, hhigh.1, hhigh.2]
  exact joinWords_extract _

/-- A read of a part with one bit in error in its low word gives the part and writes the word back. -/
theorem readPart_oneBit (hm : partMarked s n = false) (hhigh : wordFlips s.mem.flips (2 * n + 1) = [])
    (hlow : wordFlips s.mem.flips (2 * n) = [b]) : readPart n s = (some (peekPart s n),
      (countWords 1 0 s).setMem (s.mem.storeWord (2 * n) (wordData s.mem.cells (2 * n)))) := by
  simp only [readPart, wordFinding_corrected hlow, wordFinding_clean _ _ hhigh, hm, findingBad, findingFixed, findingData,
    Bool.toNat_true, Bool.toNat_false, Nat.add_zero, if_true, Bool.false_eq_true, if_false, writeBack, joinWords_wordData]
  rfl

/-! ### Two bits in error -/

theorem wordFinding_uncorrectable {c : Nat} (h : wordFlips s.mem.flips w = [b, c]) : wordFinding s.mem w = .uncorrectable := by
  simp [wordFinding, h]

/-- A read of a part with two bits in error counts the word and is the owner's to treat. -/
theorem readPart_twoBits (h : TwoBits s n) : readPart n s = uncorrectablePart n (countedBad s) := by
  obtain ⟨hm, ⟨b, c, hlow⟩, hhigh⟩ := h
  simp only [readPart, wordFinding_uncorrectable hlow, wordFinding_clean _ _ hhigh, hm, findingBad, findingFixed,
    Bool.toNat_true, Bool.toNat_false, Nat.add_zero, Nat.one_ne_zero, Bool.false_eq_true, if_false, writeBack]
  rfl

/-- A read of a part that is marked counts no word when no bit is in error. -/
theorem readPart_markedClean (hm : partMarked s n = true) (hlow : wordFlips s.mem.flips (2 * n) = [])
    (hhigh : wordFlips s.mem.flips (2 * n + 1) = []) : readPart n s = (none, (uncorrectablePart n s).2) := by
  simp only [readPart, wordFinding_clean _ _ hlow, wordFinding_clean _ _ hhigh, hm, findingBad, Bool.toNat_false,
    Nat.add_zero, if_true]
  rfl

/-! ### The entry unreadable -/

/-- The entries that an uncorrectable part makes unreadable and no more, with the index that the fault shows. -/
def Listed (n i : Nat) : Prop :=
  n = i ∧ i < 8 ∨ n = 13 + i ∧ i < 24 ∨ (n = 197 + 2 * i ∨ n = 197 + 2 * i + 1) ∧ i < 256

/-- The entry is unreadable and TABLE_ECC latched. -/
def madeUnreadable (n i : Nat) (s : State) : State :=
  (s.setMgmt { s.mgmt with unreadable := setInsert n s.mgmt.unreadable }).setCtl
    (s.ctl.latch .tableEcc (BitVec.ofNat 32 i) s.clock.ms)

theorem uncorrectable_listed (h : Listed n i) (s : State) : uncorrectablePart n s = (none, madeUnreadable n i s) := by
  unfold uncorrectablePart
  rcases h with ⟨rfl, hi⟩ | ⟨rfl, hi⟩ | ⟨rfl | rfl, hi⟩
  · rw [placeOf_origin hi]; rfl
  · rw [show placeOf (13 + i) = .axis i from placeOf_axis hi]; rfl
  · rw [show placeOf (197 + 2 * i) = .course i 0 from placeOf_course hi (by decide : 0 < 2)]; rfl
  · rw [show placeOf (197 + 2 * i + 1) = .course i 1 from placeOf_course hi (by decide : 1 < 2)]; rfl

/-! ### A part rewritten -/

theorem stores_storePart {d : Part} (hc : MemoryCanonical s) (hm : partMarked s n = false) :
    Stores n d s (storePart n d s) where
  part := by rw [peekPart, storePart, State.setMem_mem, store_cells, partData_putPart _ _ _ hc.1]
  others j hj := (keepsPart_storePart hj.symm d s).content
  fresh := by rw [storePart, State.setMem_mem]; exact wordFlips_store _ _ _
  readable := by rw [partMarked, storePart, State.setMem_mgmt, State.setMem_guard]; exact hm

/-- Table memory and the markings alone say what is stored. -/
theorem Stores.readsAs {d : Part} (h : Stores n d s t) {u : State} (hr : ReadsAs t u) : Stores n d s u where
  part := by rw [peekPart, hr.mem]; exact h.part
  others j hj := by rw [peekPart, hr.mem]; exact h.others j hj
  fresh := by rw [hr.mem]; exact h.fresh
  readable := by rw [hr.marked]; exact h.readable

/-- R172: a PARAM part is rebuilt from the values in force. -/
theorem uncorrectable_param (hp : p < 5) (s : State) : uncorrectablePart (8 + p) s =
    (some (paramImage p s.params),
      ((storePart (8 + p) (paramImage p s.params) s).setCtl (s.ctl.latch .tableEcc (BitVec.ofNat 32 p) s.clock.ms))) := by
  unfold uncorrectablePart
  rw [show placeOf (8 + p) = .param p from placeOf_param hp]
  simp only [latch, storePart, State.setMem_ctl, State.setMem_clock]

theorem slotUsed_iff (s : State) (k : Nat) :
    slotUsed s k = true ↔ (∃ q ∈ s.plan.queue, q.slot = k) ∨ ∃ b ∈ s.plan.bound, b.slot = k := by
  simp only [slotUsed, Bool.or_eq_true, List.any_eq_true, beq_iff_eq]

/-- R176: a used PLAN slot is left, a free one is rewritten as zeros. -/
theorem uncorrectable_plan (k : Nat) (s : State) : uncorrectablePart (709 + k) s =
    if slotUsed s k then (none, s) else (some 0, storePart (709 + k) 0 s) := by
  unfold uncorrectablePart
  rw [show placeOf (709 + k) = .plan k from placeOf_plan k]

/-! ### The causes that an uncorrectable part brings (R119, R131, R183, R185) -/

theorem latch_recovery (c : Ctl) (k : FaultKind) (d t : Word) :
    (c.latch k d t).recovery = c.recovery ∧ (c.latch k d t).ret = c.ret := by
  unfold Ctl.latch; split <;> exact ⟨rfl, rfl⟩

/-- What a report of an active cause does to the mode: HOLD is entered from GUARD and LAY, a hold stands. -/
structure Halts (s t : State) : Prop where
  enters : s.ctl.mode.held = false →
    t.ctl.mode = .hold ∧ t.ctl.holdN = true ∧ t.ctl.ret = some (if s.ctl.recovery then .guard else s.ctl.mode)
  stands : s.ctl.mode.held = true → t.ctl.mode = s.ctl.mode ∧ t.ctl.ret = s.ctl.ret

theorem halts_report (h : (conditionsNow s).any = true) : Halts s (report s) where
  enters hfree := by
    obtain ⟨c, hc⟩ := ctl_enterHold (takeCauses s)
    rw [report_holds hfree h, hc]
    exact ⟨rfl, rfl, rfl⟩
  stands hheld := by
    rw [report_held hheld]
    exact ⟨rfl, rfl⟩

theorem Halts.of_latched {f : FaultKind} {d w : Word} (hu : s.ctl.latch f d w = t.ctl) {u : State} (h : Halts t u) :
    Halts s u where
  enters hfree := by
    have he := h.enters
    rw [← hu, latch_mode, (latch_recovery _ _ _ _).1] at he
    exact he hfree
  stands hheld := by
    have he := h.stands
    rw [← hu, latch_mode, (latch_recovery _ _ _ _).2] at he
    exact he hheld

/-- Once the causes are reported, TERM is as its owner defines it. -/
theorem term_report (s : State) : (report s).ctl.conditions.term = termCause (report s) := by
  rcases report_eq s with he | ⟨-, -, he⟩ <;> rw [he] <;> rfl

end Sys2Proof.Machine
end

section
/-! SUPPORT. An uncorrectable term part and an uncorrectable zone part (R119, R128, R131, R183, R185): the value UNKNOWN, the
poisoned part, and the hold that either may bring. -/

namespace Sys2Proof.Machine

variable {s t : State} {n i p : Nat}

theorem contains_setInsert_self (n : Nat) (l : List Nat) : (setInsert n l).contains n = true :=
  List.contains_iff_mem.2 ((mem_setInsert n n l).2 (.inl rfl))

/-! ### Terms -/

/-- An unreadable term resolves to the side that its user takes. -/
theorem resolve_unreadable (h : s.mgmt.unreadable.contains (termPart i) = true) (safe : Bool) : resolve safe s i = safe :=
  if_pos h

/-- A term with its record unreadable, its value UNKNOWN and TABLE_ECC latched; the causes are still to be reported. -/
def unknownTerm (i : Nat) (s : State) : State :=
  setHeld i { value := .unknown, unknownAs := false } (latch .tableEcc i (markUnreadable (termPart i) s))

theorem uncorrectable_term (hi : i < 32) (s : State) : uncorrectablePart (termPart i) s = (none, report (unknownTerm i s)) := by
  unfold uncorrectablePart
  rw [placeOf_term hi]
  rfl

theorem unreadable_unknownTerm (i : Nat) (s : State) : (unknownTerm i s).mgmt.unreadable.contains (termPart i) = true :=
  contains_setInsert_self _ _

/-- What an uncorrectable term part leaves. -/
structure TermLost (i : Nat) (s t : State) : Prop where
  rest : Undisturbed s t
  mem : t.mem = s.mem
  mgmt : t.mgmt = { s.mgmt with unreadable := setInsert (termPart i) s.mgmt.unreadable }
  held : termHeld t i = { value := .unknown, unknownAs := false }
  others : ∀ j, j ≠ i → termHeld t j = termHeld s j
  faults : t.ctl.faults = (s.ctl.latch .tableEcc (BitVec.ofNat 32 i) s.clock.ms).faults
  first : t.ctl.first = (s.ctl.latch .tableEcc (BitVec.ofNat 32 i) s.clock.ms).first
  holds : s.params.holdTerm = i → t.ctl.conditions.term = true ∧ Halts s t

theorem termLost_report (hi : i < 32) (s : State) : TermLost i s (report (unknownTerm i s)) := by
  obtain ⟨hmem, hmgmt⟩ := memory_report (unknownTerm i s)
  obtain ⟨hfaults, hfirst⟩ := faults_report (unknownTerm i s)
  have hterms := terms_report (unknownTerm i s)
  have hheld : ∀ j, termHeld (report (unknownTerm i s)) j = termHeld (unknownTerm i s) j := fun j => by
    rw [termHeld, hterms, termHeld]
  have hquiet : quiet (report (unknownTerm i s)) = quiet s := (quiet_report _).trans (quiet_setHeld i _ _)
  refine ⟨undisturbed_of_quiet hquiet, hmem, hmgmt, (hheld i).trans (termHeld_setHeld_same hi _ _),
    fun j hj => (hheld j).trans (termHeld_setHeld_ne hj _ _), hfaults, hfirst, fun hterm => ?_⟩
  have hcause : ∀ u : State, u.mgmt = (unknownTerm i s).mgmt → u.params = s.params → termCause u = true :=
    fun u hu hp => by
    have hunreadable : u.mgmt.unreadable.contains (termPart i) = true := hu ▸ unreadable_unknownTerm i s
    rw [termCause, hp, hterm, resolve_unreadable hunreadable, decide_eq_true hi]
    rfl
  have hparams : (report (unknownTerm i s)).params = s.params := ((quiet_eq _ _).1 hquiet).2.2.2.2.2.2.2.1
  have hany : (conditionsNow (unknownTerm i s)).any = true := by
    rw [Conditions.any, conditionsNow, hcause _ rfl rfl, Bool.or_true]
  exact ⟨(term_report _).trans (hcause _ hmgmt hparams), (halts_report hany).of_latched rfl⟩

/-! ### Zones -/

/-- A zone with its part poisoned and ZONE_ECC latched; the causes are still to be reported. -/
def poisonedZone (n z : Nat) (s : State) : State :=
  latch .zoneEcc z (s.setGuard { s.guard with poisoned := setInsert n s.guard.poisoned })

theorem uncorrectable_zone {z : Nat} (hz : z < 64) (h : n = 69 + 2 * z ∨ n = 69 + 2 * z + 1) (s : State) :
    uncorrectablePart n s = (none, report (poisonedZone n z s)) := by
  unfold uncorrectablePart
  rcases h with rfl | rfl
  · rw [show placeOf (69 + 2 * z) = .zone z 0 from placeOf_zone hz (by decide : 0 < 2)]
    rfl
  · rw [show placeOf (69 + 2 * z + 1) = .zone z 1 from placeOf_zone hz (by decide : 1 < 2)]
    rfl

/-- What an uncorrectable zone part leaves. -/
structure ZoneLost (n z : Nat) (s t : State) : Prop where
  rest : Undisturbed s t
  mem : t.mem = s.mem
  mgmt : t.mgmt = s.mgmt
  poisoned : t.guard.poisoned = setInsert n s.guard.poisoned
  cause : t.ctl.conditions.zoneEcc = true
  faults : t.ctl.faults = (s.ctl.latch .zoneEcc (BitVec.ofNat 32 z) s.clock.ms).faults
  first : t.ctl.first = (s.ctl.latch .zoneEcc (BitVec.ofNat 32 z) s.clock.ms).first
  halts : Halts s t

theorem zoneLost_report (n z : Nat) (s : State) : ZoneLost n z s (report (poisonedZone n z s)) := by
  obtain ⟨hmem, hmgmt⟩ := memory_report (poisonedZone n z s)
  obtain ⟨hfaults, hfirst⟩ := faults_report (poisonedZone n z s)
  obtain ⟨-, hpoisoned, -⟩ := zones_report (poisonedZone n z s)
  have hmem' : n ∈ (poisonedZone n z s).guard.poisoned := (mem_setInsert n n s.guard.poisoned).2 (.inl rfl)
  have hany : (conditionsNow (poisonedZone n z s)).any = true := by
    have hecc : (poisonedZone n z s).guard.poisoned.isEmpty = false := List.isEmpty_eq_false_iff.2 (List.ne_nil_of_mem hmem')
    rw [Conditions.any, conditionsNow, hecc, Bool.not_false, Bool.or_true, Bool.true_or]
  exact ⟨undisturbed_of_quiet ((quiet_report _).trans rfl), hmem, hmgmt, hpoisoned, (zoneEcc_report _).2 ⟨n, hmem'⟩,
    hfaults, hfirst, (halts_report hany).of_latched rfl⟩

/-! ### The scrub (R129, R178) -/

/-- The scrub's reading of a part moves its position on and counts a pass that is due. -/
theorem scrubStep_plain (hn : s.mgmt.scrub = n) (h : n < 37 ∨ 69 ≤ n) (ht : t = (readPart n s).2) : scrubStep s =
    t.setMgmt { t.mgmt with
      scrub := if n + 1 < 4814 then n + 1 else 0, passDue := decide (4814 ≤ n + 1)
      passes := if s.mgmt.passDue then min 65535 (s.mgmt.passes + 1) else s.mgmt.passes } := by
  obtain ⟨hdue, hpasses⟩ : t.mgmt.passDue = s.mgmt.passDue ∧ t.mgmt.passes = s.mgmt.passes := by
    have hpass := scrubPass_readPart n s
    rw [← ht] at hpass
    exact Prod.ext_iff.1 hpass
  rw [← hdue, ← hpasses]
  unfold scrubStep
  rw [hn]
  dsimp only
  split
  · exact absurd (by assumption) (placeOf_ne_term h _)
  · rw [← ht]
    rfl

/-- The scrub's read of an uncorrectable global hold term latches TERM_HOLD, in every mode but STANDBY. -/
theorem scrubStep_holdTerm (h : TwoBits s (termPart i)) (hi : i < 32) (hn : s.mgmt.scrub = termPart i)
    (hterm : s.params.holdTerm = i) (hm : s.ctl.mode ≠ .standby) : (scrubStep s).ctl.has .termHold = true := by
  have hread : readPart (termPart i) s = (none, report (unknownTerm i (countedBad s))) :=
    (readPart_twoBits h).trans (uncorrectable_term hi _)
  obtain ⟨hrest, -, hmgmt, -, -, -, -, -⟩ := termLost_report hi (countedBad s)
  have hmay := mayHold_readPart (termPart i) s
  rw [hread] at hmay
  generalize report (unknownTerm i (countedBad s)) = t at *
  have hmode : t.ctl.mode ≠ .standby := by
    cases hmay with
    | stays mode => rwa [mode]
    | holds _ mode => rw [mode]; decide
  have hresolve : resolve true t i = true := resolve_unreadable (by rw [hmgmt]; exact contains_setInsert_self _ _) true
  have hparams : t.params.holdTerm = i := (congrArg Params.holdTerm hrest.params).trans hterm
  have hnoted : (noteTerm i t).ctl.has .termHold = true := by
    rw [noteTerm, has_report, hparams, hresolve, if_pos (by simp [hmode])]
    exact has_latch _ _ _
  unfold scrubStep
  rw [hn]
  simp only [hread, placeOf_term hi]
  exact hnoted

end Sys2Proof.Machine
end

section
/-! SUPPORT. READ and WRITE at an axis entry with bits in error (R169, R177): the corrected part, and the entry
that becomes unreadable. -/

namespace Sys2Proof.Machine

variable {s : State} {who : Sender} {level n i b : Nat} {part : BitVec 3} {index mask : Half} {data : Part}

/-! ### The entry unreadable -/

theorem madeUnreadable_countedBad (n i : Nat) (s : State) : madeUnreadable n i (countedBad s) =
    (s.setMgmt { s.mgmt with
      uncorrectable := min 65535 (s.mgmt.uncorrectable + 1), unreadable := setInsert n s.mgmt.unreadable }).setCtl
      (s.ctl.latch .tableEcc (BitVec.ofNat 32 i) s.clock.ms) := by
  simp only [madeUnreadable, countedBad, State.setMgmt_twice, State.setMgmt_mgmt, State.setMgmt_ctl, State.setMgmt_clock]

theorem madeUnreadable_arrived (n i : Nat) (s : State) : madeUnreadable n i (arrived .up s) =
    ((arrived .up s).setMgmt { s.mgmt with unreadable := setInsert n s.mgmt.unreadable }).setCtl
      (s.ctl.latch .tableEcc (BitVec.ofNat 32 i) s.clock.ms) := rfl

theorem partStatus_madeUnreadable (hi : i < 24) (s : State) :
    partStatus (madeUnreadable (axisPart i) i s) (axisPart i) = 1 := by
  have hmarked : (madeUnreadable (axisPart i) i s).mgmt.unreadable.contains (axisPart i) = true := contains_setInsert_self _ _
  rw [partStatus_axis hi, unreadableBit, hmarked]
  rfl

theorem listed_axis (hi : i < 24) : Listed (axisPart i) i := .inr (.inl ⟨rfl, hi⟩)

/-! ### READ (R169) -/

section Read

variable (h : Heard s who level) (hl : level ≤ 2) (hi : index.toNat < 24)
include h hl hi

theorem exec_read_axis : exec (.read who 3 0 index) s =
    .next (readTablePart (readRequest who 3 0 index) (axisPart index.toNat) (arrived .up s)) :=
  exec_read_part (table := 3) (part := 0) h hl rfl (partNumber_axis hi)

/-- A READ that finds the entry uncorrectable shows no data and the flag. -/
theorem exec_read_lost {u : State}
    (hread : readPart (axisPart index.toNat) (arrived .up s) = (none, madeUnreadable (axisPart index.toNat) index.toNat u)) :
    exec (.read who 3 0 index) s =
      .next (replied who 1 .memoryError 1 0 (madeUnreadable (axisPart index.toNat) index.toNat u)) := by
  rw [exec_read_axis h hl hi, readTablePart, hread]
  simp only [partStatus_madeUnreadable hi]
  rfl

theorem exec_read_twoBits (h2 : TwoBits (arrived .up s) (axisPart index.toNat)) : exec (.read who 3 0 index) s =
    .next (replied who 1 .memoryError 1 0
      (madeUnreadable (axisPart index.toNat) index.toNat (countedBad (arrived .up s)))) :=
  exec_read_lost h hl hi ((readPart_twoBits h2).trans (uncorrectable_listed (listed_axis hi) _))

theorem exec_read_unreadable (hm : partMarked (arrived .up s) (axisPart index.toNat) = true)
    (hlow : wordFlips s.mem.flips (2 * axisPart index.toNat) = [])
    (hhigh : wordFlips s.mem.flips (2 * axisPart index.toNat + 1) = []) : exec (.read who 3 0 index) s =
    .next (replied who 1 .memoryError 1 0 (madeUnreadable (axisPart index.toNat) index.toNat (arrived .up s))) :=
  exec_read_lost h hl hi ((readPart_markedClean (s := arrived .up s) hm hlow hhigh).trans
    (by rw [uncorrectable_listed (listed_axis hi)]))

/-- The state after the correction of one bit in the low word of a part. -/
def corrected (n : Nat) (s : State) : State :=
  (countWords 1 0 s).setMem (s.mem.storeWord (2 * n) (wordData s.mem.cells (2 * n)))

theorem exec_read_oneBit (hm : partMarked (arrived .up s) (axisPart index.toNat) = false)
    (hhigh : wordFlips s.mem.flips (2 * axisPart index.toNat + 1) = [])
    (hlow : wordFlips s.mem.flips (2 * axisPart index.toNat) = [b]) : exec (.read who 3 0 index) s =
    .next (replied who 1 .ok 0 (peekPart s (axisPart index.toNat)) (corrected (axisPart index.toNat) (arrived .up s))) := by
  have hstatus : partStatus (corrected (axisPart index.toNat) (arrived .up s)) (axisPart index.toNat) = 0 := by
    have hclear : (corrected (axisPart index.toNat) (arrived .up s)).mgmt.unreadable.contains (axisPart index.toNat) = false :=
      (Bool.or_eq_false_iff.1 hm).1
    rw [partStatus_axis hi, unreadableBit, hclear]
    rfl
  rw [exec_read_axis h hl hi, readTablePart, readPart_oneBit (s := arrived .up s) hm hhigh hlow, ← corrected]
  simp only [hstatus, shownPart_plain (n := axisPart index.toNat) (by simp [placeOf_axis hi])]
  rfl

end Read

/-- What a correction leaves: the part's content and check bits, every other part, and one word counted. -/
theorem corrected_frame (hc : MemoryCanonical s) (n : Nat) :
    wordFlips (corrected n s).mem.flips (2 * n) = [] ∧
      (∀ w, w ≠ 2 * n → wordFlips (corrected n s).mem.flips w = wordFlips s.mem.flips w) ∧
      (∀ m, peekPart (corrected n s) m = peekPart s m) ∧
      (corrected n s).mgmt = { s.mgmt with corrected := min 65535 (s.mgmt.corrected + 1) } ∧
      corrected n s = (s.setMem (corrected n s).mem).setMgmt (corrected n s).mgmt := by
  have hflips : (corrected n s).mem.flips = freshWord s.mem.flips (2 * n) := by
    simp only [corrected, State.setMem_mem, TableMem.storeWord]
  refine ⟨?_, fun w hw => ?_, fun m => ?_, rfl, rfl⟩
  · rw [hflips, wordFlips_freshWord_same]
  · rw [hflips, wordFlips_freshWord_ne hw]
  · rw [peekPart, corrected, State.setMem_mem, partData_storeWord _ hc.1, peekPart]

/-! ### WRITE (R167, log entry 12) -/

/-- The reply of a WRITE that stored nothing shows zeros for an entry that its own read finds uncorrectable. -/
theorem respond_axis_twoBits (hi : index.toNat < 24) (hp : part = 0) (code : ReplyCode) (h : TwoBits s (axisPart index.toNat)) :
    respond (axisRequest who part index mask data) code s =
      replied who 2 code 1 0 (madeUnreadable (axisPart index.toNat) index.toNat (countedBad s)) := by
  have h3 : (axisRequest who part index mask data).table.toNat = 3 := by rw [axisRequest_table]; rfl
  have h0 : (axisRequest who part index mask data).part.toNat = 0 := by rw [axisRequest_part, hp]; rfl
  have hw : writtenPart (axisPart index.toNat) s =
      (0, madeUnreadable (axisPart index.toNat) index.toNat (countedBad s)) := by
    rw [writtenPart, h.fresh, if_neg Bool.false_ne_true, readPart_twoBits h, uncorrectable_listed (listed_axis hi)]
  rw [respond_write axisRequest_op, writeShown, h3, h0, axisRequest_index, partNumber_axis hi]
  simp only [hw, partStatus_madeUnreadable hi]
  rfl

/-! ### The obligation -/

theorem marked_arrived (s : State) : partMarked (arrived .up s) = partMarked s := rfl

theorem TwoBits.arrived (h : TwoBits s n) : TwoBits (arrived .up s) n := ⟨h.fresh, h.low, h.high⟩

theorem undisturbed_countedBad (s : State) : Undisturbed s (countedBad s) := undisturbed_of_quiet (quiet_setMgmt s _)

/-- Settles O39: the entry's READ and WRITE, then each owner's treatment of an uncorrectable part, then the scrub. -/
theorem readCorrectsOneBitAndReportsTwo : Obligations.ReadCorrectsOneBitAndReportsTwo := by
  refine ⟨?_, ?_, fun s n t hn h ht => scrubStep_plain hn h ht⟩
  · rintro s who level index n b c h hl hc hi rfl
    have hmarked := congrFun (marked_arrived s) (13 + index.toNat)
    refine ⟨fun hm hhigh hlow => ?_, fun hm hhigh hlow => ?_, fun hm hlow hhigh => ?_, fun mask data h2 hbits => ?_⟩
    · exact ⟨_, exec_read_oneBit h hl hi (hmarked.trans hm) hhigh hlow, corrected_frame (s := arrived .up s) hc _⟩
    · have hbits : TwoBits s (13 + index.toNat) := ⟨hm, ⟨b, c, hlow⟩, hhigh⟩
      rw [exec_read_twoBits h hl hi hbits.arrived, madeUnreadable_countedBad]
      rfl
    · have hm' : partMarked s (13 + index.toNat) = true := by rw [partMarked, hm, Bool.true_or]
      rw [exec_read_unreadable h hl hi (hmarked.trans hm') hlow hhigh, madeUnreadable_arrived]
      rfl
    · subst h2
      rw [exec_writeAxis h hl, writeAxis_level (by decide), respond_axis_twoBits hi rfl .refusedLevel hbits.arrived,
        madeUnreadable_countedBad]
      rfl
  · intro s n ecc h hc hecc
    have hread := readPart_twoBits h
    refine ⟨fun i hi => ?_, ?_, fun z hn hz => ?_, ?_, ?_, ?_⟩
    · rw [hread, uncorrectable_listed hi, hecc]
      rfl
    · rintro i rfl hi
      obtain ⟨hrest, hmem, hmgmt, hheld, hothers, hfaults, hfirst, hholds⟩ := termLost_report hi (countedBad s)
      refine ⟨_, hread.trans (uncorrectable_term hi _), (undisturbed_countedBad s).trans hrest, hmem, hmgmt,
        hheld, hothers, ?_, ?_, fun hterm => ?_⟩
      · rw [hecc]; exact hfaults
      · rw [hecc]; exact hfirst
      · exact ⟨(hholds hterm).1, fun hfree => ((hholds hterm).2.enters hfree).1⟩
    · obtain ⟨hrest, hmem, hmgmt, hpoisoned, hcause, hfaults, hfirst, hhalts⟩ := zoneLost_report n z (countedBad s)
      refine ⟨_, hread.trans (uncorrectable_zone hz hn _), (undisturbed_countedBad s).trans hrest, hmem, hmgmt,
        hpoisoned, hcause, ?_, ?_, hhalts.enters,
        hhalts.stands⟩
      · rw [hecc]; exact hfaults
      · rw [hecc]; exact hfirst
    · rintro p rfl hp
      have hst : Stores (8 + p) (paramImage p s.params) (countedBad s)
          (storePart (8 + p) (paramImage p s.params) (countedBad s)) :=
        stores_storePart hc h.fresh
      refine ⟨_, hread.trans (uncorrectable_param hp _), hst.readsAs ⟨rfl, rfl⟩, ?_⟩
      rw [hecc]
      rfl
    · rintro k rfl -
      rw [hread, uncorrectable_plan]
      have hused := slotUsed_iff s k
      refine ⟨fun hu => if_pos (hused.2 hu), fun hq hb => ?_⟩
      have hfree : ¬ slotUsed (countedBad s) k = true := fun hu =>
        (hused.1 hu).elim (fun ⟨q, hmem, hk⟩ => hq q hmem hk) fun ⟨b, hmem, hk⟩ => hb b hmem hk
      exact ⟨_, if_neg hfree, stores_storePart hc h.fresh, rfl⟩
    · rintro i rfl hi hn hterm hm
      exact scrubStep_holdTerm h hi hn hterm hm

end Sys2Proof.Machine
end

section
/-! SUPPORT. An accepted WRITE to a PARAM part (R172): its values and their image, and what the effects of new
values leave alone. -/

namespace Sys2Proof.Machine

variable {s t u : State} {p k : Nat} {v old : Params}

/-! ### What the effects leave alone -/

/-- What the effects of new values of PARAM part `p` leave: the blocks that its statement names, and the part itself. -/
structure ParamLeaves (k : Nat) (s t : State) : Prop where
  params : t.params = s.params
  plan : t.plan = s.plan
  axis : t.axis = s.axis
  stab : t.stab = s.stab
  ring : t.ring = s.ring
  replies : t.mgmt.replies = s.mgmt.replies
  part : KeepsPart k s t

theorem paramLeaves_of_quiet (hq : quiet t = quiet s) (hr : t.mgmt.replies = s.mgmt.replies) (hk : KeepsPart k s t) :
    ParamLeaves k s t := by
  obtain ⟨-, -, hring, haxis, hstab, hplan, -, hparams, -⟩ := (quiet_eq _ _).1 hq
  exact ⟨hparams, hplan, haxis, hstab, hring, hr, hk⟩

theorem ParamLeaves.refl (k : Nat) (s : State) : ParamLeaves k s s := paramLeaves_of_quiet rfl rfl (keepsPart_refl k s)

/-- R40: open times that run out change tickets alone. -/
theorem reachOpenTimes_setTrack (s : State) : ∃ x, reachOpenTimes s = s.setTrack x := by
  have hone : ∀ n (t : State), ∃ x, reachOpenTime n t = t.setTrack x := fun n t => by
    unfold reachOpenTime
    split
    · split <;> exact ⟨_, rfl⟩
    · exact ⟨_, rfl⟩
  unfold reachOpenTimes reachOpenTimesOf
  generalize s.track.tickets.map (·.lay) = l
  induction l generalizing s with
  | nil => exact ⟨s.track, rfl⟩
  | cons n l ih =>
    obtain ⟨x, hx⟩ := hone n s
    obtain ⟨y, hy⟩ := ih (s.setTrack x)
    exact ⟨y, by rw [List.foldl_cons, hx, hy, State.setTrack_twice]⟩

theorem paramLeaves_openTimes (k : Nat) (s : State) : ParamLeaves k s (reachOpenTimes s) := by
  obtain ⟨x, hx⟩ := reachOpenTimes_setTrack s
  rw [hx]
  exact ⟨rfl, rfl, rfl, rfl, rfl, rfl, ReadsAs.keepsPart ⟨rfl, rfl⟩⟩

theorem paramLeaves_lineEffects (k : Nat) (old : Params) (s : State) : ParamLeaves k s (lineEffects old s) := by
  obtain ⟨hquiet, htables, hmarked⟩ := files_lineEffects old s
  have hmgmt : (lineEffects old s).mgmt = s.mgmt := congrArg (·.2.1) htables
  have hmem : (lineEffects old s).mem = s.mem := congrArg Prod.fst htables
  exact paramLeaves_of_quiet hquiet (congrArg Mgmt.replies hmgmt) (ReadsAs.keepsPart ⟨hmem, hmarked⟩)

/-- R131: the evaluation of the term newly named is no read of another part. -/
theorem paramLeaves_guardEffects (hk : k < 37) (old : Params) (s : State) : ParamLeaves k s (guardEffects old s) := by
  unfold guardEffects
  split
  · exact .refl k s
  · split
    · have hne : termPart s.params.holdTerm ≠ k := by unfold termPart; omega
      exact paramLeaves_of_quiet (quiet_evalTerm _ s) ((mail_eq _ _).1 (mail_evalTerm _ s)).1 (keepsPart_evalTerm hne s)
    · exact paramLeaves_of_quiet (quiet_report s) (congrArg Mgmt.replies (memory_report s).2) (keepsPart_refl k s).reported

theorem paramLeaves_effects (hp : p < 5) (old : Params) (s : State) : ParamLeaves (paramPart p) s (paramEffects p old s) := by
  unfold paramEffects
  split
  · exact paramLeaves_openTimes _ s
  · exact paramLeaves_lineEffects _ old s
  · exact paramLeaves_guardEffects (by decide) old s
  · exact .refl _ s

/-! ### The values and their image -/

/-- The values in force and their image stored, before any effect. -/
def filed (p : Nat) (v : Params) (s : State) : State :=
  storePart (paramPart p) (paramImage p v) ((if p = 3 then loopCatchUp s else s).setParams v)

theorem acceptParam_eq (p : Nat) (v : Params) (s : State) :
    acceptParam p v s = paramEffects p (if p = 3 then loopCatchUp s else s).params (filed p v s) := rfl

/-- Before the values are stored the tracker line alone may change (log entry 23). -/
theorem filed_line (p : Nat) (v : Params) (s : State) :
    ∃ l, filed p v s = storePart (paramPart p) (paramImage p v) ((s.setLine l).setParams v) := by
  unfold filed
  split
  · obtain ⟨x, a, c, he⟩ := loopCatchUp_line s
    exact ⟨_, by rw [he]⟩
  · exact ⟨s.line, by rw [State.setLine_self]⟩

/-- PARAM part `p` has been written: the values in force, their image, and what the WRITE leaves alone. -/
structure ParamTaken (p : Nat) (v : Params) (s t : State) : Prop where
  params : t.params = v
  part : peekPart t (paramPart p) = paramImage p v
  clean : PartClean t (paramPart p)
  replies : t.mgmt.replies = s.mgmt.replies
  plan : t.plan = s.plan
  axis : t.axis = s.axis
  stab : t.stab = s.stab
  ring : t.ring = s.ring

theorem paramTaken_accepted (hp : p < 5) (hcan : MemoryCanonical s) (hm : partMarked s (paramPart p) = false) (v : Params) :
    ParamTaken p v s (acceptParam p v s) := by
  obtain ⟨l, hl⟩ := filed_line p v s
  obtain ⟨w, hw⟩ : ∃ w, w = (s.setLine l).setParams v := ⟨_, rfl⟩
  have hcan' : MemoryCanonical w := by rw [hw]; exact hcan
  have hm' : partMarked w (paramPart p) = false := by rw [hw]; exact hm
  have hst : Stores (paramPart p) (paramImage p v) w (filed p v s) := by
    rw [hl, ← hw]
    exact stores_storePart hcan' hm'
  obtain ⟨hparams, hplan, haxis, hstab, hring, hreplies, hpart⟩ :=
    paramLeaves_effects hp (if p = 3 then loopCatchUp s else s).params (filed p v s)
  rw [← acceptParam_eq] at hparams hplan haxis hstab hring hreplies hpart
  have hfiled : (filed p v s).params = v ∧ (filed p v s).mgmt = s.mgmt ∧ (filed p v s).plan = s.plan ∧
      (filed p v s).axis = s.axis ∧ (filed p v s).stab = s.stab ∧ (filed p v s).ring = s.ring := by
    rw [hl]
    exact ⟨rfl, rfl, rfl, rfl, rfl, rfl⟩
  obtain ⟨fparams, fmgmt, fplan, faxis, fstab, fring⟩ := hfiled
  exact ⟨hparams.trans fparams, hpart.content.trans hst.part, hpart.partClean hst.partClean,
    hreplies.trans (congrArg Mgmt.replies fmgmt), hplan.trans fplan, haxis.trans faxis, hstab.trans fstab, hring.trans fring⟩

/-- Parts 1 and 2 have no effect beyond their values. -/
theorem acceptParam_plain (h : p = 1 ∨ p = 2) (v : Params) (s : State) :
    acceptParam p v s = (s.setMem (acceptParam p v s).mem).setParams v := by
  rcases h with rfl | rfl <;> rfl

end Sys2Proof.Machine
end

section
/-! SUPPORT. The WRITE to the PARAM record as a request (R167, R172): its reply and its judgement, part by part. -/

namespace Sys2Proof.Machine

variable {s : State} {who : Sender} {level : Nat} {part : BitVec 3} {mask : Half} {data m : Part}

/-- The request of a WRITE to a PARAM part. -/
def paramRequest (who : Sender) (part : BitVec 3) (mask : Half) (data : Part) : Request :=
  requestFor who opWrite (selectorOf 2 part) 0 mask data

@[simp] theorem paramRequest_table : (paramRequest who part mask data).table = 2 := selector_table 2 part
@[simp] theorem paramRequest_part : (paramRequest who part mask data).part = part := selector_part 2 part
@[simp] theorem paramRequest_index : (paramRequest who part mask data).index = 0 := rfl
@[simp] theorem paramRequest_mask : (paramRequest who part mask data).mask = mask := rfl
@[simp] theorem paramRequest_data : (paramRequest who part mask data).data = data := rfl
@[simp] theorem paramRequest_op : (paramRequest who part mask data).op = opWrite := rfl

theorem paramTable_ok (part : BitVec 3) : tableOk opWrite ((selectorOf 2 part).extractLsb' 0 4).toNat = true := by
  rw [selector_table]
  rfl

theorem exec_writeParam (h : Heard s who level) (hl : level ≤ 2) : exec (.writeParam who part 0 mask data) s =
    .next (writeParamTable (paramRequest who part mask data) level (arrived .up s)) := by
  have ht : (paramRequest who part mask data).table.toNat = 2 := by rw [paramRequest_table]; rfl
  refine (operate_performed s who level opWrite _ 0 mask data h rfl (paramTable_ok part) hl).trans (congrArg _ ?_)
  show opWriteExec (paramRequest who part mask data) level (arrived .up s) = _
  rw [opWriteExec, ht]
  rfl

/-- The reply of a WRITE to a clean PARAM part shows it. -/
theorem respond_param (hp : part.toNat < 5) (code : ReplyCode) (h : PartClean s (paramPart part.toNat)) :
    respond (paramRequest who part mask data) code s = replied who 2 code 0 (peekPart s (paramPart part.toNat)) s := by
  have h2 : (paramRequest who part mask data).table.toNat = 2 := by rw [paramRequest_table]; rfl
  have h0 : (paramRequest who part mask data).index.toNat = 0 := rfl
  have hw : writtenPart (paramPart part.toNat) s = (peekPart s (paramPart part.toNat), s) := by
    rw [writtenPart, h.2.2, if_neg Bool.false_ne_true, readPart_clean _ _ h]
    simp only [shownPart_plain (n := paramPart part.toNat) (by simp [placeOf_param hp])]
    rfl
  rw [respond_write paramRequest_op, writeShown, h2, h0, paramRequest_part, partNumber_param hp]
  simp only [hw, partStatus_param hp]
  rfl

/-! ### The judgement (R172) -/

/-- The level that a PARAM part needs. -/
def paramLevel (part : BitVec 3) : Nat := if part = 4 then 0 else 1

theorem paramLevel_le (part : BitVec 3) : paramLevel part ≤ 1 := by
  unfold paramLevel
  split <;> decide

/-- A WRITE to one of the parts 0 to 4 is judged on its level. -/
theorem writeParam_judged (hp : part.toNat < 5) : writeParamTable (paramRequest who part mask data) level s =
    if paramLevel part < level then respond (paramRequest who part mask data) .refusedLevel s
    else writeParamPart (paramRequest who part mask data) part.toNat s := by
  have hfour : part.toNat = 4 ↔ part = 4 := ⟨fun h => BitVec.eq_of_toNat_eq h, fun h => congrArg BitVec.toNat h⟩
  rw [writeParamTable, paramRequest_part, paramRequest_index, if_pos hp, if_neg (by simp), paramLevel]
  simp only [hfour]

/-- A WRITE to a clean part that stores takes the clamped values. -/
theorem writeParamPart_clean (hc : PartClean s (paramPart part.toNat)) (hm : mask ≠ 0)
    (hd : m = mergedWith s (paramPart part.toNat) data mask) :
    writeParamPart (paramRequest who part mask data) part.toNat s =
      respond (paramRequest who part mask data) (paramCode part.toNat m (paramClamp part.toNat m s.params))
        (acceptParam part.toNat (paramClamp part.toNat m s.params) s) := by
  rw [writeParamPart, paramRequest_mask, paramRequest_data, readForMerge_clean hc, ← hd]
  simp only [if_neg hm]

section Heard

variable (h : Heard s who level) (hp : part.toNat < 5) (hc : PartClean s (paramPart part.toNat))
include h hp hc

/-- Above level 2 the order of judgement refuses the request, else the level test of the PARAM table. -/
theorem exec_writeParam_level (hl : paramLevel part < level) : exec (.writeParam who part 0 mask data) s =
    .next (replied who 2 .refusedLevel 0 (peekPart s (paramPart part.toNat)) (arrived .up s)) := by
  refine Eq.trans ?_ (congrArg _ (respond_param (s := arrived .up s) (mask := mask) (data := data) hp .refusedLevel hc))
  rcases Nat.lt_or_ge 2 level with h2 | h2
  · exact operate_refused h _ 0 mask data rfl (paramTable_ok part) h2
  · rw [exec_writeParam h h2, writeParam_judged hp, if_pos hl]

theorem exec_writeParam_taken (hcan : MemoryCanonical s) (hl : level ≤ paramLevel part) (hm : mask ≠ 0)
    (hd : m = mergedWith s (paramPart part.toNat) data mask) :
    exec (.writeParam who part 0 mask data) s =
      .next (replied who 2 (paramCode part.toNat m (paramClamp part.toNat m s.params)) 0
        (paramImage part.toNat (paramClamp part.toNat m s.params))
        (acceptParam part.toNat (paramClamp part.toNat m s.params) (arrived .up s))) ∧
      ParamTaken part.toNat (paramClamp part.toNat m s.params) (arrived .up s)
        (acceptParam part.toNat (paramClamp part.toNat m s.params) (arrived .up s)) := by
  have htaken := paramTaken_accepted (s := arrived .up s) hp hcan hc.2.2 (paramClamp part.toNat m s.params)
  refine ⟨?_, htaken⟩
  rw [exec_writeParam h (Nat.le_succ_of_le (Nat.le_trans hl (paramLevel_le part))), writeParam_judged hp,
    if_neg (Nat.not_lt.2 hl), writeParamPart_clean (s := arrived .up s) hc hm hd, arrived_params,
    respond_param hp _ htaken.clean, htaken.part]

end Heard

/-- Settles O44: the level, then the clamped values of the merged part in force, part by part. -/
theorem writeParamClampsItsFields : Obligations.WriteParamClampsItsFields := by
  intro s who level part mask data m h hcan hp hc hd
  refine ⟨exec_writeParam_level h hp hc, fun hl hm => ?_⟩
  obtain ⟨he, hparams, hpart, -, hreplies, hplan, haxis, hstab, hring⟩ := exec_writeParam_taken h hp hc hcan hl hm hd
  have hcode : paramCode part.toNat m (paramClamp part.toNat m s.params) =
      if paramImage part.toNat (paramClamp part.toNat m s.params) = m &&& usedBits (.param part.toNat)
      then .ok else .okClamped :=
    if_congr eq_comm rfl rfl
  rw [hcode] at he
  refine ⟨_, _, he, hparams, hpart, hreplies, hplan, haxis, hstab, hring, ?_, ?_, ?_, ?_, ?_, ?_⟩
  · rintro rfl
    show paramClamp 0 m s.params = _
    simp only [paramClamp, clampN, Nat.zero_max]
  · rintro rfl
    refine ⟨?_, acceptParam_plain (.inl rfl) _ _⟩
    show paramClamp 1 m s.params = _
    simp only [paramClamp, clampN, Nat.zero_max]
  · rintro rfl
    refine ⟨?_, acceptParam_plain (.inr rfl) _ _⟩
    show paramClamp 2 m s.params = _
    simp only [paramClamp, clampN, Nat.zero_max]
  · rintro rfl hflag
    have happly : ¬ applyFlag m = true := by rw [applyFlag, hflag]; exact Bool.false_ne_true
    exact ⟨if_neg happly, if_neg happly⟩
  · rintro rfl
    exact ⟨rfl, rfl, rfl, rfl, rfl⟩
  · rintro rfl
    show paramClamp 4 m s.params = _
    simp only [paramClamp, clampN, Nat.zero_max]

end Sys2Proof.Machine
end

section
/-! SUPPORT. CLEAR_FAULTS, RESTART and RESET (R174, R175, R190): the entry to STANDBY, the records that a
restart returns to the queue (R21), and table memory after a ring reset. -/

namespace Sys2Proof.Machine

variable {s : State} {who : Sender} {level n : Nat}

/-! ### The entry to STANDBY (R99, R181, R183) -/

/-- A refresh of the transmitter changes the tracker line alone, and nothing on its receiving side. -/
theorem refreshTx_setLine (s : State) : ∃ l, refreshTx s = s.setLine l ∧ receiver l = receiver s.line := by
  have hdue : ∀ (d : Word) (r : Line), ∃ l, frameDue d (s.setLine r) = s.setLine l := fun d r => by
    unfold frameDue; split <;> exact ⟨_, rfl⟩
  have hline : ∃ l, refreshTx s = s.setLine l := by
    unfold refreshTx
    split
    · split
      · exact ⟨s.line, rfl⟩
      · exact hdue _ _
    · exact ⟨_, rfl⟩
  obtain ⟨l, hl⟩ := hline
  exact ⟨l, hl, (congrArg (fun t => receiver t.line) hl).symm.trans (receiver_refreshTx s)⟩

theorem refreshTx_stopped (hl : s.params.trkLoop = false) (hm : s.ctl.mode = .standby) :
    refreshTx s = s.setLine { s.line with running := false, lastDue := none, waiting := none } := by
  have hrun : txShouldRun s = false := by rw [txShouldRun, hl, hm, bne_self_eq_false, Bool.and_false, Bool.false_or]
  rw [refreshTx, hrun, if_neg Bool.false_ne_true]

/-- The mode controller in STANDBY, its causes as their owners have them (R181, R183). -/
def standbyCtl (s : State) : Ctl :=
  { mode := .standby, ret := none, recovery := false, starved := false, request := false
    conditions := { guard := s.guard.outcome.violation
                    tracker := s.line.state == .lost || s.line.state == .none
                    zoneEcc := !s.guard.poisoned.isEmpty, term := termCause s }
    faults := s.ctl.faults, first := s.ctl.first, holdN := true }

/-- What the transmitter makes of the tracker line at the entry to STANDBY: it goes on in the loop test alone. -/
structure StandbyLine (s : State) (l : Line) : Prop where
  receiving : receiver l = receiver s.line
  stopped : s.params.trkLoop = false → l = { s.line with running := false, lastDue := none, waiting := none }
  looped : s.params.trkLoop = true → s.line.running = true → l = s.line

theorem toStandby_eq (s : State) : ∃ l, StandbyLine s l ∧ toStandby s =
    (((s.setGuard { s.guard with run := 0 }).setLay
      { s.lay with timer := none, heldRelease := s.lay.heldRelease || s.lay.phase == .release }).setLine l).setCtl
      (standbyCtl s) := by
  obtain ⟨u, hu⟩ : ∃ u, u = ((s.setGuard { s.guard with run := 0 }).setLay
      { s.lay with timer := none, heldRelease := s.lay.heldRelease || s.lay.phase == .release }).setCtl
        { s.ctl with mode := .standby, ret := none, recovery := false, starved := false, request := false, holdN := true } :=
    ⟨_, rfl⟩
  obtain ⟨l, hl, hreceiver⟩ := refreshTx_setLine u
  have hstate : l.state = s.line.state := (congrArg Line.state hreceiver :).trans (hu ▸ rfl)
  have hstandby : toStandby s = report (u.setLine l) := by
    rw [← hl, hu]
    rfl
  refine ⟨l, ⟨hreceiver.trans (hu ▸ rfl), fun hloop => ?_, fun hloop hrun => ?_⟩, ?_⟩
  · have hstop := (congrArg State.line hl).symm.trans
      (congrArg State.line (refreshTx_stopped (s := u) (hu ▸ hloop) (hu ▸ rfl)))
    rw [hu] at hstop
    exact hstop
  · have hgoes := (congrArg State.line hl).symm.trans
      (congrArg State.line (refreshTx_looped (s := u) (hu ▸ hloop) (hu ▸ hrun)))
    rw [hu] at hgoes
    exact hgoes
  · rw [hstandby, report_held (by rw [hu]; rfl), hu, takeCauses, conditionsNow, standbyCtl, ← hstate]
    rfl

/-! ### The records of the live tickets (R14, R21) -/

/-- A reissue changes the plan store alone. -/
theorem reissue_setPlan (n : Nat) (c : Bool) (s : State) : reissue n c s = s.setPlan (reissue n c s).plan := by
  unfold reissue; split <;> rfl

theorem reissueAll_setPlan (s : State) : reissueAll s = s.setPlan (reissueAll s).plan := by
  unfold reissueAll
  generalize s.track.tickets.map (·.lay) = l
  induction l generalizing s with
  | nil => rfl
  | cons n l ih =>
    rw [List.foldl_cons, ih, reissue_setPlan]
    rfl

theorem reissueAll_counts (s : State) :
    (reissueAll s).plan.highest = s.plan.highest ∧ (reissueAll s).plan.refs = s.plan.refs := by
  have hone : ∀ n (t : State), (reissue n false t).plan.highest = t.plan.highest ∧
      (reissue n false t).plan.refs = t.plan.refs := fun n t => by
    unfold reissue; split <;> exact ⟨rfl, rfl⟩
  unfold reissueAll
  generalize s.track.tickets.map (·.lay) = l
  induction l generalizing s with
  | nil => exact ⟨rfl, rfl⟩
  | cons n l ih => exact ⟨(ih _).1.trans (hone n s).1, (ih _).2.trans (hone n s).2⟩

/-- The bound set keeps the records of no live ticket. -/
theorem bound_reissueAll (s : State) : (reissueAll s).plan.bound =
    s.plan.bound.filter (fun b => s.track.tickets.all fun k => k.lay != b.lay) := by
  rw [(reissueAll_frame s).2.2]
  refine List.filter_congr fun b _ => ?_
  rw [Bool.eq_iff_iff, decide_eq_true_eq, List.all_eq_true]
  simp

/-- The queue entry of a record that returns without counting. -/
def returned (b : BoundEntry) : QueueEntry :=
  { lay := b.lay, course := b.course, failed := false, reissue := b.reissue, slot := b.slot }

/-- No two bound records share a lay number, so a lay number finds its record. -/
theorem boundOf_mem (h : PlanOrdered s.plan) {b : BoundEntry} (hb : b ∈ s.plan.bound) : boundOf b.lay s = some b := by
  obtain ⟨c, hc⟩ := Option.isSome_iff_exists.1 ((isSome_boundOf b.lay s).2 ⟨b, hb, rfl⟩)
  obtain ⟨hmem, hlay⟩ := mem_of_boundOf hc
  rw [hc, List.inj_on_of_nodup_map (List.pairwise_map.2 h.once) hmem hb hlay]

theorem mem_queue_reissue (h : PlanOrdered s.plan) (n : Nat) (q : QueueEntry) : q ∈ (reissue n false s).plan.queue ↔
    q ∈ s.plan.queue ∨ ∃ b ∈ s.plan.bound, b.lay = n ∧ q = returned b := by
  cases hb : boundOf n s with
  | none =>
    rw [reissue_none hb]
    refine (or_iff_left ?_).symm
    rintro ⟨b, hmem, rfl, -⟩
    rw [boundOf_mem h hmem] at hb
    cases hb
  | some b =>
    obtain ⟨hmem, rfl⟩ := mem_of_boundOf hb
    rw [reissue_some hb]
    refine (mem_insertByLay _ q _).trans (or_comm.trans (or_congr_right ⟨fun he => ⟨b, hmem, rfl, he⟩, ?_⟩))
    rintro ⟨c, hc, hlay, rfl⟩
    have hsome := boundOf_mem h hc
    rw [hlay, hb] at hsome
    cases hsome
    rfl

theorem mem_queue_reissueAll (h : PlanOrdered s.plan) (q : QueueEntry) : q ∈ (reissueAll s).plan.queue ↔
    q ∈ s.plan.queue ∨ ∃ b ∈ s.plan.bound, (∃ k ∈ s.track.tickets, k.lay = b.lay) ∧ q = returned b := by
  have hlays : ∀ b : BoundEntry, (∃ k ∈ s.track.tickets, k.lay = b.lay) ↔ b.lay ∈ s.track.tickets.map (·.lay) :=
    fun b => List.mem_map.symm
  simp only [hlays]
  clear hlays
  unfold reissueAll
  generalize s.track.tickets.map (·.lay) = l
  induction l generalizing s with
  | nil => simp
  | cons n l ih =>
    refine (ih (ordered_reissue n false h)).trans ?_
    rw [mem_queue_reissue h, bound_reissue, or_assoc]
    refine or_congr_right ⟨?_, ?_⟩
    · rintro (⟨b, hb, hn, hq⟩ | ⟨b, hb, hl, hq⟩)
      · exact ⟨b, hb, hn ▸ List.mem_cons_self, hq⟩
      · exact ⟨b, List.mem_of_mem_filter hb, List.mem_cons_of_mem _ hl, hq⟩
    · rintro ⟨b, hb, hl, hq⟩
      by_cases hn : b.lay = n
      · exact .inl ⟨b, hb, hn, hq⟩
      · exact .inr ⟨b, List.mem_filter.2 ⟨hb, by simpa using hn⟩, (List.mem_cons.1 hl).resolve_left hn, hq⟩

/-! ### The restart (R175) -/

/-- The state in which a restart enters STANDBY. -/
def emptied (s : State) : State :=
  (((s.setPlan (reissueAll s).plan).setTrack s.track.restarted).setLay s.lay.restarted).setAxis
    { s.axis with trainOpen := false }

theorem termCause_arrived (p : Port) (s : State) : termCause (arrived p s) = termCause s := rfl

theorem restart_eq (s : State) : ∃ l, StandbyLine s l ∧ restart s =
    (((emptied s).setGuard { s.guard with run := 0 }).setLine l).setCtl (standbyCtl s) := by
  have hemptied : restart s = toStandby (emptied s) := by
    rw [restart, reissueAll_setPlan]
    rfl
  obtain ⟨l, hl, he⟩ := toStandby_eq (emptied s)
  exact ⟨l, ⟨hl.receiving, hl.stopped, hl.looped⟩, hemptied.trans he⟩

/-- The state after a RESTART, block by block. -/
theorem restart_arrived (s : State) : ∃ l, StandbyLine s l ∧ restart (arrived .up s) =
    { clock := s.clock, pins := s.pins, ring := (arrived .up s).ring, axis := { s.axis with trainOpen := false }, line := l
      stab := s.stab, guard := { s.guard with run := 0 }, terms := s.terms, plan := (reissueAll (arrived .up s)).plan
      track := s.track.restarted, lay := s.lay.restarted, mgmt := s.mgmt, mem := s.mem, params := s.params
      ctl := standbyCtl s, pending := s.pending } := by
  obtain ⟨l, hl, he⟩ := restart_eq (arrived .up s)
  refine ⟨l, ⟨hl.receiving, hl.stopped, hl.looped⟩, ?_⟩
  rw [he]
  simp only [emptied, State.setPlan, State.setTrack, State.setLay, State.setAxis, State.setGuard, State.setLine, State.setCtl,
    standbyCtl, termCause_arrived, arrived_clock, arrived_pins, arrived_axis, arrived_line, arrived_stab, arrived_guard,
    arrived_terms, arrived_track, arrived_lay, arrived_mgmt, arrived_mem, arrived_params, arrived_ctl, arrived_pending]

theorem station_restarted (x : Track) (st : Station) :
    x.restarted.station st = { lastNum := (x.station st).lastNum, inflight := none, stall := .none } := by cases st <;> rfl

/-! ### The ring reset (R175, R179) -/

/-- The origin parts keep their bytes over a ring reset. -/
theorem partData_reset_origin (m : TableMem) (h : n < 8) : partData (memAfterReset m).cells n = partData m.cells n := by
  have hparams : paramCells.filter (fun c => c.1 / 16 == n) = [] := List.filter_eq_nil_iff.2 fun c hc => by
    have hhigh : ∀ d ∈ paramCells, 128 ≤ d.1 := by decide
    have := hhigh c hc
    rw [beq_iff_eq]
    omega
  have hcells : partCells (memAfterReset m).cells n = partCells m.cells n := by
    rw [partCells, memAfterReset, List.filter_append, hparams, List.append_nil, List.filter_filter, partCells]
    refine List.filter_congr fun c _ => ?_
    rw [Bool.eq_iff_iff, Bool.and_eq_true, beq_iff_eq, decide_eq_true_eq]
    omega
  rw [partData, hcells, partData]

/-- The parameter parts hold the image of the default values. -/
theorem partData_reset_param (m : TableMem) {p : Nat} (hp : p < 5) :
    partData (memAfterReset m).cells (8 + p) = paramImage p Params.initial := by
  have hcells : partCells (memAfterReset m).cells (8 + p) = partCells paramCells (8 + p) := by
    rw [partCells, memAfterReset, List.filter_append, List.filter_filter, List.filter_eq_nil_iff.2, List.nil_append, partCells]
    intro c _
    rw [Bool.and_eq_true, beq_iff_eq, decide_eq_true_eq]
    omega
  have himage : ∀ p < 5, partData paramCells (8 + p) = paramImage p Params.initial := by decide
  rw [partData, hcells, ← partData, himage p hp]

theorem partData_reset_rest (m : TableMem) (h : 13 ≤ n) : partData (memAfterReset m).cells n = 0 :=
  partData_of_below _ _ fun d hd => by
    have := memAfterReset_below m d hd
    omega

theorem mem_flips_reset (m : TableMem) (k : Nat) : k ∈ (memAfterReset m).flips ↔ k < 1152 ∧ k ∈ m.flips := by
  rw [memAfterReset, List.mem_filter, decide_eq_true_eq]
  constructor
  · rintro ⟨hk, hlt⟩
    exact ⟨by omega, hk⟩
  · rintro ⟨hlt, hk⟩
    exact ⟨hk, by omega⟩

/-! ### The obligation -/

/-- A plain operation of too low a level is refused and shows zeros. -/
theorem operate_refused_plain {op : Byte} (h : Heard s who level) (hplain : plainOp op = true) (hop : knownOp op = true)
    (htab : ∀ t, tableOk op t = true) (hmin : minimumLevel op < level) :
    operate who op 0 0 0 0 s = .next (replied who op .refusedLevel 0 0 (arrived .up s)) :=
  (operate_refused h 0 0 0 0 hop (htab _) hmin).trans (congrArg _ (respond_plain hplain 0 0 0 0 _ _))

/-- Settles O58: the fault set alone, the restart as `restart_eq` gives it, the reset with its memory part by part. -/
theorem clearRestartAndRingReset : Obligations.ClearRestartAndRingReset := by
  intro s who level h
  refine ⟨fun hl =>
      ⟨operate_refused_plain h rfl rfl (fun _ => rfl) hl, operate_refused_plain h rfl rfl (fun _ => rfl) hl⟩,
    exec_clearFaults h, fun hl => ?_, fun hl => operate_refused h 0 0 0 0 rfl rfl hl, ?_⟩
  · obtain ⟨l, hline, he⟩ := restart_arrived s
    have hbound := bound_reissueAll (arrived .up s)
    obtain ⟨hhighest, hrefs⟩ := reissueAll_counts (arrived .up s)
    have hcur : l.cur = s.line.cur := (congrArg Line.cur hline.receiving :)
    have hstate : l.state = s.line.state := (congrArg Line.state hline.receiving :)
    have hcount : l.count = s.line.count := (congrArg Line.count hline.receiving :)
    refine ⟨_, exec_restart h hl, ?_⟩
    rw [he]
    have hqueue (ho : PlanOrdered s.plan) := mem_queue_reissueAll (s := arrived .up s) ho
    refine ⟨rfl, rfl, rfl, station_restarted s.track, rfl,
      fun ho => ⟨(ordered_reissueAll (s := arrived .up s) ho).rising, hqueue ho⟩,
      hbound, hhighest, hrefs, rfl, rfl, rfl, rfl, rfl, rfl, rfl, rfl,
      hcur, hstate, hcount, hline.stopped, hline.looped, rfl, rfl, rfl⟩
  · rintro rfl
    refine ⟨_, exec_ringReset h, rfl, fun p => by cases p <;> exact ⟨rfl, rfl⟩, rfl, rfl, mem_flips_reset s.mem,
      fun i hi => partData_reset_origin s.mem hi, fun p hp => partData_reset_param s.mem hp,
      fun n hn => partData_reset_rest s.mem hn⟩

end Sys2Proof.Machine
end

section
/-! SUPPORT. The laws of the modes (R183 to R186) and the awaited break (R88, R101, R104) under the shared operations. A cause
whose source changes is reported a moment later in the same event, so the laws are cut in two: those that always stand
(`ModeLaws`) and those that stand once the causes are reported (`CausesReported`). -/

namespace Sys2Proof.Machine

variable {a b c d : Prop} {s t : State} {n : Nat}

/-- The laws of `Watched` that stand also while a changed cause is not reported yet. -/
structure ModeLaws (s : State) : Prop where
  zones : ∀ n ∈ s.guard.poisoned, 69 ≤ n ∧ n < 197
  recovery : s.ctl.recovery = true → s.ctl.mode = .guard
  back : s.ctl.mode = .hold → s.ctl.ret = some .guard ∨ s.ctl.ret = some .lay
  away : s.ctl.mode ≠ .hold → s.ctl.ret = none

/-- The causes are held as their owners have them, and none is active in GUARD and LAY (R183, R185). -/
structure CausesReported (s : State) : Prop where
  causes : s.ctl.conditions = conditionsNow s
  calm : s.ctl.mode.held = false → s.ctl.conditions = ⟨false, false, false, false⟩

theorem watched_iff : Watched s ↔ ModeLaws s ∧ CausesReported s :=
  ⟨fun h => ⟨⟨h.zones, h.recovery, h.back, h.away⟩, h.causes, h.calm⟩,
    fun ⟨h, r⟩ => ⟨r.causes, r.calm, h.zones, h.recovery, h.back, h.away⟩⟩

/-- The laws of the modes if `a`, with the causes reported if `c`; the awaited break if `b`. -/
structure Ruled (a b c : Prop) (s : State) : Prop where
  laws : a → ModeLaws s
  reported : a → c → CausesReported s
  awaited : b → BreakAwaited s

/-- What the laws of the modes speak of. -/
def modeView (s : State) : Mode × Option Mode × Bool × List Nat :=
  (s.ctl.mode, s.ctl.ret, s.ctl.recovery, s.guard.poisoned)

/-- The hold causes as they are held and as their owners have them. -/
def causeView (s : State) : Conditions × Conditions := (s.ctl.conditions, conditionsNow s)

theorem ModeLaws.same (h : ModeLaws s) (hm : modeView t = modeView s) : ModeLaws t := by
  simp only [modeView, Prod.mk.injEq] at hm
  obtain ⟨hmode, hret, hrec, hpoison⟩ := hm
  exact ⟨by rw [hpoison]; exact h.zones, by rw [hrec, hmode]; exact h.recovery, by rw [hmode, hret]; exact h.back,
    by rw [hmode, hret]; exact h.away⟩

theorem breakAwaited_of_none (h : s.line.breakDue = none) : BreakAwaited s := fun hd => absurd h hd

theorem CausesReported.same (h : CausesReported s) (hm : modeView t = modeView s) (hc : causeView t = causeView s) :
    CausesReported t := by
  have hmode : t.ctl.mode = s.ctl.mode := congrArg Prod.fst hm
  simp only [causeView, Prod.mk.injEq] at hc
  obtain ⟨hheld, hnow⟩ := hc
  exact ⟨by rw [hheld, hnow]; exact h.causes, by rw [hheld, hmode]; exact h.calm⟩

/-- A change that no law speaks of. -/
theorem Ruled.same (h : Ruled a b c s) (hm : modeView t = modeView s) (hc : causeView t = causeView s)
    (hb : BreakAwaited s → BreakAwaited t) : Ruled a b c t :=
  ⟨fun ha => (h.laws ha).same hm, fun ha hc' => (h.reported ha hc').same hm hc, fun hb' => hb (h.awaited hb')⟩

/-- A change of a cause's source, not reported yet. -/
theorem Ruled.changed (h : Ruled a b c s) (hm : modeView t = modeView s) (hb : BreakAwaited s → BreakAwaited t) :
    Ruled a b False t := ⟨fun ha => (h.laws ha).same hm, fun _ hf => hf.elim, fun hb' => hb (h.awaited hb')⟩

theorem ruled_ite {p : Prop} [Decidable p] (hs : p → Ruled a b c s) (ht : ¬ p → Ruled a b c t) :
    Ruled a b c (if p then s else t) := by
  split
  · exact hs ‹_›
  · exact ht ‹_›

theorem ruled_fold {α : Type} (f : State → α → State) (hf : ∀ t x, Ruled a b c t → Ruled a b c (f t x)) (l : List α)
    (h : Ruled a b c s) : Ruled a b c (l.foldl f s) := by
  induction l generalizing s with
  | nil => exact h
  | cons x l ih => exact ih (hf _ _ h)

theorem ruled_setClock (v : Clock) (h : Ruled a b c s) : Ruled a b c (s.setClock v) := h.same rfl rfl id
theorem ruled_setPins (v : Pins) (h : Ruled a b c s) : Ruled a b c (s.setPins v) := h.same rfl rfl id
theorem ruled_setRing (v : Ring) (h : Ruled a b c s) : Ruled a b c (s.setRing v) := h.same rfl rfl id
theorem ruled_setAxis (v : Axis) (h : Ruled a b c s) : Ruled a b c (s.setAxis v) := h.same rfl rfl id
theorem ruled_setStab (v : Stab) (h : Ruled a b c s) : Ruled a b c (s.setStab v) := h.same rfl rfl id
theorem ruled_setPlan (v : Plan) (h : Ruled a b c s) : Ruled a b c (s.setPlan v) := h.same rfl rfl id
theorem ruled_setTrack (v : Track) (h : Ruled a b c s) : Ruled a b c (s.setTrack v) := h.same rfl rfl id
theorem ruled_setLay (v : Lay) (h : Ruled a b c s) : Ruled a b c (s.setLay v) := h.same rfl rfl id
theorem ruled_setMem (v : TableMem) (h : Ruled a b c s) : Ruled a b c (s.setMem v) := h.same rfl rfl id
theorem ruled_setPending (v : List Instr) (h : Ruled a b c s) : Ruled a b c (s.setPending v) := h.same rfl rfl id

/-- A change of the tracker line that leaves the tracker state alone. -/
theorem ruled_line {v : Line} (h : Ruled a b c s) (hs : v.state = s.line.state)
    (hb : BreakAwaited s → BreakAwaited (s.setLine v)) : Ruled a b c (s.setLine v) := by
  refine h.same rfl ?_ hb
  unfold causeView conditionsNow
  rw [State.setLine_line, hs]
  rfl

/-- A change of the tracker line that leaves the tracker state and the break alone. -/
theorem ruled_setLine {v : Line} (h : Ruled a b c s) (hs : v.state = s.line.state) (hd : v.breakDue = s.line.breakDue)
    (hi : v.inBreak = s.line.inBreak) : Ruled a b c (s.setLine v) :=
  ruled_line h hs fun hb hdue => by
    rw [State.setLine_line, hd] at hdue
    rw [State.setLine_line, hi]
    exact hb hdue

/-- A tracker line on which no break is awaited any more. -/
theorem ruled_setLine_mark {v : Line} (h : Ruled a b c s) (hs : v.state = s.line.state) (hd : v.breakDue = none) :
    Ruled a b c (s.setLine v) := ruled_line h hs fun _ => breakAwaited_of_none hd

end Sys2Proof.Machine
end

section
/-! SUPPORT. The laws of the modes through the changes of the mode controller: faults, changes of mode, the report of the causes and
the changes of the tracker state (R96, R97, R181 to R188). -/

namespace Sys2Proof.Machine

variable {a b c d : Prop} {s t : State} {n : Nat}

/-! ### Faults and the transmitter -/

theorem ruled_faults (f : BitVec 16) (g : Option FirstFault) (h : Ruled a b c s) :
    Ruled a b c (s.setCtl { s.ctl with faults := f, first := g }) := h.same rfl rfl id

theorem ruled_latch (k : FaultKind) (n : Nat) (h : Ruled a b c s) : Ruled a b c (latch k n s) := by
  unfold latch Ctl.latch
  split
  · exact h
  · exact ruled_faults _ _ h

theorem ruled_frameDue (w : Word) (h : Ruled a b c s) : Ruled a b c (frameDue w s) := by
  unfold frameDue; split <;> exact ruled_setLine h rfl rfl rfl

theorem ruled_refreshTx (h : Ruled a b c s) : Ruled a b c (refreshTx s) :=
  ruled_ite (fun _ => ruled_ite (fun _ => h) fun _ => ruled_frameDue _ (ruled_setLine h rfl rfl rfl))
    fun _ => ruled_setLine h rfl rfl rfl

/-! ### The change of mode -/

/-- A change of mode is one of the mode controller, the lay controller and the transmitter (R62, R63, R99, R187). -/
theorem setMode_eq (m : Mode) (s : State) : ∃ l, receiver l = receiver s.line ∧ setMode m s =
    ((s.setLay (s.lay.onMode s.ctl.mode m s.params.hover)).setCtl { s.ctl with mode := m, holdN := m.held }).setLine l := by
  obtain ⟨l, hl, hr⟩ := refreshTx_setLine
    ((s.setLay (s.lay.onMode s.ctl.mode m s.params.hover)).setCtl { s.ctl with mode := m, holdN := m.held })
  exact ⟨l, hr, hl⟩

theorem ctl_setMode (m : Mode) (s : State) : (setMode m s).ctl = { s.ctl with mode := m, holdN := m.held } := by
  obtain ⟨l, -, he⟩ := setMode_eq m s
  rw [he]
  rfl

/-- A change of mode is none of the causes' sources. -/
theorem conditionsNow_setMode (m : Mode) (s : State) : conditionsNow (setMode m s) = conditionsNow s := by
  obtain ⟨l, hl, he⟩ := setMode_eq m s
  have hstate : l.state = s.line.state := (congrArg Line.state hl :)
  rw [he, conditionsNow, State.setLine_line, hstate]
  rfl

theorem awaited_setMode (m : Mode) (h : BreakAwaited s) : BreakAwaited (setMode m s) := by
  obtain ⟨l, hl, he⟩ := setMode_eq m s
  have hdue : l.breakDue = s.line.breakDue := (congrArg Line.breakDue hl :)
  have hbreak : l.inBreak = s.line.inBreak := (congrArg Line.inBreak hl :)
  rw [he]
  intro hd
  rw [State.setLine_line, hdue] at hd
  rw [State.setLine_line, hbreak]
  exact h hd

/-- A change to a mode in which the return mode and the recovery flag stand as they may. -/
theorem ModeLaws.setMode (m : Mode) (h : ∀ k ∈ s.guard.poisoned, 69 ≤ k ∧ k < 197) (hr : s.ctl.recovery = true → m = .guard)
    (hb : m = .hold → s.ctl.ret = some .guard ∨ s.ctl.ret = some .lay) (ha : m ≠ .hold → s.ctl.ret = none) :
    ModeLaws (setMode m s) := by
  have hctl := ctl_setMode m s
  refine ⟨by rw [guard_setMode]; exact h, ?_, ?_, ?_⟩ <;> rw [hctl]
  · exact hr
  · exact hb
  · exact ha

theorem ruled_setMode {m : Mode} (h : Ruled a b c s) (hm : ModeLaws s → ModeLaws (setMode m s)) :
    Ruled a b False (setMode m s) :=
  ⟨fun ha => hm (h.laws ha), fun _ hf => hf.elim, fun hb => awaited_setMode m (h.awaited hb)⟩

/-! ### The report of the causes (R183, R185) -/

theorem any_eq_false {x : Conditions} (h : x.any = false) : x = ⟨false, false, false, false⟩ := by
  obtain ⟨g, k, z, w⟩ := x
  simp only [Conditions.any, Bool.or_eq_false_iff] at h
  obtain ⟨⟨⟨rfl, rfl⟩, rfl⟩, rfl⟩ := h
  rfl

/-- The entry to HOLD takes the causes, and the return mode is GUARD or LAY (R185). -/
theorem ruled_enterHold (h : Ruled a b c s) (hm : s.ctl.mode.held = false) : Ruled a b d (enterHold s) := by
  obtain ⟨x, hx⟩ := ctl_enterHold s
  refine ⟨fun ha => ⟨?_, ?_, fun _ => ?_, ?_⟩, fun _ _ => ⟨rfl, ?_⟩, fun hb => awaited_setMode .hold (h.awaited hb)⟩
  · rw [guard_enterHold]; exact (h.laws ha).zones
  · rw [hx]; exact fun hf => nomatch hf
  · rw [hx]
    cases s.ctl.recovery
    · cases hmode : s.ctl.mode <;> simp_all [Mode.held]
    · exact .inl rfl
  · rw [hx]; exact fun hne => absurd rfl hne
  · rw [hx]; exact fun hf => nomatch hf

/-- The causes are taken as they are; in GUARD and LAY none is active. -/
theorem ruled_takeCauses (h : Ruled a b c s)
    (hc : s.ctl.mode.held = false → conditionsNow s = ⟨false, false, false, false⟩) : Ruled a b d (takeCauses s) :=
  ⟨fun ha => (h.laws ha).same rfl, fun _ _ => ⟨rfl, hc⟩, fun hb => h.awaited hb⟩

theorem ruled_report (h : Ruled a b c s) : Ruled a b d (report s) := by
  have hp : Ruled a b False (takeCauses s) := h.changed rfl id
  unfold report
  refine ruled_ite (fun hc => ruled_enterHold hp ?_) fun hc => ruled_takeCauses h fun hm => any_eq_false ?_
  · simpa using (Bool.and_eq_true_iff.1 hc).1
  · have hm' : (takeCauses s).ctl.mode.held = false := hm
    rw [hm'] at hc
    exact Bool.eq_false_iff.2 hc

theorem ruled_endRecovery (h : Ruled a b c s) : Ruled a b False (endRecovery s) :=
  ⟨fun ha => ⟨(h.laws ha).zones, (fun hf => nomatch hf), (h.laws ha).back, (h.laws ha).away⟩, fun _ hf => hf.elim,
    fun hb => h.awaited hb⟩

/-- STANDBY leaves no return mode and no recovery (R181). -/
theorem ruled_toStandby (h : Ruled a b c s) : Ruled a b d (toStandby s) := by
  obtain ⟨u, hu⟩ : ∃ u, u = endRecovery (s.setCtl { s.ctl with ret := none, starved := false, request := false }) := ⟨_, rfl⟩
  have hlaws : a → ModeLaws (setMode .standby u) := fun ha =>
    .setMode _ (by rw [hu]; exact (h.laws ha).zones) (by rw [hu]; exact fun hf => nomatch hf) (fun hf => nomatch hf)
      fun _ => by rw [hu]; rfl
  have hmode : Ruled a b False (setMode .standby u) :=
    ⟨hlaws, fun _ hf => hf.elim, fun hb => awaited_setMode _ (by rw [hu]; exact h.awaited hb)⟩
  rw [toStandby, ← hu]
  exact ruled_report hmode

/-- The event causes are none of the conditions (R184). -/
theorem ruled_events (x y : Bool) (h : Ruled a b c s) :
    Ruled a b c (s.setCtl { s.ctl with starved := x, request := y }) := h.same rfl rfl id

theorem ruled_raiseStarved (h : Ruled a b c s) : Ruled a b c (raiseStarved s) := by
  have he := ruled_events true s.ctl.request h
  unfold raiseStarved
  split <;> rename_i hm
  · exact h
  · exact he
  · exact ruled_enterHold he (congrArg Mode.held hm)
  · exact ruled_enterHold he (congrArg Mode.held hm)

theorem ruled_raiseRequest (h : Ruled a b c s) : Ruled a b c (raiseRequest s) := by
  have he := ruled_events s.ctl.starved true h
  unfold raiseRequest
  split <;> rename_i hm
  · exact h
  · exact he
  · exact ruled_enterHold he (congrArg Mode.held hm)
  · exact ruled_enterHold he (congrArg Mode.held hm)

/-! ### The tracker state (R96, R97) -/

/-- A change of the tracker state, which is a source of the TRACKER cause. -/
theorem ruled_setState (v : TrackState) (h : Ruled a b c s) : Ruled a b False (s.setLine { s.line with state := v }) :=
  h.changed rfl id

theorem ruled_enterLost (n : Nat) (h : Ruled a b c s) : Ruled a b c (enterLost n s) := by
  have hl := ruled_latch .trackerLost n h
  unfold enterLost
  split
  · exact h
  · exact ruled_report (ruled_refreshTx (ruled_setState _ h))
  · exact ruled_report (ruled_refreshTx (ruled_setState (s := latch .trackerLost n s) _ hl))
  · exact ruled_report (ruled_refreshTx (ruled_setState (s := latch .trackerLost n s) _ hl))

theorem ruled_enterStale (h : Ruled a b c s) : Ruled a b c (enterStale s) := by
  unfold enterStale
  split
  · exact h
  · exact ruled_report (ruled_refreshTx (ruled_setState (s := s.setLay { s.lay with gate := 0, openPending := false }) _
      (ruled_setLay _ h)))

theorem ruled_enterValid (h : Ruled a b c s) : Ruled a b c (enterValid s) :=
  ruled_report (ruled_refreshTx (ruled_setState _ h))

end Sys2Proof.Machine
end

section
/-! SUPPORT. The laws of the modes through the reads of table memory, the terms, the zones and the stabilizer: what a read finds in
error may be the source of a cause, which is reported with it (R119, R128, R131, R177, R183). -/

namespace Sys2Proof.Machine

variable {a b c d : Prop} {s t : State} {n : Nat}

/-! ### Markings and the TERM cause (R131) -/

theorem termCause_congr (hp : t.params.holdTerm = s.params.holdTerm) (hh : t.terms = s.terms)
    (hu : ∀ i < 32, termUnreadable t i = termUnreadable s i) : termCause t = termCause s := by
  unfold termCause
  rw [hp]
  by_cases hi : s.params.holdTerm < 32
  · unfold resolve termHeld
    rw [hu _ hi, hh]
  · simp only [hi, decide_false, Bool.false_and]

/-- A part that is no term's is none of the TERM cause's. -/
theorem termPart_ne (hn : ∀ i, placeOf n ≠ .term i) {i : Nat} (hi : i < 32) : termPart i ≠ n :=
  fun he => hn i (he ▸ placeOf_term hi)

theorem ruled_markUnreadable (h : Ruled a b c s) (hn : ∀ i, placeOf n ≠ .term i) :
    Ruled a b c (markUnreadable n s) := by
  have hterm : termCause (markUnreadable n s) = termCause s := termCause_congr rfl rfl fun i hi => by
    have hne := termPart_ne hn hi
    rw [Bool.eq_iff_iff]
    simp only [termUnreadable, markUnreadable, State.setMgmt_mgmt, List.contains_iff_mem, mem_setInsert, hne, false_or]
  exact h.same rfl (congrArg (fun x => (s.ctl.conditions, { conditionsNow s with term := x })) hterm) id

theorem ruled_setHeld (i : Nat) (v : TermHeld) (h : Ruled a b c s) : Ruled a b False (setHeld i v s) := h.changed rfl id

theorem ruled_countWords (f g : Nat) (h : Ruled a b c s) : Ruled a b c (countWords f g s) := h.same rfl rfl id

theorem ruled_storePart (n : Nat) (p : Part) (h : Ruled a b c s) : Ruled a b c (storePart n p s) := ruled_setMem _ h

/-- The marking of a part is cleared (R167, R168). -/
def unmarked (n : Nat) (s : State) : State :=
  (s.setMgmt { s.mgmt with unreadable := setErase n s.mgmt.unreadable }).setGuard
    { s.guard with poisoned := setErase n s.guard.poisoned }

theorem storeAccepted_eq (n : Nat) (p : Part) (s : State) :
    storeAccepted n p s = unmarked n (storePart n (p &&& usedBits (placeOf n)) s) := by
  simp only [storeAccepted, unmarked, State.setMgmt_guard]

/-- A marking that is cleared may end a cause. -/
theorem ruled_unmarked (n : Nat) (h : Ruled a b c s) : Ruled a b False (unmarked n s) :=
  ⟨fun ha => ⟨fun k hk => (h.laws ha).zones k (List.mem_of_mem_filter hk), (h.laws ha).recovery, (h.laws ha).back,
    (h.laws ha).away⟩, fun _ hf => hf.elim, fun hb => h.awaited hb⟩

/-- The marking of a part that is no zone's and no term's ends no cause. -/
theorem ruled_unmarked_plain (h : Ruled a b c s) (hn : n < 37 ∨ 197 ≤ n) : Ruled a b c (unmarked n s) := by
  refine ⟨(ruled_unmarked n h).laws, fun ha hc => ?_, (ruled_unmarked n h).awaited⟩
  have hpoison : (unmarked n s).guard.poisoned = s.guard.poisoned := List.filter_eq_self.2 fun k hk => by
    have := (h.laws ha).zones k hk
    rw [bne_iff_ne]
    omega
  have hterm : termCause (unmarked n s) = termCause s := termCause_congr rfl rfl fun i hi => by
    have hne := termPart_ne (placeOf_ne_term (hn.imp_right (by omega))) hi
    rw [Bool.eq_iff_iff]
    simp only [termUnreadable, unmarked, State.setGuard_mgmt, State.setMgmt_mgmt, List.contains_iff_mem, mem_setErase, ne_eq,
      hne, not_false_eq_true, true_and]
  have hnow : conditionsNow (unmarked n s) = conditionsNow s := by
    rw [conditionsNow, hpoison, hterm]
    rfl
  exact ⟨(h.reported ha hc).causes.trans hnow.symm, (h.reported ha hc).calm⟩

theorem ruled_storeAccepted (n : Nat) (p : Part) (h : Ruled a b c s) : Ruled a b False (storeAccepted n p s) := by
  rw [storeAccepted_eq]
  exact ruled_unmarked n (ruled_storePart _ _ h)

theorem ruled_storeAccepted_plain (p : Part) (h : Ruled a b c s) (hn : n < 37 ∨ 197 ≤ n) :
    Ruled a b c (storeAccepted n p s) := by
  rw [storeAccepted_eq]
  exact ruled_unmarked_plain (ruled_storePart _ _ h) hn

/-! ### Reads (R177) -/

theorem zone_of_placeOf {i p : Nat} (h : placeOf n = .zone i p) : 69 ≤ n ∧ n < 197 := by
  unfold placeOf at h
  split_ifs at h
  omega

/-- A zone part poisoned by a read (R119). -/
theorem ruled_poisoned {i p : Nat} (h : Ruled a b c s) (hn : placeOf n = .zone i p) :
    Ruled a b False (s.setGuard { s.guard with poisoned := setInsert n s.guard.poisoned }) := by
  refine ⟨fun ha => ⟨fun k hk => ?_, (h.laws ha).recovery, (h.laws ha).back, (h.laws ha).away⟩, fun _ hf => hf.elim,
    fun hb => h.awaited hb⟩
  rcases (mem_setInsert n k _).1 hk with rfl | hk
  · exact zone_of_placeOf hn
  · exact (h.laws ha).zones k hk

theorem ruled_uncorrectablePart (n : Nat) (h : Ruled a b c s) : Ruled a b c (uncorrectablePart n s).2 := by
  have hmark : ∀ i, (∀ j, placeOf n ≠ .term j) → Ruled a b c (latch .tableEcc i (markUnreadable n s)) := fun i hn =>
    ruled_latch _ _ (ruled_markUnreadable h hn)
  have hterm : Ruled a b False (markUnreadable n s) := h.changed rfl id
  unfold uncorrectablePart
  split <;> rename_i hn
  · exact ruled_report (ruled_latch _ _ (ruled_poisoned h hn))
  · exact ruled_latch _ _ (ruled_storePart _ _ h)
  · split
    · exact h
    · exact ruled_storePart _ _ h
  · exact hmark _ fun j => by simp [hn]
  · exact hmark _ fun j => by simp [hn]
  · exact ruled_report (ruled_setHeld _ _ (ruled_latch _ _ hterm))
  · exact hmark _ fun j => by simp [hn]

theorem ruled_writeBack (w : Nat) (f : WordFinding) (h : Ruled a b c s) : Ruled a b c (writeBack w f s) := by
  unfold writeBack
  split
  · exact ruled_setMem _ h
  · exact h

theorem ruled_readPart (n : Nat) (h : Ruled a b c s) : Ruled a b c (readPart n s).2 := by
  have hc := fun f g => ruled_countWords f g h
  have hw := fun f g => ruled_writeBack (2 * n + 1) (wordFinding s.mem (2 * n + 1))
    (ruled_writeBack (2 * n) (wordFinding s.mem (2 * n)) (hc f g))
  unfold readPart
  dsimp only
  split
  · exact ruled_uncorrectablePart _ (hc _ _)
  · split
    · exact hw _ _
    · exact ruled_uncorrectablePart _ (hw _ _)

theorem ruled_readPart_of {p : Option Part} (e : readPart n s = (p, t)) (h : Ruled a b c s) : Ruled a b c t := by
  have := ruled_readPart n h
  rwa [e] at this

theorem ruled_readAxis (i : Nat) (h : Ruled a b c s) : Ruled a b c (readAxis i s).2 := by
  unfold readAxis; split <;> exact ruled_readPart_of (by assumption) h

theorem ruled_readFine (r : Role) (h : Ruled a b c s) : Ruled a b c (readFine r s).2 := by
  unfold readFine
  split
  · exact h
  · have hr := ruled_readAxis ‹Nat› h
    split <;> rename_i heq <;> rwa [heq] at hr

theorem ruled_readFines (h : Ruled a b c s) : Ruled a b c (readFines s).2 :=
  ruled_readFine _ (ruled_readFine _ (ruled_readFine _ (ruled_readFine _ h)))

theorem ruled_readZone (i : Nat) (h : Ruled a b c s) : Ruled a b c (readZone i s).2 := by
  have hr := ruled_readPart (zonePart i 1) (ruled_readPart (zonePart i 0) h)
  unfold readZone
  dsimp only
  split <;> exact hr

theorem ruled_readZonesOf (l : List Nat) (h : Ruled a b c s) : Ruled a b c (readZonesOf l s).2 := by
  induction l generalizing s with
  | nil => exact h
  | cons i l ih => exact ih (ruled_readZone i h)

theorem ruled_readZones (h : Ruled a b c s) : Ruled a b c (readZones s).2 := ruled_readZonesOf _ h

theorem ruled_readCourse (i : Nat) (h : Ruled a b c s) : Ruled a b c (readCourse i s).2 := by
  have hr := ruled_readPart (coursePart i 1) (ruled_readPart (coursePart i 0) h)
  unfold readCourse
  dsimp only
  split <;> exact hr

theorem ruled_pointTest (g : Target) (h : Ruled a b c s) : Ruled a b c (pointTest g s).2 := by
  simp only [pointTest]
  exact ruled_readZones h

theorem ruled_stationEntry (st : Station) (h : Ruled a b c s) : Ruled a b c (stationEntry st s).2 := by
  unfold stationEntry
  split
  · exact h
  · have hr := ruled_readAxis ‹Nat› h
    split <;> rename_i heq <;> rwa [heq] at hr

theorem ruled_stationEntry_of {st : Station} {p : Option Nat} (e : stationEntry st s = (p, t)) (h : Ruled a b c s) :
    Ruled a b c t := by
  have := ruled_stationEntry st h
  rwa [e] at this

/-! ### Terms and scrub -/

theorem ruled_noteTerm (i : Nat) (h : Ruled a b c s) : Ruled a b d (noteTerm i s) :=
  ruled_report (ruled_ite (fun _ => ruled_latch _ _ h) fun _ => h)

/-- An evaluation reports the causes, whatever was reported before it. -/
theorem ruled_evalTerm (i : Nat) (h : Ruled a b c s) : Ruled a b d (evalTerm i s) := by
  unfold evalTerm
  split
  · exact ruled_noteTerm _ (ruled_readPart_of (by assumption) h)
  · exact ruled_noteTerm _ (ruled_setHeld _ _ (ruled_readPart_of (by assumption) h))

theorem ruled_evalTerms (l : List Nat) (h : Ruled a b c s) : Ruled a b c (evalTerms l s) :=
  ruled_fold _ (fun _ _ ht => ruled_evalTerm _ ht) l h

theorem ruled_scrubStep (h : Ruled a b c s) : Ruled a b c (scrubStep s) := by
  have hr := ruled_readPart s.mgmt.scrub h
  have hn : ∀ i, Ruled a b c (noteTerm i (readPart s.mgmt.scrub s).2) := fun i => ruled_noteTerm i hr
  unfold scrubStep
  dsimp only
  split
  · exact (hn _).same rfl rfl id
  · exact hr.same rfl rfl id

/-! ### The zone guard and the stabilizer -/

/-- The recovery run is no law's. -/
theorem ruled_noteOutcome (o : Outcome) (h : Ruled a b False s) : Ruled a b False (noteOutcome o s) := by
  have hrun : ∀ k, Ruled a b False (s.setGuard { s.guard with run := k }) := fun _ => h.same rfl rfl id
  exact ruled_ite
    (fun _ => ruled_ite (fun _ => hrun _) fun _ => ruled_ite (fun _ => hrun _) fun _ => ruled_endRecovery h)
    (fun _ => ruled_ite (fun _ => ruled_latch _ _ h) fun _ => h)

/-- The outcome of an evaluation is the source of the GUARD cause. -/
theorem ruled_setOutcome (o : Outcome) (h : Ruled a b c s) :
    Ruled a b False (s.setGuard { s.guard with outcome := o }) := h.changed rfl id

theorem ruled_zoneEvaluate (p : Quad Int) (h : Ruled a b c s) : Ruled a b c (zoneEvaluate p s) := by
  simp only [zoneEvaluate]
  exact ruled_report (ruled_noteOutcome _ (ruled_setOutcome _ (ruled_readZones h)))

theorem ruled_evaluateZones (h : Ruled a b c s) : Ruled a b c (evaluateZones s) := by
  unfold evaluateZones
  split
  · exact ruled_zoneEvaluate _ h
  · exact h

theorem ruled_stabCompute (fr : Bool) (h : Ruled a b c s) : Ruled a b c (stabCompute fr s) := by
  have hr := ruled_readFines h
  simp only [stabCompute]
  split
  · exact ruled_setStab _ hr
  · exact ruled_setLine (ruled_setStab _ hr) rfl rfl rfl

end Sys2Proof.Machine
end

section
/-! SUPPORT. The laws of the modes through the placement, the brick track and a whole TRAIN arrival: none of them is a source of a
cause, so only their reads, faults and terms come into question. -/

namespace Sys2Proof.Machine

variable {a b c : Prop} {s t : State} {n : Nat}

/-! ### Placement -/

theorem ruled_approachIfHeld (h : Ruled a b c s) : Ruled a b c (approachIfHeld s) :=
  ruled_ite (fun _ => ruled_setLay _ h) fun _ => h

theorem ruled_placementBegins (k : Nat) (h : Ruled a b c s) : Ruled a b c (placementBegins k s) :=
  ruled_approachIfHeld (ruled_setLay _ h)

theorem ruled_offsetStep (h : Ruled a b c s) : Ruled a b c (offsetStep s) := by
  have hl := fun v => ruled_setLay v h
  unfold offsetStep
  refine ruled_ite (fun _ => ?_) fun _ => hl _
  split <;> exact hl _

theorem ruled_layVerdict (h : Ruled a b c s) : Ruled a b c (layVerdict s) := by
  have hl := fun v => ruled_setLay v h
  unfold layVerdict
  refine ruled_ite (fun _ => ?_) fun _ => h
  split
  · exact ruled_ite (fun _ => hl _) fun _ => h
  · exact ruled_ite (fun _ => h) fun _ => hl _
  · exact ruled_ite (fun _ => h) fun _ => hl _
  all_goals exact h

theorem ruled_settleGate (o : Bool) (h : Ruled a b c s) : Ruled a b c (settleGate o s) := ruled_setLay _ h

theorem ruled_judgeGate (h : Ruled a b c s) : Ruled a b c (judgeGate s) := by
  unfold judgeGate
  split
  · exact ruled_settleGate _ h
  · exact ruled_settleGate _ (ruled_readPart _ h)

theorem ruled_gateAtTrain (h : Ruled a b c s) : Ruled a b c (gateAtTrain s) :=
  ruled_setLay _ (ruled_ite (fun _ => ruled_settleGate _ h) fun _ => h)

theorem ruled_gateAtEnd (h : Ruled a b c s) : Ruled a b c (gateAtEnd s) :=
  ruled_setLay _ (ruled_ite
    (fun _ => ruled_ite (fun _ => ruled_judgeGate h) fun _ => ruled_settleGate _ h) fun _ => h)

theorem ruled_reachSettle (h : Ruled a b c s) : Ruled a b c (reachSettle s) := by
  have hl := ruled_setLay { s.lay with timer := none } h
  refine ruled_ite (fun _ => ?_) fun _ => h
  dsimp only
  split
  · exact ruled_latch _ _ (ruled_setTrack _ hl)
  · exact hl

theorem ruled_discardPlacement (k : Ticket) (h : Ruled a b c s) : Ruled a b c (discardPlacement k s) := by
  unfold discardPlacement
  split
  · exact ruled_setLay _ h
  · exact ruled_setLay _ h
  · exact h

/-! ### The issue of a command -/

theorem ruled_issueFor (x : Cmd) (k : Ticket) (p : Word) (f : Ticket → Ticket) (h : Ruled a b c s) :
    Ruled a b c (issueFor x k p f s) := by
  unfold issueFor
  refine ruled_ite (fun _ => ?_) fun _ => h
  split
  · exact ruled_stationEntry_of (by assumption) h
  · exact ruled_setTrack _ (ruled_setTrack _ (ruled_stationEntry_of (by assumption) h))

/-- An admission request reads, may latch a fault and may bind the head (R17 to R20). -/
theorem ruled_admitHead (h : Ruled a b c s) : Ruled a b c (admitHead s).2 := by
  unfold admitHead
  split
  · exact h
  · rename_i e _ _
    split
    · exact ruled_latch _ _ h
    · have h1 := ruled_readPart (planPart e.slot) h
      unfold admitRecord
      split <;> rename_i heq <;> rw [heq] at h1
      · exact ruled_latch _ _ h1
      · rename_i body t1
        have h2 := ruled_readCourse e.course h1
        split <;> rename_i heq2 <;> rw [heq2] at h2
        · exact ruled_latch _ _ h2
        · rename_i crec t2
          have h3 := ruled_pointTest (targetOfRecord (planRec body) crec) h2
          split
          · unfold admitInCourse
            split
            · exact ruled_latch _ _ h2
            · split <;> rename_i heq3 <;> rw [heq3] at h3
              · exact ruled_latch _ _ h3
              · exact ruled_setPlan _ h3
          · exact ruled_latch _ _ h2

theorem ruled_issueFeed (h : Ruled a b c s) : Ruled a b c (issueFeed s) := by
  unfold issueFeed
  refine ruled_ite (fun _ => ?_) fun _ => h
  split
  · exact ruled_stationEntry_of (by assumption) h
  · have ha := ruled_admitHead (ruled_stationEntry_of (by assumption) h)
    split <;> rename_i heq <;> rw [heq] at ha
    · exact ha
    · exact ruled_setTrack _ (ruled_setTrack _ ha)

/-- The commands of SAW, GLUE, SHUTTLE and FLIPPER: one at most is issued at each. -/
theorem ruled_issuesOne (h : Ruled a b c s) (hi : IssuesOne s t) : Ruled a b c t := by
  rcases hi with rfl | ⟨x, k, p, f, rfl⟩
  · exact h
  · exact ruled_issueFor _ _ _ _ h

theorem ruled_requestOpen (h : Ruled a b c s) : Ruled a b c (requestOpen s) := by
  unfold requestOpen
  split
  · refine ruled_ite (fun _ => ?_) fun _ => h
    split
    · exact ruled_stationEntry_of (by assumption) h
    · exact ruled_setTrack _ (ruled_setLay _ (ruled_setTrack _ (ruled_stationEntry_of (by assumption) h)))
  · exact h

/-! ### Reports, timers and completions -/

theorem ruled_setStation (st : Station) (r : StationRec) (h : Ruled a b c s) : Ruled a b c (setStation st r s) :=
  ruled_setTrack _ h

theorem ruled_setTicket (n : Nat) (f : Ticket → Ticket) (h : Ruled a b c s) : Ruled a b c (setTicket n f s) :=
  ruled_setTrack _ h

theorem ruled_reissue (n : Nat) (counts : Bool) (h : Ruled a b c s) : Ruled a b c (reissue n counts s) := by
  rw [reissue_setPlan]
  exact ruled_setPlan _ h

theorem ruled_dropTicket (k : Ticket) (counts : Bool) (h : Ruled a b c s) : Ruled a b c (dropTicket k counts s) :=
  ruled_reissue _ _ (ruled_setTrack _ h)

theorem ruled_planLaid (n : Nat) (h : Ruled a b c s) : Ruled a b c (planLaid n s) := by
  unfold planLaid
  split
  · exact h
  · exact ruled_setPlan _ h

theorem ruled_cutCompletes (k : Ticket) (v : Int) (h : Ruled a b c s) : Ruled a b c (cutCompletes k v s) := by
  unfold cutCompletes
  exact ruled_ite (fun _ => ruled_setTrack _ (ruled_setTicket _ _ h)) fun _ => ruled_setTicket _ _ h

theorem ruled_completeFor (x : Cmd) (k : Ticket) (v : Int) (h : Ruled a b c s) : Ruled a b c (completeFor x k v s) := by
  cases x
  case cut => exact ruled_cutCompletes _ _ h
  case eject => exact ruled_dropTicket _ _ h
  case drop => exact ruled_dropTicket _ _ h
  case handover => exact ruled_placementBegins _ (ruled_setTicket _ _ h)
  case openJaws => exact ruled_planLaid _ (ruled_setTrack _ (ruled_setLay _ h))
  all_goals exact ruled_setTicket _ _ h

theorem ruled_complete (st : Station) (fl : InFlight) (v : Int) (h : Ruled a b c s) : Ruled a b c (complete st fl v s) := by
  unfold complete
  dsimp only
  split
  · exact ruled_completeFor _ _ _ (ruled_setStation _ _ h)
  · exact ruled_setStation _ _ h

theorem ruled_compareSensor (st : Station) (f : Feedback) (h : Ruled a b c s) : Ruled a b c (compareSensor st f s) :=
  ruled_ite (fun _ => h) fun _ => ruled_latch _ _ (ruled_setStation _ _ h)

theorem ruled_stationReport (st : Station) (f : Feedback) (h : Ruled a b c s) : Ruled a b c (stationReport st f s) := by
  refine ruled_compareSensor _ _ ?_
  unfold reportCommand
  dsimp only
  split
  · exact h
  · exact ruled_ite (fun _ => ruled_complete _ _ _ h) fun _ =>
      ruled_ite (fun _ => ruled_latch _ _ (ruled_setStation _ _ h)) fun _ => h

theorem ruled_reachStation (st : Station) (h : Ruled a b c s) : Ruled a b c (reachStation st s) := by
  unfold reachStation
  dsimp only
  split
  · exact ruled_ite (fun _ => ruled_latch _ _ (ruled_setStation _ _ h)) fun _ => ruled_setStation _ _ h
  · exact h

theorem ruled_reachOpenTime (n : Nat) (h : Ruled a b c s) : Ruled a b c (reachOpenTime n s) := by
  unfold reachOpenTime
  split
  · exact ruled_ite (fun _ => ruled_setTrack _ h) fun _ => h
  · exact h

theorem ruled_reachOpenTimesOf (l : List Ticket) (h : Ruled a b c s) : Ruled a b c (reachOpenTimesOf l s) :=
  ruled_fold _ (fun _ _ ht => ruled_reachOpenTime _ ht) _ h

theorem ruled_reachOpenTimes (h : Ruled a b c s) : Ruled a b c (reachOpenTimes s) := ruled_reachOpenTimesOf _ h

theorem ruled_spoilAtFlipper (h : Ruled a b c s) : Ruled a b c (spoilAtFlipper s) := by
  unfold spoilAtFlipper
  split
  · exact h
  · split
    · exact ruled_ite (fun _ => ruled_setTrack _ h) fun _ => h
    · exact h

theorem ruled_issueCommands (h : Ruled a b c s) : Ruled a b c (issueCommands s) :=
  ruled_issuesOne (ruled_issuesOne (ruled_issuesOne (ruled_issuesOne (ruled_issueFeed h) (issuesOne_saw _))
    (issuesOne_glue _)) (issuesOne_shuttle _)) (issuesOne_flipper _)

/-! ### RETRY and DISCARD -/

theorem ruled_retry (st : Station) (h : Ruled a b c s) : Ruled a b c (retry st s).2 := by
  have hset := fun r => ruled_setStation st r h
  unfold retry
  dsimp only
  split
  · exact h
  · split <;> exact hset _
  · split <;> exact hset _
  · split
    · exact hset _
    · exact h

theorem ruled_discard (st : Station) (k : Option Ticket) (h : Ruled a b c s) : Ruled a b c (discard st k s) := by
  unfold discard
  dsimp only
  split
  · exact ruled_setStation _ _ h
  · exact ruled_dropTicket _ _ (ruled_discardPlacement _ (ruled_setStation _ _ h))

/-! ### Trains -/

theorem ruled_outboundTrain (w : Word) (p : Half) (h : Ruled a b c s) : Ruled a b c (outboundTrain w p s) := by
  have h1 : Ruled a b c (beginTrain w p s) := ruled_setAxis _ (ruled_setRing _ h)
  have h2 := ruled_scrubStep (ruled_evalTerms (List.range 32) (ruled_gateAtTrain h1))
  have h3 := ruled_evaluateZones (ruled_stabCompute (frozen s) (ruled_offsetStep (ruled_approachIfHeld h2)))
  unfold outboundTrain trainIssue trainCompute
  exact ruled_issueCommands (ruled_spoilAtFlipper (ruled_requestOpen (ruled_layVerdict h3)))

theorem ruled_judgeSlot (r : Role) (h : Ruled a b c s) : Ruled a b c (judgeSlot r s) := by
  unfold judgeSlot
  split
  · exact h
  · exact ruled_ite (fun _ => h) fun _ => ruled_ite (fun _ => ruled_latch _ _ (ruled_setAxis _ h)) fun _ => ruled_setAxis _ h

theorem ruled_outboundEnd (h : Ruled a b c s) : Ruled a b c (outboundEnd s) :=
  ruled_setAxis _ (ruled_judgeSlot _ (ruled_judgeSlot _ (ruled_judgeSlot _ (ruled_judgeSlot _ (ruled_gateAtEnd h)))))

/-- The train watchdog runs out (R146). -/
theorem ruled_reachWatchdog (h : Ruled a b c s) : Ruled a b c (reachWatchdog s) := by
  have hr := ruled_setRing { s.ring with watchdog := none, expiries := bump s.ring.expiries } h
  exact ruled_ite (fun _ => ruled_raiseStarved (ruled_ite (fun _ => hr) fun _ => ruled_latch _ _ hr)) fun _ => h

end Sys2Proof.Machine
end

section
/-! SUPPORT. The laws of the modes over the tracker line, its expiries and the loop test (chapter 5), and after the three resets
(R175, R190). -/

namespace Sys2Proof.Machine

variable {a b c : Prop} {s t : State} {n : Nat}

/-! ### Characters and frames -/

theorem ruled_countLine (f : LineCounters → LineCounters) (h : Ruled a b c s) : Ruled a b c (countLine f s) :=
  ruled_setLine h rfl rfl rfl

theorem ruled_setAsm (v : Assembler) (h : Ruled a b c s) : Ruled a b c (setAsm v s) := ruled_setLine h rfl rfl rfl

theorem ruled_abandonFrame (h : Ruled a b c s) : Ruled a b c (abandonFrame s) := by
  unfold abandonFrame
  split
  · exact h
  all_goals exact ruled_setAsm _ (ruled_countLine _ h)

theorem ruled_stateOnAcceptance (h : Ruled a b c s) : Ruled a b c (stateOnAcceptance s) :=
  ruled_ite (fun _ => ruled_enterLost _ h) fun _ => ruled_ite (fun _ => ruled_enterStale h) fun _ => ruled_enterValid h

/-- The word that a term looks at is none of the TERM cause's; the terms on it are evaluated (R131). -/
theorem ruled_handTrackerWord (x : Sample) (h : Ruled a b c s) : Ruled a b c (handTrackerWord x s) :=
  ruled_evalTerms _ (h.same rfl rfl id)

theorem ruled_acceptSample (x : Sample) (r : Bool) (h : Ruled a b c s) : Ruled a b c (acceptSample x r s) :=
  ruled_handTrackerWord _ (ruled_stateOnAcceptance (ruled_setLine h rfl rfl rfl))

theorem ruled_judge (x : Sample) (h : Ruled a b c s) : Ruled a b c (judge x s) :=
  ruled_ite (fun _ => ruled_countLine _ h) fun _ =>
    ruled_ite (fun _ => ruled_ite (fun _ => ruled_countLine _ (ruled_setLine h rfl rfl rfl))
      fun _ => ruled_acceptSample _ _ h) fun _ => ruled_acceptSample _ _ h

theorem ruled_completeFrame (l : List Byte) (p : Bool) (x : Half) (h : Ruled a b c s) :
    Ruled a b c (completeFrame l p x s) :=
  ruled_ite (fun _ => ruled_countLine _ h) fun _ => ruled_ite (fun _ => ruled_countLine _ h) fun _ =>
    ruled_ite (fun _ => ruled_countLine _ h) fun _ => ruled_judge _ (ruled_setLine h rfl rfl rfl)

theorem ruled_takeByte (x : Byte) (f : Bool) (h : Ruled a b c s) : Ruled a b c (takeByte x f s) := by
  have hasm := fun v => ruled_setAsm v h
  unfold takeByte
  dsimp only
  split
  · exact ruled_ite (fun _ => hasm _) fun _ => h
  · exact ruled_ite (fun _ => hasm _) fun _ => ruled_setAsm _ (ruled_countLine _ h)
  · exact hasm _
  · split
    · exact hasm _
    · exact ruled_completeFrame _ _ _ (hasm _)

theorem ruled_takeBytes (l : List (Byte × Bool)) (h : Ruled a b c s) : Ruled a b c (takeBytes l s) :=
  ruled_fold _ (fun _ _ ht => ruled_takeByte _ _ ht) l h

theorem ruled_receiveCharacter (d : Byte) (p st : Bool) (h : Ruled a b c s) :
    Ruled a b c (receiveCharacter d p st s) := by
  have hl : Ruled a b c (s.setLine { s.line with breakDue := none }) := ruled_setLine_mark h rfl rfl
  exact ruled_ite (fun _ => h) fun _ => ruled_ite (fun _ => hl) fun _ =>
    ruled_ite (fun _ => ruled_takeByte _ _ hl) fun _ => ruled_abandonFrame (ruled_countLine _ hl)

theorem ruled_receiveFrame (l : List Byte) (bad : Bool) (h : Ruled a b c s) : Ruled a b c (receiveFrame l bad s) := by
  induction l generalizing s with
  | nil => exact h
  | cons d l ih =>
    cases l with
    | nil => exact ruled_receiveCharacter _ _ _ h
    | cons e l => exact ih (ruled_receiveCharacter _ _ _ h)

/-! ### Breaks, TRK_READY and expiries -/

/-- A break that is detected is awaited no more (R88, R104). -/
theorem ruled_detectBreak (h : Ruled a b c s) : Ruled a b c (detectBreak s) :=
  ruled_ite (fun _ => h) fun _ =>
    ruled_enterLost _ (ruled_countLine _ (ruled_abandonFrame (ruled_setLine_mark h rfl rfl)))

theorem ruled_endBreak (h : Ruled a b c s) : Ruled a b c (endBreak s) := ruled_setLine_mark h rfl rfl

theorem ruled_reachBreak (h : Ruled a b c s) : Ruled a b c (reachBreak s) := by
  unfold reachBreak
  split
  · exact ruled_ite (fun _ => ruled_detectBreak (ruled_setLine_mark h rfl rfl)) fun _ => h
  · exact h

theorem ruled_setReady (x : Bool) (h : Ruled a b c s) : Ruled a b c (setReady x s) := by
  have hc := ruled_countLine (fun k => { k with readyChanges := bump k.readyChanges })
    (ruled_setPins { s.pins with trkReady := x } h)
  exact ruled_ite (fun _ => h) fun _ => ruled_ite (fun _ => hc) fun _ => ruled_enterLost _ hc

theorem ruled_reachStale (h : Ruled a b c s) : Ruled a b c (reachStale s) :=
  ruled_ite (fun _ => ruled_enterStale h) fun _ => h

theorem ruled_reachLost (h : Ruled a b c s) : Ruled a b c (reachLost s) :=
  ruled_ite (fun _ => ruled_enterLost _ h) fun _ => h

theorem ruled_recomputeExpiries (h : Ruled a b c s) : Ruled a b c (recomputeExpiries s) := by
  unfold recomputeExpiries
  split
  · exact h
  · exact ruled_reachLost (ruled_reachStale (ruled_setLine h rfl rfl rfl))

/-! ### The reacquire transmitter and the loop test -/

theorem ruled_reachReacquire (h : Ruled a b c s) : Ruled a b c (reachReacquire s) :=
  ruled_ite (fun _ => ruled_frameDue _ h) fun _ => h

theorem ruled_loopFeed (k : Nat) (x : Half) (bad : Bool) (h : Ruled a b c s) : Ruled a b c (loopFeed k x bad s) := by
  unfold loopFeed
  split
  · exact ruled_takeBytes _ (ruled_setLine h rfl rfl rfl)
  · exact h

theorem ruled_loopCatchUp (h : Ruled a b c s) : Ruled a b c (loopCatchUp s) := by
  unfold loopCatchUp
  split
  · exact ruled_loopFeed _ _ _ h
  · exact h

theorem ruled_beginWaiting (h : Ruled a b c s) : Ruled a b c (beginWaiting s) := ruled_setLine h rfl rfl rfl

theorem ruled_reachSent (h : Ruled a b c s) : Ruled a b c (reachSent s) :=
  ruled_ite (fun _ => ruled_beginWaiting (ruled_countLine _ (ruled_loopFeed _ _ _ h))) fun _ => h

theorem ruled_settingsChanged (h : Ruled a b c s) : Ruled a b c (settingsChanged s) :=
  ruled_beginWaiting (ruled_abandonFrame h)

theorem ruled_abandonSending (h : Ruled a b c s) : Ruled a b c (abandonSending s) := ruled_setLine h rfl rfl rfl

theorem ruled_loopCleared (h : Ruled a b c s) : Ruled a b c (loopCleared s) :=
  ruled_refreshTx (ruled_abandonSending (ruled_abandonFrame h))

/-- A loop test begins without an awaited break, whatever was awaited before it (R101). -/
theorem ruled_loopSet (h : Ruled a False c s) : Ruled a b c (loopSet s) := by
  have ht := ruled_abandonSending (ruled_abandonFrame h)
  have hl : Ruled a False c ((abandonSending (abandonFrame s)).setLine
      { (abandonSending (abandonFrame s)).line with inBreak := false, breakDue := none, running := true }) :=
    ruled_setLine_mark ht rfl rfl
  have hmark : Ruled a b c ((abandonSending (abandonFrame s)).setLine
      { (abandonSending (abandonFrame s)).line with inBreak := false, breakDue := none, running := true }) :=
    ⟨hl.laws, hl.reported, fun _ => breakAwaited_of_none rfl⟩
  exact ruled_enterLost _ (ruled_frameDue _ hmark)

/-! ### Resets -/

/-- After a reset the causes are those of a part with no tracker (R190). -/
theorem ruled_initial (hc : s.ctl = Ctl.initial) (hg : s.guard = Guard.initial) (hl : s.line.state = .none)
    (hp : s.params = Params.initial) (hb : BreakAwaited s) : Ruled a b c s := by
  have hnow : conditionsNow s = Ctl.initial.conditions := by
    rw [conditionsNow, hc, hg, hl, termCause, hp]
    rfl
  refine ⟨fun _ => ⟨?_, ?_, ?_, ?_⟩, fun _ _ => ⟨?_, ?_⟩, fun _ => hb⟩
  · rw [hg]; exact fun _ hn => nomatch hn
  · rw [hc]; exact fun hf => nomatch hf
  · rw [hc]; exact fun hf => nomatch hf
  · rw [hc]; exact fun _ => rfl
  · rw [hnow, hc]
  · rw [hc]; exact fun hf => nomatch hf

theorem ruled_poweredOn (ra oa : BitVec 7) (ready space : Bool) (l : List Instr) :
    Ruled a b c (poweredOn ra oa ready space l) := ruled_initial rfl rfl rfl rfl fun _ => ⟨rfl, rfl⟩

theorem ruled_ringReset : Ruled a b c (ringReset s) := ruled_initial rfl rfl rfl rfl (breakAwaited_of_none rfl)

theorem ruled_restart (h : Ruled a b c s) : Ruled a b c (restart s) := by
  have hr : Ruled a b c (reissueAll s) := by
    rw [reissueAll_setPlan]
    exact ruled_setPlan _ h
  exact ruled_toStandby (ruled_setAxis _ (ruled_setLay _ (ruled_setTrack _ hr)))

end Sys2Proof.Machine
end

section
/-! SUPPORT. The laws of the modes over every management operation: replies and reads, the mode requests (R181, R182), and the
accepted WRITEs with their effects (R131, R167, R172). -/

namespace Sys2Proof.Machine

variable {a b c d : Prop} {s t : State} {n : Nat}

/-! ### Replies and reads -/

theorem ruled_answer (r : Request) (x : ReplyCode) (w : Byte) (p : Part) (h : Ruled a b c s) :
    Ruled a b c (answer r x w p s) := h.same rfl rfl id

theorem ruled_answerTwice (r : Request) (x : ReplyCode) (w : Byte) (p q : Part) (h : Ruled a b c s) :
    Ruled a b c (answerTwice r x w p q s) := h.same rfl rfl id

theorem ruled_writeShown (r : Request) (h : Ruled a b c s) : Ruled a b c (writeShown r s).2 := by
  unfold writeShown
  split
  · rename_i k _
    show Ruled a b c (writtenPart k s).2
    unfold writtenPart
    split
    · exact h
    · split <;> exact ruled_readPart_of (by assumption) h
  · split
    · exact h
    · split <;> exact h

theorem ruled_respond (r : Request) (x : ReplyCode) (h : Ruled a b c s) : Ruled a b c (respond r x s) := by
  have ha := fun w p => ruled_answer r x w p h
  unfold respond
  refine ruled_ite (fun _ => ruled_answerTwice _ _ _ _ _ h) fun _ => ?_
  refine ruled_ite (fun _ => h) fun _ => ?_
  refine ruled_ite (fun _ => ruled_answer _ _ _ _ (ruled_writeShown r h)) fun _ => ?_
  exact ruled_ite (fun _ => ha _ _) fun _ => ruled_ite (fun _ => ha _ _) fun _ => ha _ _

theorem ruled_readOrigins (x : Byte) (l : List Nat) (h : Ruled a b c s) : Ruled a b c (readOrigins x l s).2 := by
  induction l generalizing s with
  | nil => exact h
  | cons i l ih =>
    simp only [readOrigins]
    split <;> exact ih (ruled_readPart _ h)

theorem ruled_opRead (r : Request) (h : Ruled a b c s) : Ruled a b c (opReadExec r s) := by
  unfold opReadExec readPlan readCounters readTablePart
  dsimp only
  split
  · split
    · split <;> exact ruled_answer _ _ _ _ (ruled_readPart_of (by assumption) h)
    · exact ruled_answer _ _ _ _ h
  · split
    · split <;> exact ruled_answer _ _ _ _ h
    · split
      · exact ruled_answer _ _ _ _ h
      · split
        · split <;> exact ruled_answer _ _ _ _ (ruled_readPart_of (by assumption) h)
        · exact ruled_answer _ _ _ _ h

theorem ruled_opProbe (r : Request) (l : Nat) (h : Ruled a b c s) : Ruled a b c (opProbeExec r l s) := by
  have hz := ruled_readZone r.index.toNat h
  have hc := ruled_readCourse r.index.toNat h
  unfold opProbeExec probeZone probeCourse
  refine ruled_ite (fun _ => ruled_ite (fun _ => ?_) fun _ => ruled_answerTwice _ _ _ _ _ h) fun _ =>
    ruled_ite (fun _ => ?_) fun _ => ruled_answerTwice _ _ _ _ _ h
  · split <;> rename_i heq <;> rw [heq] at hz <;> exact ruled_answerTwice _ _ _ _ _ hz
  · split <;> rename_i heq <;> rw [heq] at hc <;> exact ruled_answerTwice _ _ _ _ _ hc

theorem ruled_scanMeets (k x i : Nat) (h : Ruled a b c s) : Ruled a b c (scanMeets k x i s).2 := by
  have hp : Ruled a b c (scanPresent k i s).2 := by
    unfold scanPresent
    split <;> exact ruled_readPart_of (by assumption) h
  unfold scanMeets
  split
  · exact h
  · exact hp
  · exact hp
  · exact h
  · exact h

theorem ruled_scanFrom (k x : Nat) (u : Bool) (m i : Nat) (h : Ruled a b c s) : Ruled a b c (scanFrom k x u m i s).2 := by
  induction m generalizing i s with
  | zero => exact h
  | succ m ih =>
    have hm := ruled_scanMeets k x i h
    unfold scanFrom
    split <;> rename_i heq <;> rw [heq] at hm
    · exact hm
    · split
      · exact hm
      · exact hm
      · exact ih _ hm

theorem ruled_opScan (r : Request) (h : Ruled a b c s) : Ruled a b c (opScanExec r s) :=
  ruled_ite (fun _ => ruled_answer _ _ _ _ h) fun _ => ruled_ite (fun _ => ruled_answer _ _ _ _ h) fun _ =>
    ruled_answer _ _ _ _ (ruled_scanFrom _ _ _ _ _ h)

/-! ### Plan and stations -/

theorem ruled_planAccept (p : Part) (h : Ruled a b c s) : Ruled a b c (planAccept p s) := ruled_setMem _ (ruled_setPlan _ h)
theorem ruled_planFlushFrom (k : Nat) (h : Ruled a b c s) : Ruled a b c (planFlushFrom k s) := ruled_setPlan _ h
theorem ruled_planRemove (e : QueueEntry) (h : Ruled a b c s) : Ruled a b c (planRemove e s) := ruled_setPlan _ h

theorem ruled_opAppend (r : Request) (h : Ruled a b c s) : Ruled a b c (opAppendExec r s) := by
  have hr := fun x => ruled_respond r x h
  unfold opAppendExec
  refine ruled_ite (fun _ => hr _) fun _ => ?_
  split
  · exact hr _
  · exact ruled_ite (fun _ => hr _) fun _ => ruled_answer _ _ _ _ (ruled_planAccept _ h)

theorem ruled_opFlush (r : Request) (h : Ruled a b c s) : Ruled a b c (opFlushExec r s) :=
  ruled_ite (fun _ => ruled_respond _ _ h) fun _ => ruled_answer _ _ _ _ (ruled_planFlushFrom _ h)

theorem ruled_opSkip (r : Request) (h : Ruled a b c s) : Ruled a b c (opSkipExec r s) := by
  unfold opSkipExec
  refine ruled_ite (fun _ => ruled_respond _ _ h) fun _ => ?_
  split
  · exact ruled_respond _ _ h
  · exact ruled_answer _ _ _ _ (ruled_planRemove _ h)

theorem ruled_opSuspend (r : Request) (l : Nat) (on : Bool) (h : Ruled a b c s) : Ruled a b c (opSuspendExec r l on s) := by
  unfold opSuspendExec suspendPoisoned
  refine ruled_ite (fun _ => ruled_respond _ _ h) fun _ => ruled_ite (fun _ => ruled_respond _ _ h) fun _ => ?_
  split <;> have h1 := ruled_readPart_of (by assumption) h
  · exact ruled_respond _ _ h1
  · exact ruled_ite (fun _ => ruled_respond _ _ h1) fun _ => ruled_ite (fun _ => ruled_respond _ _ h1) fun _ =>
      ruled_respond _ _ (h1.same rfl rfl id)

theorem ruled_opStation (r : Request) (h : Ruled a b c s) : Ruled a b c (opStationExec r s) := by
  have hdiscard : ∀ st, Ruled a b c (discardAnswer r st s) := fun st => by
    unfold discardAnswer
    split
    · exact ruled_answer _ _ _ _ h
    · exact ruled_answer _ _ _ _ h
    · exact ruled_answer _ _ _ _ (ruled_discard _ _ h)
  unfold opStationExec
  split
  · exact ruled_respond _ _ h
  · exact ruled_ite (fun _ => ruled_respond _ _ (ruled_retry _ h)) fun _ => ruled_ite (fun _ => hdiscard _) fun _ =>
      ruled_respond _ _ h

/-! ### The mode requests (R181, R182) -/

/-- No recovery is under way out of GUARD. -/
theorem ModeLaws.no_recovery (h : ModeLaws s) (hm : s.ctl.mode ≠ .guard) : s.ctl.recovery = false :=
  Bool.eq_false_iff.2 fun hr => hm (h.recovery hr)

theorem ruled_requestGuard (h : Ruled a b c s) : Ruled a b c (requestGuard s).2 := by
  have hguard : s.ctl.mode ≠ .hold → Ruled a b c (report (setMode .guard s)) := fun hm =>
    ruled_report (ruled_setMode h fun hl => .setMode _ hl.zones (fun _ => rfl) (fun hf => nomatch hf) fun _ => hl.away hm)
  unfold requestGuard
  split <;> rename_i hm
  · split
    · exact hguard (by rw [hm]; decide)
    · exact h
  · exact h
  · exact hguard (by rw [hm]; decide)
  · exact h

/-- LAY from GUARD leaves the causes as they stand, none of them active. -/
theorem ruled_requestLay (h : Ruled a b c s) : Ruled a b c (requestLay s).2 := by
  unfold requestLay
  split <;> rename_i hm
  · split
    · rename_i hr
      have hrec : s.ctl.recovery = false := by simpa using (Bool.and_eq_true_iff.1 hr).1
      refine ⟨fun ha => .setMode _ (h.laws ha).zones (fun hf => nomatch hrec ▸ hf) (fun hf => nomatch hf)
        fun _ => (h.laws ha).away (by rw [hm]; decide), fun ha hc => ⟨?_, fun _ => ?_⟩, fun hb => awaited_setMode _ (h.awaited hb)⟩
      · show (setMode .lay s).ctl.conditions = conditionsNow (setMode .lay s)
        rw [ctl_setMode, conditionsNow_setMode]
        exact (h.reported ha hc).causes
      · show (setMode .lay s).ctl.conditions = _
        rw [ctl_setMode]
        exact (h.reported ha hc).calm (by rw [hm]; rfl)
    · exact h
  all_goals exact h

theorem ruled_requestHold (h : Ruled a b c s) : Ruled a b c (requestHold s).2 := by
  unfold requestHold
  split
  · exact h
  all_goals exact ruled_raiseRequest h

/-- Leaving HOLD takes no cause from its source. -/
theorem ruled_resumed {m : Mode} (h : Ruled a b c s) (hm : s.ctl.mode = .hold) (hcalm : s.ctl.conditions.any = false)
    (hback : m ≠ .hold) : Ruled a b c (setMode m (leaveHold s)) := by
  have hnow : conditionsNow (setMode m (leaveHold s)) = conditionsNow s := conditionsNow_setMode m (leaveHold s)
  refine ⟨fun ha => .setMode _ (h.laws ha).zones (fun hf => ?_) (fun hf => absurd hf hback) fun _ => rfl,
    fun ha hc => ⟨?_, fun _ => ?_⟩, fun hb => awaited_setMode m (s := leaveHold s) (h.awaited hb)⟩
  · exact nomatch ((h.laws ha).no_recovery (by rw [hm]; decide)).symm.trans hf
  · rw [ctl_setMode, hnow]
    exact (h.reported ha hc).causes
  · rw [ctl_setMode]
    exact any_eq_false hcalm

theorem ruled_requestResume (h : Ruled a b c s) : Ruled a b c (requestResume s).2 := by
  unfold requestResume
  split <;> rename_i hm
  · split
    · exact h
    · exact ruled_resumed h hm (by simp_all) (by split <;> decide)
  all_goals exact h

/-- RECOVER sets aside the one cause that is active (R117, R182). -/
theorem ruled_recovered (h : Ruled a b c s) (honly : onlyGuard s.ctl.conditions = true) :
    Ruled a b c (takeCauses (setMode .guard (beginRecovery (leaveHold s)))) := by
  obtain ⟨u, hu⟩ : ∃ u, u = beginRecovery (leaveHold s) := ⟨_, rfl⟩
  have hset : Ruled a b False (setMode .guard u) := by
    refine ⟨fun ha => .setMode _ ?_ (fun _ => rfl) (fun hf => nomatch hf) fun _ => ?_, fun _ hf => hf.elim, fun hb =>
      awaited_setMode _ ?_⟩ <;> rw [hu]
    · exact (h.laws ha).zones
    · rfl
    · exact h.awaited hb
  rw [← hu]
  refine ⟨fun ha => (hset.laws ha).same rfl, fun ha hc => ⟨rfl, fun _ => ?_⟩, fun hb => hset.awaited hb⟩
  show conditionsNow (setMode .guard u) = _
  have hcauses := (h.reported ha hc).causes
  have hnow : conditionsNow u = { conditionsNow s with guard := false } := by rw [hu]; rfl
  rw [conditionsNow_setMode, hnow, ← hcauses]
  simp only [onlyGuard, Bool.and_eq_true, Bool.not_eq_true'] at honly
  obtain ⟨⟨⟨-, htracker⟩, hzone⟩, hterm⟩ := honly
  simp only [htracker, hzone, hterm]

theorem ruled_requestRecover (h : Ruled a b c s) : Ruled a b c (requestRecover s).2 := by
  unfold requestRecover
  split
  · split
    · exact ruled_recovered h (by assumption)
    · exact h
  all_goals exact h

theorem ruled_modeRequest (k : Nat) (h : Ruled a b c s) : Ruled a b c (modeRequest k s).2 := by
  unfold modeRequest
  split
  · exact ruled_requestGuard h
  · exact ruled_requestLay h
  · exact ruled_toStandby h
  · exact ruled_requestHold h
  · exact ruled_requestResume h
  · exact ruled_requestRecover h

theorem ruled_opMode (r : Request) (l : Nat) (h : Ruled a b c s) : Ruled a b c (opModeExec r l s) :=
  ruled_ite (fun _ => ruled_respond _ _ h) fun _ => ruled_ite (fun _ => ruled_respond _ _ h) fun _ =>
    ruled_respond _ _ (ruled_modeRequest _ h)

/-! ### Writes -/

theorem ruled_readForMerge_of {k : Nat} {m : Half} {x : Part} {p : Option Part} (e : readForMerge k m x s = (p, t))
    (h : Ruled a b c s) : Ruled a b c t := by
  have hr : Ruled a b c (readForMerge k m x s).2 := by
    unfold readForMerge
    split
    · exact h
    · split <;> exact ruled_readPart_of (by assumption) h
  rwa [e] at hr

/-- A WRITE whose effects report what its marking may have ended. -/
theorem ruled_storeMerged (r : Request) (k : Nat) (p : Part) {f : State → State}
    (hf : ∀ u, Ruled a b False u → Ruled a b c (f u)) (h : Ruled a b c s) : Ruled a b c (storeMerged r k p f s) :=
  ruled_ite (fun _ => h) fun _ => hf _ (ruled_storeAccepted _ _ h)

/-- A WRITE of a part that is no zone's and no term's. -/
theorem ruled_storeMerged_plain (r : Request) {k : Nat} (p : Part) {f : State → State} (hk : k < 37 ∨ 197 ≤ k)
    (hf : ∀ u, Ruled a b c u → Ruled a b c (f u)) (h : Ruled a b c s) : Ruled a b c (storeMerged r k p f s) :=
  ruled_ite (fun _ => h) fun _ => hf _ (ruled_storeAccepted_plain _ h hk)

theorem ruled_writeOrigin (r : Request) (l : Nat) (h : Ruled a b c s) : Ruled a b c (writeOriginTable r l s) := by
  unfold writeOriginTable
  refine ruled_ite (fun _ => ruled_respond _ _ h) fun hi => ruled_ite (fun _ => ruled_respond _ _ h) fun _ => ?_
  have hplace : originPart r.index.toNat < 37 := by
    simp only [Bool.or_eq_true, decide_eq_true_eq, not_or, Nat.not_le] at hi
    unfold originPart
    omega
  split <;> have h1 := ruled_readForMerge_of (by assumption) h
  · exact ruled_respond _ _ h1
  · exact ruled_ite (fun _ => ruled_respond _ _ (ruled_storeMerged_plain _ _ (.inl hplace) (fun _ hu => hu) h1)) fun _ =>
      ruled_respond _ _ h1

/-- Parameter values that name the same hold term; TRK_LOOP is clear, or it was set before. -/
theorem ruled_setParams {v : Params} (h : Ruled a b c s) (hterm : v.holdTerm = s.params.holdTerm)
    (hloop : b → v.trkLoop = true → s.params.trkLoop = true) : Ruled a b c (s.setParams v) := by
  have hcause : termCause (s.setParams v) = termCause s := termCause_congr hterm rfl fun _ _ => rfl
  refine ⟨fun ha => (h.laws ha).same rfl, fun ha hc => (h.reported ha hc).same rfl
    (congrArg (fun x => (s.ctl.conditions, { conditionsNow s with term := x })) hcause), fun hb hd => ?_⟩
  obtain ⟨hbreak, hoff⟩ := h.awaited hb hd
  refine ⟨hbreak, Bool.eq_false_iff.2 fun hv => ?_⟩
  have hset := hloop hb hv
  rw [hoff] at hset
  cases hset

/-- Where TRK_LOOP is set by the WRITE, the loop test ends an awaited break (R101). -/
theorem ruled_lineEffects {old : Params} (h : Ruled a False c s)
    (hb : (s.params.trkLoop = true → old.trkLoop = true) → Ruled a b c s) : Ruled a b c (lineEffects old s) := by
  have hsettings : ∀ {e : Prop}, Ruled a e c s →
      Ruled a e c (if settingsDiffer old s.params then settingsChanged s else s) := fun he =>
    ruled_ite (fun _ => ruled_settingsChanged he) fun _ => he
  unfold lineEffects
  dsimp only
  generalize (if settingsDiffer old s.params then settingsChanged s else s) = u at hsettings ⊢
  have hloop : Ruled a b c (if old.trkLoop == s.params.trkLoop then u else if s.params.trkLoop then loopSet u
      else loopCleared u) := by
    refine ruled_ite (fun he => hsettings (hb fun ht => ?_)) fun _ => ruled_ite (fun _ => ruled_loopSet (hsettings h)) fun hf =>
      ruled_loopCleared (hsettings (hb fun ht => absurd ht hf))
    rw [eq_of_beq he, ht]
  exact ruled_ite (fun _ => ruled_recomputeExpiries hloop) fun _ => hloop

theorem ruled_acceptLine (m : Part) (h : Ruled a b c s) : Ruled a b c (acceptParam 3 (paramClamp 3 m s.params) s) := by
  have hp : (loopCatchUp s).params = s.params := by
    obtain ⟨x, y, z, he⟩ := loopCatchUp_line s
    rw [he]
    rfl
  have hstored : ∀ {e : Prop}, Ruled a e c s → (e → (paramClamp 3 m s.params).trkLoop = true → s.params.trkLoop = true) →
      Ruled a e c (stored (paramClamp 3 m s.params) s) := fun he hloop =>
    ruled_storePart _ _ (ruled_setParams (ruled_loopCatchUp he) (by rw [hp]; rfl) (by rw [hp]; exact hloop))
  rw [acceptParam_three]
  exact ruled_lineEffects (hstored ⟨h.laws, h.reported, False.elim⟩ False.elim) fun hloop => hstored h fun _ => hloop

/-- The newly named hold term is evaluated, and the cause follows it (R131). -/
theorem ruled_acceptGuard (m : Part) (h : Ruled a b c s) : Ruled a b c (acceptParam 4 (paramClamp 4 m s.params) s) := by
  have hu : Ruled a b False (storePart (paramPart 4) (paramImage 4 (paramClamp 4 m s.params))
      (s.setParams (paramClamp 4 m s.params))) := ruled_storePart _ _ (h.changed rfl id)
  refine ruled_ite (fun he => ?_) fun _ => ruled_ite (fun _ => ruled_evalTerm _ hu) fun _ => ruled_report hu
  exact ruled_storePart _ _ (ruled_setParams h (Eq.symm he) fun _ ht => ht)

theorem ruled_acceptParam {p : Nat} (m : Part) (hp : p < 5) (h : Ruled a b c s) :
    Ruled a b c (acceptParam p (paramClamp p m s.params) s) := by
  interval_cases p
  · exact ruled_reachOpenTimes (ruled_storePart _ _ (ruled_setParams h rfl fun _ ht => ht))
  · exact ruled_storePart _ _ (ruled_setParams h rfl fun _ ht => ht)
  · exact ruled_storePart _ _ (ruled_setParams h rfl fun _ ht => ht)
  · exact ruled_acceptLine m h
  · exact ruled_acceptGuard m h

theorem ruled_writeParam (r : Request) (l : Nat) (h : Ruled a b c s) : Ruled a b c (writeParamTable r l s) := by
  have hr := fun x => ruled_respond r x h
  have hp : r.part.toNat < 5 → Ruled a b c (writeParamPart r r.part.toNat s) := by
    intro hlt
    unfold writeParamPart
    split <;> have h1 := ruled_readForMerge_of (by assumption) h
    · exact ruled_respond _ _ h1
    · exact ruled_respond _ _ (ruled_ite (fun _ => h1) fun _ => ruled_acceptParam _ hlt h1)
  exact ruled_ite (fun hlt => ruled_ite (fun _ => hr _) fun _ => ruled_ite (fun _ => hr _) fun _ => hp hlt) fun _ =>
    ruled_ite (fun _ => hr _) fun _ => ruled_ite (fun _ => hr _) fun _ => hr _

theorem ruled_axisAccepted (i : Nat) (e : AxisRec) (h : Ruled a b c s) : Ruled a b c (axisAccepted i e s) :=
  ruled_evalTerms _ (ruled_ite (fun _ => ruled_setAxis _ h) fun _ => ruled_setAxis _ h)

theorem ruled_writeAxis (r : Request) (l : Nat) (h : Ruled a b c s) : Ruled a b c (writeAxisTable r l s) := by
  unfold writeAxisTable
  refine ruled_ite (fun _ => ruled_respond _ _ h) fun _ => ruled_ite (fun _ => ruled_respond _ _ h) fun _ =>
    ruled_ite (fun _ => ruled_respond _ _ h) fun hi => ?_
  have hplace : axisPart r.index.toNat < 37 := by
    simp only [Bool.or_eq_true, decide_eq_true_eq, not_or, Nat.not_le] at hi
    unfold axisPart
    omega
  split <;> have h1 := ruled_readForMerge_of (by assumption) h
  · exact ruled_respond _ _ h1
  · exact ruled_ite (fun _ => ruled_respond _ _
      (ruled_storeMerged_plain _ _ (.inl hplace) (fun _ hu => ruled_axisAccepted _ _ hu) h1)) fun _ => ruled_respond _ _ h1

theorem ruled_termLevelOk (i l : Nat) (zs : List Nat) (h : Ruled a b c s) : Ruled a b c (termLevelOk i l zs s).2 := by
  induction zs generalizing s with
  | nil => exact h
  | cons z zs ih =>
    simp only [termLevelOk]
    split <;> exact ih (ruled_readPart _ h)

theorem ruled_writeTerm (r : Request) (l : Nat) (h : Ruled a b c s) : Ruled a b c (writeTermTable r l s) := by
  have h0 := ruled_termLevelOk r.index.toNat l (List.range 64) h
  unfold writeTermTable
  refine ruled_ite (fun _ => ruled_respond _ _ h) fun _ => ruled_ite (fun _ => ruled_respond _ _ h) fun _ => ?_
  split <;> rename_i heq <;> rw [heq] at h0
  · exact ruled_respond _ _ h0
  · split <;> have h1 := ruled_readForMerge_of (by assumption) h0
    · exact ruled_respond _ _ h1
    · exact ruled_ite (fun _ => ruled_respond _ _ (ruled_storeMerged _ _ _ (fun _ hu => ruled_evalTerm _ hu) h1)) fun _ =>
        ruled_respond _ _ h1

theorem ruled_readStored (k : Nat) (m : Half) (h : Ruled a b c s) : Ruled a b c (readStored k m s).2 := by
  unfold readStored
  split
  · exact h
  · exact ruled_readPart _ h

theorem ruled_writeZoneMerged (r : Request) (l : Nat) (p : Option Part) (h : Ruled a b c s) :
    Ruled a b c (writeZoneMerged r l p s) := by
  have hz : Ruled a b c (zoneMerged r p s).2 := by
    unfold zoneMerged
    split
    · exact ruled_readPart _ h
    · exact ruled_readForMerge_of rfl h
  unfold writeZoneMerged
  split <;> rename_i heq <;> rw [heq] at hz
  · exact ruled_respond _ _ hz
  · exact ruled_ite (fun _ => ruled_respond _ _ hz) fun _ => ruled_ite (fun _ => ruled_respond _ _ hz) fun _ =>
      ruled_respond _ _ (ruled_storeMerged _ _ _ (fun _ hu => ruled_report hu) hz)

theorem ruled_writeZone (r : Request) (l : Nat) (h : Ruled a b c s) : Ruled a b c (writeZoneTable r l s) := by
  have h0 : Ruled a b c (readZero r s).2 := ruled_readStored _ _ h
  unfold writeZoneTable
  exact ruled_ite (fun _ => ruled_respond _ _ h) fun _ => ruled_ite (fun _ => ruled_writeZoneMerged _ _ _ h0) fun _ =>
    ruled_respond _ _ h0

theorem ruled_writeCourseMerged (r : Request) (m o z : Option Part) (h : Ruled a b c s) :
    Ruled a b c (writeCourseMerged r m o z s) := by
  have hr := fun x => ruled_respond r x h
  have hplace : 197 ≤ coursePart r.index.toNat r.part.toNat := by
    unfold coursePart
    omega
  unfold writeCourseMerged
  split
  · exact hr _
  · exact ruled_ite (fun _ => hr _) fun _ => ruled_ite (fun _ => hr _) fun _ => ruled_ite (fun _ => hr _) fun _ =>
      ruled_respond _ _ (ruled_storeMerged_plain _ _ (.inr hplace) (fun _ hu => hu) h)

theorem ruled_writeCourse (r : Request) (l : Nat) (h : Ruled a b c s) : Ruled a b c (writeCourseTable r l s) :=
  ruled_ite (fun _ => ruled_respond _ _ h) fun _ => ruled_ite (fun _ => ruled_respond _ _ h) fun _ =>
    ruled_ite (fun _ => ruled_writeCourseMerged _ _ _ _ (ruled_readPart _ (ruled_readStored _ _ h))) fun _ =>
      ruled_writeCourseMerged _ _ _ _ (ruled_readPart _ (ruled_readForMerge_of rfl h))

theorem ruled_opWrite (r : Request) (l : Nat) (h : Ruled a b c s) : Ruled a b c (opWriteExec r l s) := by
  unfold opWriteExec
  split
  · exact ruled_writeOrigin _ _ h
  · exact ruled_writeParam _ _ h
  · exact ruled_writeAxis _ _ h
  · exact ruled_writeTerm _ _ h
  · exact ruled_writeZone _ _ h
  · exact ruled_writeCourse _ _ h

theorem ruled_perform (r : Request) (l : Nat) (h : Ruled a b c s) : Ruled a b c (perform r l s) := by
  unfold perform
  refine ruled_ite (fun _ => ruled_opRead _ h) fun _ => ?_
  refine ruled_ite (fun _ => ruled_opWrite _ _ h) fun _ => ?_
  refine ruled_ite (fun _ => ruled_opProbe _ _ h) fun _ => ?_
  refine ruled_ite (fun _ => ruled_opScan _ h) fun _ => ?_
  refine ruled_ite (fun _ => ruled_opAppend _ h) fun _ => ?_
  refine ruled_ite (fun _ => ruled_opFlush _ h) fun _ => ?_
  refine ruled_ite (fun _ => ruled_opSkip _ h) fun _ => ?_
  refine ruled_ite (fun _ => ruled_opMode _ _ h) fun _ => ?_
  refine ruled_ite (fun _ => ruled_opSuspend _ _ _ h) fun _ => ?_
  refine ruled_ite (fun _ => ruled_opSuspend _ _ _ h) fun _ => ?_
  refine ruled_ite (fun _ => ruled_respond _ _ (ruled_faults _ _ h)) fun _ => ?_
  refine ruled_ite (fun _ => ruled_opStation _ h) fun _ => ?_
  exact ruled_ite (fun _ => ruled_respond _ _ (ruled_restart h)) fun _ => ruled_ringReset

theorem ruled_manage (r : Request) (h : Ruled a b c s) : Ruled a b c (manage r s) := by
  have ho := ruled_readOrigins r.src (List.range 8) h
  unfold manage originLevel
  refine ruled_ite (fun _ => ?_) fun _ => h.same rfl rfl id
  split <;> rename_i heq <;> rw [heq] at ho
  · exact ruled_respond _ _ ho
  · have hr := fun x => ruled_respond r x ho
    exact ruled_ite (fun _ => hr _) fun _ => ruled_ite (fun _ => hr _) fun _ => ruled_ite (fun _ => hr _) fun _ =>
      ruled_ite (fun _ => hr _) fun _ => ruled_perform _ _ ho

end Sys2Proof.Machine
end

section
/-! The laws of the part over every cell, every expiry and so over every step (O5). -/

namespace Sys2Proof.Machine

variable {a b c : Prop} {s t : State} {n : Nat}

/-! ### Cells -/

theorem ruled_enqueue (p : Port) (x : Cell) (h : Ruled a b c s) : Ruled a b c (enqueue p x s) :=
  ruled_ite (fun _ => ruled_setRing _ h) fun _ => ruled_setRing _ h

theorem ruled_enqueueFill (p : Port) (x : Cell) (h : Ruled a b c s) : Ruled a b c (enqueueFill p x s) :=
  ruled_ite (fun _ => ruled_enqueue _ _ h) fun _ => h

theorem ruled_conditionCoarse (i : Nat) (x : Cell) (h : Ruled a b c s) : Ruled a b c (conditionCoarse i x s).2 := by
  have hr := ruled_readAxis i h
  unfold conditionCoarse
  split
  · exact ruled_setAxis _ h
  · split <;> rename_i heq <;> rw [heq] at hr
    · exact ruled_setAxis _ hr
    · split
      · exact ruled_setAxis _ hr
      · unfold forwardLimited
        split <;> exact ruled_setAxis _ hr

theorem ruled_fillFine (r : Role) (i : Nat) (x : Cell) (h : Ruled a b c s) : Ruled a b c (fillFine r i x s).2 := by
  unfold fillFine
  split
  · exact h
  · exact ruled_setAxis _ h

theorem ruled_fillStation (st : Station) (i : Nat) (x : Cell) (h : Ruled a b c s) :
    Ruled a b c (fillStation st i x s).2 := by
  unfold fillStation
  split <;> exact h

theorem ruled_conditionSet (x : Cell) (h : Ruled a b c s) : Ruled a b c (conditionSet x s).2 := by
  unfold conditionSet
  split
  · exact h
  · rename_i i e _
    cases e.role
    case coarse => exact ruled_conditionCoarse i x h
    case fineX => exact ruled_fillFine _ i x h
    case fineY => exact ruled_fillFine _ i x h
    case fineZ => exact ruled_fillFine _ i x h
    case fineW => exact ruled_fillFine _ i x h
    case sensor => exact h
    all_goals exact ruled_fillStation _ i x h

theorem ruled_captureCell (x : Cell) (h : Ruled a b c s) : Ruled a b c (captureCell x s) := by
  unfold captureCell
  split
  · exact h
  · refine ruled_ite (fun _ => h) fun _ => ?_
    simp only [capture]
    split
    · exact ruled_stationReport _ _ (ruled_evalTerms _ (ruled_setAxis _ h))
    · exact ruled_evalTerms _ (ruled_setAxis _ h)

theorem ruled_appendOwn (h : Ruled a b c s) : Ruled a b c (appendOwn s) := by
  have he : Ruled a b c (enqueueAll .up (ownCells s) s) := ruled_fold _ (fun _ _ ht => ruled_enqueue _ _ ht) _ h
  exact ruled_ite (fun _ => ruled_setRing _ (ruled_setLay _ (he.same rfl rfl id))) fun _ => h

theorem ruled_passUp (x : Cell) (h : Ruled a b c s) : Ruled a b c (passUp x s) := by
  have hc := ruled_conditionSet x h
  unfold passUp
  refine ruled_ite (fun _ => ?_) fun _ => ruled_ite (fun _ => ?_) fun _ => ruled_ite (fun _ => ?_) fun _ => ?_
  · exact ruled_enqueue _ _ (ruled_ite (fun _ => h) fun _ => ruled_outboundTrain _ _ h)
  · exact ruled_enqueue _ _ (ruled_ite (fun _ => hc) fun _ => ruled_setAxis _ hc)
  · exact ruled_ite (fun _ => ruled_manage _ h) fun _ => ruled_enqueue _ _ h
  · exact ruled_ite (fun _ => ruled_enqueue _ _ (ruled_outboundEnd h)) fun _ =>
      ruled_ite (fun _ => ruled_enqueueFill _ _ h) fun _ => ruled_enqueue _ _ h

theorem ruled_passDown (x : Cell) (h : Ruled a b c s) : Ruled a b c (passDown x s) :=
  ruled_ite (fun _ => ruled_enqueue _ _ (ruled_captureCell _ h)) fun _ =>
    ruled_ite (fun _ => ruled_enqueue _ _ (ruled_appendOwn h)) fun _ =>
      ruled_ite (fun _ => ruled_enqueueFill _ _ h) fun _ => ruled_enqueue _ _ h

theorem ruled_receive (p : Port) (x : Cell) (h : Ruled a b c s) : Ruled a b c (receive p x s) := by
  have h1 := ruled_setRing (s.ring.setRx p ((s.ring.rx p).receive (isGood x) s.clock.us)) h
  refine ruled_ite (fun _ => ruled_ite (fun _ => ?_) fun _ => ruled_enqueue _ _ (ruled_setRing _ h1)) fun _ => h1
  cases p
  · exact ruled_passUp _ h1
  · exact ruled_passDown _ h1

/-! ### Every step -/

theorem ruled_reachActivity (p : Port) (h : Ruled a b c s) : Ruled a b c (reachActivity p s) :=
  ruled_ite (fun _ => ruled_setRing _ h) fun _ => h

theorem ruled_transmit (p : Port) (h : Ruled a b c s) : Ruled a b c (transmit p s) := by
  unfold transmit
  dsimp only
  split <;> exact ruled_setRing _ h

theorem ruled_tick (h : Ruled a b c s) : Ruled a b c (tick s) := by
  have h1 : Ruled a b c (reachStations (reachWatchdog (reachActivity .down (reachActivity .up s)))) :=
    ruled_fold _ (fun _ _ ht => ruled_reachStation _ ht) _
      (ruled_reachWatchdog (ruled_reachActivity _ (ruled_reachActivity _ h)))
  have h2 := ruled_reachBreak (ruled_reachLost (ruled_reachStale (ruled_reachSettle (ruled_reachOpenTimes h1))))
  exact ruled_setClock _ (ruled_reachReacquire (ruled_reachSent (ruled_loopCatchUp h2)))

/-- What every event of the part keeps: a command of the ring, of the tracker line or of the pins, an expiry, a memory error, a
power-on reset, and the passing of a microsecond. -/
structure KeptByEvents (P : State → Prop) : Prop where
  pending : ∀ {s} l, P s → P (s.setPending l)
  tick : ∀ {s}, P s → P (tick s)
  poweredOn : ∀ ra oa ready space l, P (poweredOn ra oa ready space l)
  receive : ∀ {s} p x, P s → P (receive p x s)
  note : ∀ {s} v, P s → P (s.setAxis v)
  activity : ∀ {s} p, P s → P (reachActivity p s)
  transmit : ∀ {s} p, P s → P (transmit p s)
  watchdog : ∀ {s}, P s → P (reachWatchdog s)
  station : ∀ {s} st, P s → P (reachStation st s)
  openTime : ∀ {s} k, P s → P (reachOpenTimeNumbered k s)
  settle : ∀ {s}, P s → P (reachSettle s)
  character : ∀ {s} d p x, P s → P (receiveCharacter d p x s)
  frame : ∀ {s} l x, P s → P (receiveFrame l x s)
  loop : ∀ {s} n x y, P s → P (loopFeed n x y s)
  lineBreak : ∀ {s}, P s → P (detectBreak s)
  lineBreakEnd : ∀ {s}, P s → P (endBreak s)
  ready : ∀ {s} x, P s → P (setReady x s)
  stale : ∀ {s}, P s → P (reachStale s)
  lost : ∀ {s}, P s → P (reachLost s)
  reacquire : ∀ {s}, P s → P (reachReacquire s)
  sent : ∀ {s}, P s → P (reachSent s)
  flip : ∀ {s} k w i j, P s → P (flipBits k w i j s)

theorem KeptByEvents.exec {P : State → Prop} (k : KeptByEvents P) (x : Instr) (h : P s) (he : exec x s = .next t) : P t := by
  have hn : ∀ {u : State}, P u → (.next u : Result) = .next t → P t := by
    intro u hu e
    cases e
    exact hu
  cases x
  case powerOnReset => exact hn (k.poweredOn _ _ _ _ _) he
  case lineActivityTimeout => exact hn (k.activity _ h) he
  case cellTransmit => exact hn (k.transmit _ h) he
  case fineSet => exact hn (k.receive _ _ (k.note _ h)) he
  case trainWatchdogExpiry => exact hn (k.watchdog h) he
  case stationTimeout => exact hn (k.station _ h) he
  case openTimeExpiry => exact hn (k.openTime _ h) he
  case placeTimeout => exact hn (k.settle h) he
  case characterReceive => exact hn (k.character _ _ _ h) he
  case sampleFrameComplete => exact hn (k.frame _ _ h) he
  case loopFrame => exact hn (k.loop _ _ _ h) he
  case lineBreak => exact hn (k.lineBreak h) he
  case lineBreakEnd => exact hn (k.lineBreakEnd h) he
  case trkReadyChange => exact hn (k.ready _ h) he
  case staleExpiry => exact hn (k.stale h) he
  case lostExpiry => exact hn (k.lost h) he
  case reacquireDue => exact hn (k.reacquire h) he
  case reacquireSent => exact hn (k.sent h) he
  case tableMemoryError part word bit second =>
    have he' : (if bitsExist part word bit second then .next (flipBits part word bit second s)
      else .fault .noSuchBit : Result) = .next t := he
    split at he'
    · exact hn (k.flip _ _ _ _ h) he'
    · cases he'
  all_goals exact hn (k.receive _ _ h) he

theorem KeptByEvents.step {P : State → Prop} (k : KeptByEvents P) (h : P s) (he : step s = .next t) : P t := by
  unfold Machine.step at he
  split at he
  · cases he
    exact k.tick h
  · exact k.exec _ (k.pending _ h) he

theorem ruled_keptByEvents : KeptByEvents (Ruled a b c) where
  pending := ruled_setPending
  tick := ruled_tick
  poweredOn := ruled_poweredOn
  receive := ruled_receive
  note := ruled_setAxis
  activity := ruled_reachActivity
  transmit := ruled_transmit
  watchdog := ruled_reachWatchdog
  station := ruled_reachStation
  openTime _ := ruled_reachOpenTimesOf _
  settle := ruled_reachSettle
  character := ruled_receiveCharacter
  frame := ruled_receiveFrame
  loop := ruled_loopFeed
  lineBreak := ruled_detectBreak
  lineBreakEnd := ruled_endBreak
  ready := ruled_setReady
  stale := ruled_reachStale
  lost := ruled_reachLost
  reacquire := ruled_reachReacquire
  sent := ruled_reachSent
  flip _ _ _ _ := ruled_setMem _

theorem lawful_keptByEvents : KeptByEvents (Lawful 16) where
  pending := lawful_setPending
  tick := lawful_tick
  poweredOn := lawful_poweredOn
  receive := lawful_receive
  note := lawful_setAxis
  activity := lawful_reachActivity
  transmit := lawful_transmit
  watchdog := lawful_reachWatchdog
  station := lawful_reachStation
  openTime := lawful_reachOpenTimeNumbered
  settle := lawful_reachSettle
  character := lawful_receiveCharacter
  frame := lawful_receiveFrame
  loop := lawful_loopFeed
  lineBreak := lawful_detectBreak
  lineBreakEnd := lawful_setLine _
  ready := lawful_setReady
  stale := lawful_reachStale
  lost := lawful_reachLost
  reacquire := lawful_reachReacquire
  sent := lawful_reachSent
  flip := lawful_flipBits

/-- Settles O5: each group of laws is carried through the step by itself; the causes are those of their owners because whatever
changes a source reports in the same event. -/
theorem everyStepKeepsTheLawsOfThePart : Obligations.EveryStepKeepsTheLawsOfThePart := by
  intro s t he
  have h : Ruled (Watched s) (BreakAwaited s) True t := ruled_keptByEvents.step
    ⟨fun hw => (watched_iff.1 hw).1, fun hw _ => (watched_iff.1 hw).2, id⟩ he
  exact ⟨fun hl => lawful_keptByEvents.step hl he, fun hw => watched_iff.2 ⟨h.laws hw, h.reported hw trivial⟩, h.awaited⟩

end Sys2Proof.Machine
end

section
/-! SUPPORT. MODE requests (R181, R182, R185, R187): the order of judgement, the reply with the mode and the causes, what a change of
mode leaves alone, and one equation for each answer of the mode controller. -/

namespace Sys2Proof.Machine

variable {s t u : State} {who : Sender} {level k : Nat} {m : Mode}

/-! ### The judgement and the reply -/

/-- The level that a mode request asks for (R174). -/
def modeLevel (k : Nat) : Nat := if k = 6 then 0 else 1

/-- A MODE request for a code. -/
def modeAsked (who : Sender) (k : Nat) : Request := requestFor who opMode 0 0 0 (BitVec.ofNat 128 k)

theorem code_modeAsked (who : Sender) (hk : k ≤ 6) : field (modeAsked who k).data 0 1 = k := by
  show field (BitVec.ofNat 128 k) 0 1 = k
  revert hk
  revert k
  decide

theorem respond_mode (who : Sender) (k : Nat) (x : ReplyCode) (t : State) : respond (modeAsked who k) x t = moded who x t := by
  have hshown : packPart [(1, t.ctl.mode.code)] = BitVec.ofNat 128 t.ctl.mode.code := by
    cases t.ctl.mode <;> decide
  show answer (modeAsked who k) x (BitVec.ofNat 8 (causeByte t.ctl)) (packPart [(1, t.ctl.mode.code)]) t = _
  rw [hshown]
  rfl

/-- The level first, then the mode controller (R174). -/
theorem opMode_asked (who : Sender) (hk : 0 < k) (hk' : k ≤ 6) (level : Nat) (s : State) :
    opModeExec (modeAsked who k) level s = if modeLevel k < level then moded who .refusedLevel s
      else moded who (modeRequest k s).1 (modeRequest k s).2 := by
  have hcode : ¬ (decide (k = 0) || decide (6 < k)) = true := by simp; omega
  rw [opModeExec, code_modeAsked who hk', if_neg hcode]
  exact ite_congr rfl (fun _ => respond_mode who k _ _) fun _ => respond_mode who k _ _

/-- A request of a code that its level allows is the mode controller's to answer. -/
theorem mode_answers {x : ReplyCode} (h : Heard s who level) (hk : 0 < k) (hk' : k ≤ 6) (hl : level ≤ modeLevel k)
    (e : modeRequest k (arrived .up s) = (x, t)) :
    operate who opMode 0 0 0 (BitVec.ofNat 128 k) s = .next (moded who x t) := by
  have hlevel : level ≤ minimumLevel opMode := hl.trans (by unfold modeLevel; split <;> decide)
  have hasked := opMode_asked who hk hk' level (arrived .up s)
  rw [if_neg (Nat.not_lt.2 hl), e] at hasked
  exact (operate_performed s who level opMode 0 0 0 _ h rfl rfl hlevel).trans (congrArg _ hasked)

/-- A request above the level of its code is refused. -/
theorem mode_refused (h : Heard s who level) (hk : 0 < k) (hk' : k ≤ 6) (hl : modeLevel k < level) :
    operate who opMode 0 0 0 (BitVec.ofNat 128 k) s = .next (moded who .refusedLevel (arrived .up s)) := by
  by_cases hlevel : level ≤ minimumLevel opMode
  · have hasked := opMode_asked who hk hk' level (arrived .up s)
    rw [if_pos hl] at hasked
    exact (operate_performed s who level opMode 0 0 0 _ h rfl rfl hlevel).trans (congrArg _ hasked)
  · exact (operate_refused h 0 0 0 _ rfl rfl (Nat.lt_of_not_le hlevel)).trans (congrArg _ (respond_mode who k _ _))

/-! ### What a change of mode leaves alone -/

/-- Nothing but the mode, the lay controller's phase, the recovery run and the transmitter may differ. -/
structure ModeMoves (s t : State) : Prop where
  blocks : Undisturbed s t
  tables : LeavesTables s t

theorem ModeMoves.trans (h : ModeMoves s t) (h' : ModeMoves t u) : ModeMoves s u := by
  obtain ⟨hb, hmgmt, ⟨hf, hfirst⟩, hmem, hterms, ⟨hs, hp, ho⟩, hstate, hcur⟩ := h
  obtain ⟨hb', hmgmt', ⟨hf', hfirst'⟩, hmem', hterms', ⟨hs', hp', ho'⟩, hstate', hcur'⟩ := h'
  exact ⟨hb.trans hb', hmgmt'.trans hmgmt, ⟨hf'.trans hf, hfirst'.trans hfirst⟩, hmem'.trans hmem, hterms'.trans hterms,
    ⟨hs'.trans hs, hp'.trans hp, ho'.trans ho⟩, hstate'.trans hstate, hcur'.trans hcur⟩

/-- A change of the mode controller that leaves the faults alone. -/
theorem modeMoves_setCtl {v : Ctl} (hf : v.faults = s.ctl.faults) (hg : v.first = s.ctl.first) :
    ModeMoves s (s.setCtl v) :=
  ⟨undisturbed_of_quiet rfl, rfl, ⟨hf, hg⟩, rfl, rfl, ⟨rfl, rfl, rfl⟩, rfl, rfl⟩

theorem modeMoves_setRun (n : Nat) (s : State) : ModeMoves s (s.setGuard { s.guard with run := n }) :=
  ⟨undisturbed_of_quiet rfl, rfl, ⟨rfl, rfl⟩, rfl, rfl, ⟨rfl, rfl, rfl⟩, rfl, rfl⟩

theorem modeMoves_setMode (m : Mode) (s : State) : ModeMoves s (setMode m s) := by
  obtain ⟨l, hl, he⟩ := setMode_eq m s
  refine ⟨undisturbed_of_quiet (quiet_setMode m s), ?_⟩
  rw [he]
  exact ⟨rfl, ⟨rfl, rfl⟩, rfl, rfl, ⟨rfl, rfl, rfl⟩, (congrArg Line.state hl :), (congrArg Line.cur hl :)⟩

theorem modeMoves_endRecovery (s : State) : ModeMoves s (endRecovery s) :=
  (modeMoves_setRun 0 s).trans (modeMoves_setCtl rfl rfl)

/-- A return mode and the event causes, with no recovery left. -/
theorem modeMoves_prepared (v : Option Mode) (x y : Bool) (s : State) :
    ModeMoves s (endRecovery (s.setCtl { s.ctl with ret := v, starved := x, request := y })) :=
  (modeMoves_setCtl (v := { s.ctl with ret := v, starved := x, request := y }) rfl rfl).trans (modeMoves_endRecovery _)

theorem modeMoves_takeCauses (s : State) : ModeMoves s (takeCauses s) := modeMoves_setCtl rfl rfl

theorem modeMoves_enterHold (s : State) : ModeMoves s (enterHold s) :=
  (modeMoves_prepared (some (if s.ctl.recovery then .guard else s.ctl.mode)) s.ctl.starved s.ctl.request s).trans
    ((modeMoves_setMode .hold _).trans (modeMoves_takeCauses _))

theorem modeMoves_report (s : State) : ModeMoves s (report s) := by
  rcases report_eq s with he | ⟨-, -, he⟩ <;> rw [he]
  · exact modeMoves_takeCauses s
  · exact (modeMoves_takeCauses s).trans (modeMoves_enterHold _)

theorem modeMoves_toStandby (s : State) : ModeMoves s (toStandby s) :=
  (modeMoves_prepared none false false s).trans ((modeMoves_setMode .standby _).trans (modeMoves_report _))

/-- The arrival of the request is the port's alone. -/
theorem ModeMoves.arrived (h : ModeMoves (arrived .up s) t) : Undisturbed (arrived .up s) t ∧ LeavesTables s t :=
  ⟨h.blocks, h.tables.mgmt, h.tables.faults, h.tables.mem, h.tables.terms, h.tables.zones, h.tables.tracker⟩

/-! ### The lay controller and the mode after a change -/

theorem lay_setMode (m : Mode) (s : State) : (setMode m s).lay = s.lay.onMode s.ctl.mode m s.params.hover := by
  obtain ⟨l, -, he⟩ := setMode_eq m s
  rw [he]
  rfl

theorem phase_leaveBed (l : Lay) (h : Nat) :
    (l.leaveBed h).phase = if l.phase = .descend ∨ l.phase = .settle then .approach else l.phase := by
  unfold Lay.leaveBed
  cases hp : l.phase <;> simp [Lay.toApproach, hp]

theorem phase_enterHold (s : State) : (enterHold s).lay.phase = s.lay.phase := by
  show (setMode .hold _).lay.phase = _
  rw [lay_setMode]
  rfl

theorem phase_report (s : State) : (report s).lay.phase = s.lay.phase := by
  rcases report_eq s with he | ⟨-, -, he⟩ <;> rw [he]
  · rfl
  · exact phase_enterHold _

/-- A report of no active cause takes the causes alone. -/
theorem report_takes (h : (conditionsNow s).any = false) : report s = takeCauses s := by
  rcases report_eq s with he | ⟨-, hany, -⟩
  · exact he
  · rw [h] at hany
    cases hany

/-- GUARD with no cause active. -/
theorem ctl_guardCalm (h : (conditionsNow s).any = false) : (report (setMode .guard s)).ctl =
    { s.ctl with mode := .guard, holdN := false, conditions := conditionsNow s } := by
  rw [report_takes (by rw [conditionsNow_setMode]; exact h)]
  show { (setMode .guard s).ctl with conditions := conditionsNow (setMode .guard s) } = _
  rw [ctl_setMode, conditionsNow_setMode]
  rfl

/-- GUARD with a cause active becomes HOLD in the same event (R185). -/
theorem ctl_guardHalted (h : (conditionsNow s).any = true) : ∃ x, (report (setMode .guard s)).ctl =
    { s.ctl with mode := .hold, holdN := true, ret := some .guard, recovery := false, conditions := x } := by
  obtain ⟨x, hx⟩ := ctl_enterHold (takeCauses (setMode .guard s))
  refine ⟨x, ?_⟩
  rw [report_holds (by rw [ctl_setMode]; rfl) (by rw [conditionsNow_setMode]; exact h), hx]
  show { (setMode .guard s).ctl with
    ret := some (if (setMode .guard s).ctl.recovery then .guard else (setMode .guard s).ctl.mode), recovery := false
    mode := .hold, holdN := true, conditions := x } = _
  rw [ctl_setMode, ite_self]

/-! ### What the requests ask for -/

theorem conditions_any : (conditionsNow s).any = true ↔
    s.ctl.recovery = false ∧ s.guard.outcome.violation = true ∨ s.line.state = .lost ∨ s.line.state = .none ∨
      s.guard.poisoned ≠ [] ∨ termCause s = true := by
  simp only [Conditions.any, conditionsNow, Bool.or_eq_true, Bool.and_eq_true, Bool.not_eq_true', beq_iff_eq,
    List.isEmpty_eq_false_iff]
  simp only [or_assoc]

theorem coarseSeen_iff : coarseSeen s = true ↔
    (∃ i k, i < 24 ∧ s.axis.index[i]?.join = some k ∧ k.role = .coarse ∧ axisUnreadable s i = false) ∧
      ∀ i k, i < 24 → s.axis.index[i]?.join = some k → k.role = .coarse → axisUnreadable s i = false →
        (feedbackOf s i).seen = true := by
  simp only [coarseSeen, Bool.and_eq_true, Bool.not_eq_true', List.isEmpty_eq_false_iff_exists_mem, List.all_eq_true,
    List.mem_filter, List.mem_range]
  constructor
  · rintro ⟨⟨i, hi, he⟩, hall⟩
    refine ⟨?_, fun i k hi hk hr hu => hall i ⟨hi, by simp [hk, hr, hu]⟩⟩
    split at he
    · rename_i k hk
      simp only [Bool.and_eq_true, beq_iff_eq, Bool.not_eq_true'] at he
      exact ⟨i, k, hi, hk, he.1, he.2⟩
    · cases he
  · rintro ⟨⟨i, k, hi, hk, hr, hu⟩, hall⟩
    refine ⟨⟨i, hi, by simp [hk, hr, hu]⟩, fun i ⟨hi, he⟩ => ?_⟩
    split at he
    · rename_i k hk
      simp only [Bool.and_eq_true, beq_iff_eq, Bool.not_eq_true'] at he
      exact hall i k hi hk he.1 he.2
    · cases he

theorem entryOfRole_isSome (r : Role) : (entryOfRole r s).isSome = true ↔
    ∃ i k, i < 24 ∧ s.axis.index[i]?.join = some k ∧ k.role = r ∧ axisUnreadable s i = false := by
  unfold entryOfRole
  rw [List.find?_isSome]
  constructor
  · rintro ⟨i, hi, he⟩
    split at he
    · rename_i k hk
      simp only [Bool.and_eq_true, beq_iff_eq, Bool.not_eq_true'] at he
      exact ⟨i, k, List.mem_range.1 hi, hk, he.1, he.2⟩
    · cases he
  · rintro ⟨i, k, hi, hk, hr, hu⟩
    refine ⟨i, List.mem_range.2 hi, ?_⟩
    simp [hk, hr, hu]

/-- The ten roles of R181 are those of the fine axes and the stations. -/
theorem rolesPresent_iff : rolesPresent s = true ↔ ∀ r, r ≠ .coarse → r ≠ .sensor →
    ∃ i k, i < 24 ∧ s.axis.index[i]?.join = some k ∧ k.role = r ∧ axisUnreadable s i = false := by
  simp only [rolesPresent, List.all_eq_true, entryOfRole_isSome]
  refine ⟨fun h r hc hs => h r ?_, fun h r hr => h r ?_ ?_⟩
  · cases r with
    | coarse => exact absurd rfl hc
    | sensor => exact absurd rfl hs
    | _ => decide
  · rintro rfl; exact absurd hr (by decide)
  · rintro rfl; exact absurd hr (by decide)

/-! ### What each request answers -/

theorem modeGuard_standby (hm : s.ctl.mode = .standby) : modeRequest 1 s =
    if s.line.state == .valid && coarseSeen s then (.ok, report (setMode .guard s)) else (.refusedMode, s) := by
  show requestGuard s = _
  rw [requestGuard, hm]

theorem modeGuard_guard (hm : s.ctl.mode = .guard) : modeRequest 1 s = (.ok, s) := by
  show requestGuard s = _
  rw [requestGuard, hm]

theorem modeGuard_lay (hm : s.ctl.mode = .lay) : modeRequest 1 s = (.ok, report (setMode .guard s)) := by
  show requestGuard s = _
  rw [requestGuard, hm]

theorem modeGuard_hold (hm : s.ctl.mode = .hold) : modeRequest 1 s = (.refusedMode, s) := by
  show requestGuard s = _
  rw [requestGuard, hm]

theorem modeLay_guard (hm : s.ctl.mode = .guard) : modeRequest 2 s =
    if !s.ctl.recovery && rolesPresent s then (.ok, setMode .lay s) else (.refusedMode, s) := by
  show requestLay s = _
  rw [requestLay, hm]

theorem modeLay_lay (hm : s.ctl.mode = .lay) : modeRequest 2 s = (.ok, s) := by
  show requestLay s = _
  rw [requestLay, hm]

theorem modeLay_held (hm : s.ctl.mode.held = true) : modeRequest 2 s = (.refusedMode, s) := by
  show requestLay s = _
  unfold requestLay
  split <;> simp_all [Mode.held]

theorem modeHold_free (hm : s.ctl.mode = .guard ∨ s.ctl.mode = .lay) :
    modeRequest 4 s = (.ok, enterHold (s.setCtl { s.ctl with request := true })) := by
  show requestHold s = _
  rcases hm with hm | hm <;> rw [requestHold, raiseRequest, hm]

theorem modeHold_hold (hm : s.ctl.mode = .hold) : modeRequest 4 s = (.ok, s.setCtl { s.ctl with request := true }) := by
  show requestHold s = _
  rw [requestHold, raiseRequest, hm]

theorem modeHold_standby (hm : s.ctl.mode = .standby) : modeRequest 4 s = (.refusedMode, s) := by
  show requestHold s = _
  rw [requestHold, hm]

theorem resume_hold (hm : s.ctl.mode = .hold) : modeRequest 5 s = if s.ctl.conditions.any then (.refusedMode, s)
    else (.ok, setMode (if s.ctl.ret = some .lay then .lay else .guard) (leaveHold s)) := by
  show requestResume s = _
  rw [requestResume, hm]

theorem recover_hold (hm : s.ctl.mode = .hold) : modeRequest 6 s = if onlyGuard s.ctl.conditions then
      (.ok, takeCauses (setMode .guard (beginRecovery (leaveHold s)))) else (.refusedMode, s) := by
  show requestRecover s = _
  rw [requestRecover, hm]

/-- RESUME and RECOVER are taken in HOLD alone (R182). -/
theorem leave_elsewhere (hm : s.ctl.mode ≠ .hold) :
    modeRequest 5 s = (.refusedMode, s) ∧ modeRequest 6 s = (.refusedMode, s) := by
  show requestResume s = _ ∧ requestRecover s = _
  unfold requestResume requestRecover
  cases h : s.ctl.mode with
  | hold => exact absurd h hm
  | standby => exact ⟨rfl, rfl⟩
  | guard => exact ⟨rfl, rfl⟩
  | lay => exact ⟨rfl, rfl⟩

/-! ### The transmitter in STANDBY -/

theorem running_frameDue (d : Word) (s : State) : (frameDue d s).line.running = s.line.running := by
  unfold frameDue; split <;> rfl

/-- The transmitter runs exactly when it should (R99). -/
theorem running_refreshTx (s : State) : (refreshTx s).line.running = txShouldRun s := by
  unfold refreshTx
  cases hrun : txShouldRun s with
  | true =>
    rw [if_pos rfl]
    split
    · assumption
    · exact running_frameDue _ _
  | false => rfl

theorem txShouldRun_standby (hm : s.ctl.mode = .standby) : txShouldRun s = s.params.trkLoop := by
  rw [txShouldRun, hm, bne_self_eq_false, Bool.and_false, Bool.or_false]

/-- In STANDBY the transmitter runs in the loop test alone. -/
theorem running_toStandby (s : State) : (toStandby s).line.running = s.params.trkLoop := by
  obtain ⟨u, hu⟩ : ∃ u, u = endRecovery (s.setCtl { s.ctl with ret := none, starved := false, request := false }) := ⟨_, rfl⟩
  have hheld : (setMode .standby u).ctl.mode.held = true := by
    rw [ctl_setMode]
    rfl
  rw [toStandby, ← hu, report_held hheld]
  show (refreshTx _).line.running = _
  rw [running_refreshTx, txShouldRun_standby rfl, hu]
  rfl

theorem ctl_toStandby (s : State) : (toStandby s).ctl = standbyCtl s := by
  obtain ⟨l, -, he⟩ := toStandby_eq s
  rw [he]
  rfl

end Sys2Proof.Machine
end

section
/-! The mode requests (O52). -/

namespace Sys2Proof.Machine

variable {s t u : State} {who : Sender} {level : Nat}

/-- Settles O52: each request is answered by the mode controller from the mode it finds; the premises of GUARD and LAY are those
that the controller tests. -/
theorem modeRequestsAreJudgedOnTheMode : Obligations.ModeRequestsAreJudgedOnTheMode := by
  intro s who level cause ready full h hl hcause hready hfull
  obtain ⟨u, hu⟩ : ∃ u, u = arrived .up s := ⟨_, rfl⟩
  have hctl : u.ctl = s.ctl := by rw [hu]; rfl
  have hany : (conditionsNow u).any = true ↔ cause := by rw [hcause, hu]; exact conditions_any
  have hseen : (u.line.state == .valid && coarseSeen u) = true ↔ ready := by
    rw [Bool.and_eq_true, beq_iff_eq, coarseSeen_iff, hready, hu]
    rfl
  have hroles : (!u.ctl.recovery && rolesPresent u) = true ↔ full := by
    rw [Bool.and_eq_true, Bool.not_eq_true', rolesPresent_iff, hfull, hu]
    rfl
  have hmoves : ∀ {t}, ModeMoves u t → Undisturbed (arrived .up s) t ∧ LeavesTables s t := fun hm => (hu ▸ hm).arrived
  have hanswer : ∀ {k x t}, 0 < k → k < 6 → modeRequest k u = (x, t) →
      operate who opMode 0 0 0 (BitVec.ofNat 128 k) s = .next (moded who x t) := fun hk hk' e =>
    mode_answers h hk hk'.le (by rw [modeLevel, if_neg (by omega)]; exact hl) (hu ▸ e)
  have hcalm : ¬ cause → (conditionsNow u).any = false := fun hn => Bool.eq_false_iff.2 fun ha => hn (hany.1 ha)
  have hguard := hmoves ((modeMoves_setMode .guard u).trans (modeMoves_report _))
  refine ⟨fun hm hr => ?_, fun hm hr => ?_, fun hm => ?_, fun hm => ?_, fun hm => ?_, fun hm hf => ?_, fun hm hf => ?_,
    fun hm => ?_, fun hm => ?_, ?_⟩
  · rw [← hctl] at hm
    refine ⟨_, hanswer (by decide) (by decide) ((modeGuard_standby hm).trans (if_pos (hseen.2 hr))), hguard.1, hguard.2,
      fun hn => ?_, fun hc => ?_⟩
    · rw [ctl_guardCalm (hcalm hn), hctl]
      exact ⟨rfl, rfl, rfl, rfl⟩
    · obtain ⟨x, hx⟩ := ctl_guardHalted (hany.2 hc)
      rw [hx]
      exact ⟨rfl, rfl, rfl, rfl⟩
  · rw [← hctl] at hm
    exact hu ▸ hanswer (by decide) (by decide) ((modeGuard_standby hm).trans (if_neg fun ht => hr (hseen.1 ht)))
  · exact hu ▸ hanswer (by decide) (by decide) (modeGuard_guard (hctl ▸ hm))
  · rw [← hctl] at hm
    refine ⟨_, hanswer (by decide) (by decide) (modeGuard_lay hm), hguard.1, hguard.2, ?_, fun hn => ?_⟩
    · rw [phase_report, lay_setMode, hm]
      exact (phase_leaveBed u.lay _).trans (by rw [hu]; rfl)
    · rw [ctl_guardCalm (hcalm hn)]
      exact ⟨rfl, rfl⟩
  · exact hu ▸ hanswer (by decide) (by decide) (modeGuard_hold (hctl ▸ hm))
  · rw [← hctl] at hm
    have hlay := hmoves (modeMoves_setMode .lay u)
    refine ⟨_, hanswer (by decide) (by decide) ((modeLay_guard hm).trans (if_pos (hroles.2 hf))), hlay.1, hlay.2, ?_, ?_⟩
    · rw [lay_setMode, hm, hu]
      rfl
    · rw [ctl_setMode, hctl]
      rfl
  · rw [← hctl] at hm
    exact hu ▸ hanswer (by decide) (by decide) ((modeLay_guard hm).trans (if_neg fun ht => hf (hroles.1 ht)))
  · exact hu ▸ hanswer (by decide) (by decide) (modeLay_lay (hctl ▸ hm))
  · exact hu ▸ hanswer (by decide) (by decide) (modeLay_held (hctl ▸ hm))
  · have hstandby := hmoves (modeMoves_toStandby u)
    refine ⟨toStandby u, hanswer (k := 3) (by decide) (by decide) rfl, hstandby.1, hstandby.2, ?_⟩
    rw [running_toStandby, ctl_toStandby, hu]
    exact ⟨rfl, rfl, rfl, rfl, rfl, rfl, rfl⟩

/-! ### HOLD, RESUME and RECOVER (O53) -/

/-- GUARD is the one active cause (R182). -/
theorem onlyGuard_iff {x : Conditions} : onlyGuard x = true ↔ x = ⟨true, false, false, false⟩ := by
  obtain ⟨g, k, z, w⟩ := x
  simp [onlyGuard, and_assoc]

/-- GUARD in recovery: the event causes and the return mode are gone, and the cause GUARD is set aside (R117, R182, R183). -/
theorem ctl_recovered (s : State) : ∃ x : Conditions, x.guard = false ∧
    (takeCauses (setMode .guard (beginRecovery (leaveHold s)))).ctl =
      { s.ctl with
        mode := .guard, holdN := false, ret := none, starved := false, request := false, recovery := true
        conditions := x } := by
  refine ⟨conditionsNow (setMode .guard (beginRecovery (leaveHold s))), ?_, ?_⟩
  · rw [conditionsNow_setMode]
    rfl
  · rw [takeCauses, State.setCtl_ctl, ctl_setMode]
    rfl

/-- Settles O53: each request is answered by the mode controller from the mode and the causes it finds, and a request above its
level before it. -/
theorem holdResumeAndRecover : Obligations.HoldResumeAndRecover := by
  intro s who level h
  obtain ⟨u, hu⟩ : ∃ u, u = arrived .up s := ⟨_, rfl⟩
  have hctl : u.ctl = s.ctl := by rw [hu]; rfl
  have hmoves : ∀ {t}, ModeMoves u t → Undisturbed (arrived .up s) t ∧ LeavesTables s t := fun hm => (hu ▸ hm).arrived
  have hanswer : ∀ {k x t}, 0 < k → k ≤ 6 → level ≤ modeLevel k → modeRequest k u = (x, t) →
      operate who opMode 0 0 0 (BitVec.ofNat 128 k) s = .next (moded who x t) := fun hk hk' hl e =>
    mode_answers h hk hk' hl (hu ▸ e)
  have hleave : ModeMoves u (leaveHold u) := modeMoves_setCtl rfl rfl
  refine ⟨fun hl hm => ?_, fun hl hm => ?_, fun hl hm => ?_, fun m hl hm hc hret hmode => ?_, fun hl hne => ?_,
    fun hl hm hc => ?_, fun hl hne => ?_, fun hl => ?_, fun hl => ?_⟩
  · have hrequest : ModeMoves u (u.setCtl { u.ctl with request := true }) := modeMoves_setCtl rfl rfl
    have hhold := hmoves (hrequest.trans (modeMoves_enterHold _))
    obtain ⟨x, hx⟩ := ctl_enterHold (u.setCtl { u.ctl with request := true })
    refine ⟨_, hanswer (by decide) (by decide) hl (modeHold_free (hctl ▸ hm)), hhold.1, hhold.2, ?_⟩
    rw [hx, phase_enterHold, hu]
    exact ⟨rfl, rfl, rfl, rfl, rfl, rfl, rfl⟩
  · rw [← hctl, ← hu]
    exact hanswer (by decide) (by decide) hl (modeHold_hold (hctl ▸ hm))
  · exact hu ▸ hanswer (by decide) (by decide) hl (modeHold_standby (hctl ▸ hm))
  · have htarget : (if u.ctl.ret = some .lay then Mode.lay else .guard) = m := by
      rw [hctl, hret]
      rcases hmode with rfl | rfl <;> rfl
    have hany : ¬ u.ctl.conditions.any = true := by rw [hctl, hc]; decide
    have hresume := hmoves (hleave.trans (modeMoves_setMode m _))
    refine ⟨setMode m (leaveHold u), hanswer (by decide) (by decide) hl ?_, hresume.1, hresume.2, ?_, ?_⟩
    · rw [resume_hold (hctl ▸ hm), if_neg hany, htarget]
    · rw [ctl_setMode, hu]
      rcases hmode with rfl | rfl <;> rfl
    · have hhold : (leaveHold u).ctl.mode = .hold := (congrArg Ctl.mode hctl).trans hm
      have hlay : (leaveHold u).lay = s.lay := by rw [hu]; rfl
      have hbed : (setMode m (leaveHold u)).lay = (leaveHold u).lay.leaveBed (leaveHold u).params.hover := by
        rw [lay_setMode, hhold]
        rcases hmode with rfl | rfl <;> rfl
      rw [hbed, phase_leaveBed, hlay]
  · refine hu ▸ hanswer (k := 5) (by decide) (by decide) hl ?_
    by_cases hm : u.ctl.mode = .hold
    · have hany : u.ctl.conditions.any = true := by
        rcases hne with hne | hne
        · exact absurd (hctl ▸ hm) hne
        · exact Bool.eq_true_of_not_eq_false fun hf => hne (hctl ▸ any_eq_false hf)
      rw [resume_hold hm, if_pos hany]
    · exact (leave_elsewhere hm).1
  · have honly : onlyGuard u.ctl.conditions = true := onlyGuard_iff.2 (hctl ▸ hc)
    have hbegin : ModeMoves u (beginRecovery (leaveHold u)) :=
      (hleave.trans (modeMoves_setRun 0 _)).trans (modeMoves_setCtl rfl rfl)
    have hrecover := hmoves ((hbegin.trans (modeMoves_setMode .guard _)).trans (modeMoves_takeCauses _))
    obtain ⟨x, hx, hr⟩ := ctl_recovered u
    refine ⟨_, hanswer (by decide) (by decide) (hl ▸ Nat.zero_le _) ((recover_hold (hctl ▸ hm)).trans (if_pos honly)),
      hrecover.1, hrecover.2, ?_⟩
    have hrun : (takeCauses (setMode .guard (beginRecovery (leaveHold u)))).guard.run = 0 :=
      congrArg Guard.run (guard_setMode .guard (beginRecovery (leaveHold u)))
    rw [hr, hrun]
    exact ⟨rfl, rfl, rfl, rfl, rfl, rfl, hx, rfl⟩
  · refine hu ▸ hanswer (k := 6) (by decide) (by decide) (hl ▸ Nat.zero_le _) ?_
    by_cases hm : u.ctl.mode = .hold
    · refine (recover_hold hm).trans (if_neg fun honly => ?_)
      have hc := onlyGuard_iff.1 honly
      rcases hne with hne | hne
      · exact hne (hctl ▸ hm)
      · exact hne (hctl ▸ hc)
    · exact (leave_elsewhere hm).2
  · have hrefused : ∀ k, 0 < k → k < 6 →
        operate who opMode 0 0 0 (BitVec.ofNat 128 k) s = .next (moded who .refusedLevel (arrived .up s)) := fun k hk hk' =>
      mode_refused h hk hk'.le (by rw [modeLevel, if_neg (by omega)]; exact hl)
    exact ⟨hrefused 1 (by decide) (by decide), hrefused 2 (by decide) (by decide), hrefused 3 (by decide) (by decide),
      hrefused 4 (by decide) (by decide), hrefused 5 (by decide) (by decide)⟩
  · exact mode_refused (k := 6) h (by decide) (by decide) hl

end Sys2Proof.Machine
end

section
/-! The state after a power-on reset (R139, R162, R190): the reset values (O3), and the laws that hold of it (O4). -/

namespace Sys2Proof.Machine

variable {n : Nat}

/-! ### The origin table after a power-on reset (R162) -/

/-- Origin entry 0 has no byte in another part. -/
theorem partCells_origin (ra oa : BitVec 7) (hn : 0 < n) :
    partCells (originCells ra oa ++ paramCells) n = partCells paramCells n := by
  have horigin : (originCells ra oa).filter (fun c => c.1 / 16 == n) = [] := List.filter_eq_nil_iff.2 fun c hc => by
    have hlow : c.1 < 16 := by
      unfold originCells at hc
      split at hc
      · cases hc
      · simp only [List.mem_cons, List.not_mem_nil, or_false] at hc
        rcases hc with rfl | rfl <;> simp
    rw [beq_iff_eq]
    omega
  rw [partCells, List.filter_append, horigin, List.nil_append, partCells]

/-- Part 0 has no byte of the parameters. -/
theorem partCells_zero (ra oa : BitVec 7) : partCells (originCells ra oa ++ paramCells) 0 = partCells (originCells ra oa) 0 := by
  have hparams : paramCells.filter (fun c => c.1 / 16 == 0) = [] := by decide
  rw [partCells, List.filter_append, hparams, List.append_nil, partCells]

/-- R162: the strapped origin has level 0; without one the entry is not present. -/
theorem peek_origin_poweredOn (ra oa : BitVec 7) (ready space : Bool) (l : List Instr) :
    peekPart (poweredOn ra oa ready space l) 0 =
      if oa = 0 ∨ oa = 127 ∨ oa = ra then 0 else packPart [(1, 1), (1, oa.toNat), (1, 0)] := by
  have hpart : ∀ a : BitVec 7, partData [(0, 1), (1, a.zeroExtend 8)] 0 = packPart [(1, 1), (1, a.toNat), (1, 0)] := by decide
  have hcells : peekPart (poweredOn ra oa ready space l) 0 = partData (originCells ra oa) 0 :=
    congrArg (fun m => BitVec.ofNat 128 (gather m 0 0 16)) (partCells_zero ra oa)
  rw [hcells, originCells]
  simp only [Bool.or_eq_true, decide_eq_true_eq, or_assoc]
  split
  · rfl
  · exact hpart oa

theorem peek_poweredOn (ra oa : BitVec 7) (ready space : Bool) (l : List Instr) (hn : 0 < n) :
    peekPart (poweredOn ra oa ready space l) n = peekPart State.reset n := by
  have hcells : partCells (originCells ra oa ++ paramCells) n = partCells (originCells 1 2 ++ paramCells) n := by
    rw [partCells_origin ra oa hn, partCells_origin 1 2 hn]
  exact congrArg (fun m => BitVec.ofNat 128 (gather m n 0 16)) hcells

/-- R139: the strap values 0 and 127 give no ring address. -/
theorem ownOfStrap_eq (ra : BitVec 7) : ownOfStrap ra = if ra = 0 ∨ ra = 127 then 0 else ra.zeroExtend 8 := by
  simp only [ownOfStrap, Bool.or_eq_true, decide_eq_true_eq]

/-! ### The reset values and their laws -/

/-- Settles O3: the state is given outright by the reset; only the memory of the origin table has to be read. -/
theorem powerOnResetTakesTheResetValues : Obligations.PowerOnResetTakesTheResetValues := by
  intro ra oa ready space s
  refine ⟨poweredOn ra oa ready space s.pending, rfl, rfl, rfl, ownOfStrap_eq ra, fun p => ?_, rfl, rfl, rfl, rfl, rfl, ?_,
    rfl, rfl, rfl, rfl, rfl, rfl, rfl, rfl, rfl, rfl, rfl, rfl, rfl, rfl, rfl, rfl, peek_origin_poweredOn ra oa ready space _,
    fun n hn => peek_poweredOn ra oa ready space _ hn, rfl⟩
  · cases p <;> exact ⟨rfl, rfl⟩
  · cases space <;> rfl

theorem reset_eq : State.reset = poweredOn 1 2 false false [] := rfl

/-- Settles O4: the reset state is what a power-on reset leaves, and that meets each law of O5 and of O6. -/
theorem theResetStateObeysTheLaws : Obligations.TheResetStateObeysTheLaws := by
  have hruled : Ruled True True True State.reset := ruled_poweredOn 1 2 false false []
  have hsound : PlanSound True True State.reset := sound_initial rfl rfl rfl
  exact ⟨lawful_reset, hsound.order, reset_eq, watched_iff.2 ⟨hruled.laws trivial, hruled.reported trivial trivial⟩,
    hruled.awaited trivial, hsound.refs trivial, hsound.track trivial⟩

end Sys2Proof.Machine
end
